-- ==== Sys2Proof/Word.lean ====
section
/-!
DEFINITION. The word types of the NL-3464 model: registers are 32-bit words (R7), memory is bytes.
-/

/-- A register word (R7: each register is 32 bits wide). -/
abbrev Sys2Proof.Word := BitVec 32

/-- A byte of on-chip memory or of a frame. -/
abbrev Sys2Proof.Byte := BitVec 8
end

