-- ==== Sys2Proof/Syntax.lean ====
section
/-!
DEFINITION. The commands of the NL-3464 block: one constructor of `Instr` per row of the opcode table, with the
operands that the row's rules need. A register write carries its access path and its value; an event carries the
index of the unit and what the outside world shows the device at that moment.
-/

namespace Sys2Proof

/-- The three access paths to the registers (R24, R27): the command ring, the two-wire target, the debug port. -/
inductive Path where
  | ring
  | twb
  | dbg
  deriving DecidableEq, Repr

/-- The three kinds of engine pool (R140, R187, R200). -/
inductive EngKind where
  | pixel
  | nozzle
  | correlator
  deriving DecidableEq, Repr

/-- The fields of a taken command-ring entry that its processing needs (R343). -/
structure CmdEntry where
  /-- The host's TAG. -/
  tag : BitVec 16
  /-- FLAGS: bit 0 NOTIFY, other bits reserved. -/
  flags : Word
  /-- Argument words 0 to 12. -/
  args : List Word
  deriving DecidableEq, Repr

/-- What one tap shows during a readout (R41, R79): raw converter codes in readout-clock order, and for each slice of
the pair the first readout clock whose stage decision was impossible, a dummy's or a sable sample's included. -/
structure TapRead where
  /-- Raw codes of the 8 sable pixels. -/
  sable : List Nat
  /-- Raw codes of the active samples. -/
  active : List Nat
  /-- Readout clock of the first erroring sample of the even-clock slice, if any. -/
  errEven : Option Nat
  /-- Readout clock of the first erroring sample of the odd-clock slice, if any. -/
  errOdd : Option Nat
  /-- Lower leg's mean loop current (or common mode in mV) over the readout. -/
  loopUa : Nat
  deriving DecidableEq, Repr

/-- One segment's readout: its four taps (R41). -/
structure Readout where
  taps : List TapRead
  deriving DecidableEq, Repr

/-- What one tap's training measures (R50): the coarse sweep (64 points), the fine sweeps (16 rows of 32 points) and the
final sweep (64 points). A point is the active samples of its two readouts, one after the other; empty when it is not
measured. `loopUa` is the lower leg's mean loop current over the last readout (R64). -/
structure TapTrain where
  seg : Fin 64
  tap : Fin 4
  coarse : List (List Nat)
  fine : List (List (List Nat))
  final : List (List Nat)
  loopUa : Nat
  deriving DecidableEq, Repr

/-- What one segment shows at start-up (R63): the statuses it answers the device's frames with (R60; frame 0 to 2 read ID_HI,
ID_LO and CAPS, then one frame for each entry of the SEGREG section, then the test pattern's; a frame without a status left is
acknowledged), its identification and, per tap, the difference of the 90 % and 10 % levels in per mille of full scale and the
common mode in mV over the last readout of the cable test (R64). -/
structure SegBringup where
  seg : Fin 64
  replies : List (List (BitVec 4))
  idHi : BitVec 16
  idLo : BitVec 16
  caps : BitVec 16
  levels : List Nat
  loop : List Nat
  deriving DecidableEq, Repr

/-- The sample sums of a slice calibration (R70): raw sums of 4,096 samples at L1 and L2, corrected sum of 4,096 samples
on the ramp, and corrected sums of 2,048 samples at L1, L2 and the ramp. Raw sums are in LSB, corrected sums in 1/4 LSB. -/
structure CalMeas where
  l1 : Nat
  l2 : Nat
  ramp : Nat
  r1 : Nat
  r2 : Nat
  rr : Nat
  deriving DecidableEq, Repr

/-- What the SFDP tables give of the xSPI Profile 1.0 (R360): the highest rate in MHz, the volatile configuration writes
that enter 8D-8D-8D mode, the read command and its dummy cycles. -/
structure XspiProfile where
  mhz : Nat
  enter : List (List (BitVec 8))
  read : List (BitVec 8)
  dummy : Nat
  deriving DecidableEq, Repr

/-- The samples of an absolute-port frame (R257, R258). -/
structure AbsFrame where
  /-- ABS_SLO has been high for the whole of the last 1 µs. -/
  ready : Bool
  /-- The samples of ABS_SLO in the order taken. SSI: at F1 and on, the last one in the monoflop time. BiSS: from the sample
  that belongs to R3 on, Ack, Start, CDS, data, nE, nW and CRC. -/
  samples : List Bool
  /-- BiSS: the measured line delay in units of 1.25 ns. -/
  ld : BitVec 11
  deriving DecidableEq, Repr

/-- What the monitor converter shows in one chop period (R271, R286): raw codes of the two roles in each half, the slices
whose redundancy logic reported an error, and for each channel its common-mode readings in mV. -/
structure ChopIn where
  plus0 : List Nat
  plus1 : List Nat
  minus0 : List Nat
  minus1 : List Nat
  err0 : Bool
  err1 : Bool
  cm : List (List Int)
  deriving DecidableEq, Repr

/-- An RDMA READ response (R339, R344): the credit block's two counts, or a run of command entries of 64 bytes. -/
inductive ReadData where
  | credits (ciLine ciEvent : BitVec 64)
  | entries (es : List (List Byte))
  | data (bytes : List Byte)
  deriving DecidableEq, Repr

/-- What a received frame shows before its content (R329, R354): destination MAC, VLAN tag if it has one, and the codewords that
FEC has corrected, and has found uncorrectable, on the port since the last such frame. -/
structure RxFrame where
  dmac : BitVec 48
  vlan : Option (BitVec 12)
  corr : BitVec 16
  uncorr : BitVec 16
  deriving DecidableEq, Repr

/-- NAK codes (R333). -/
inductive NakCode where
  | seqErr
  | remoteAccess
  | remoteOperational
  | invalidRequest
  | rnr
  deriving DecidableEq, Repr

/-- What a rail's supply monitor names (R415, R416). -/
inductive Rail where
  | core | sram | sds | vddhSds | vaaRx | vaaVid | io18 | io33 | xspi | vaaMon | ind
  deriving DecidableEq, Repr

/-- The commands: one constructor per row of the opcode table, in the table's order. -/
inductive Instr where
  | registerWrite (p : Path) (addr val : Word)
  | rcRead (p : Path) (addr : Word)
  | multiwordRead (p : Path) (addr : Word)
  | multiwordWrite (p : Path) (addr val : Word)
  | heartbeatTick (ack : BitVec 76)
  | islandHeartbeatTimeout (island : Fin 76)
  | islandClockFault (island : Fin 76)
  | controlIslandLost (clock : Bool)
  | controlIslandReturn
  | commitHoldWrite (p : Path) (val : Word)
  | holdLong
  | snapRequest (p : Path) (val : Word)
  | snapshotTake
  | timeCorrection
  | tsyncEdge (rising : Bool) (heldNs : Nat)
  | safeForce (p : Path) (val : Word)
  | safeNLow
  | refclkFault
  /-- `low`: the rail has fallen below the threshold of the outputs it supplies (R416). -/
  | supplyFault (rail : Rail) (low : Bool)
  | thermFault
  | portsDownTimeout
  | motionParityError
  | lampbusTimeout
  | safeAllOffRepeat
  | safeCauseClear (p : Path) (val : Word)
  | safeClear (e : CmdEntry)
  | safeClearEval
  | lineStart
  | heldLineRelease
  | phaseStart
  | closingStartPulse
  | strobeRise
  | strobeFall (c : Fin 4)
  | lampEnOff
  | readoutComplete (seg : Fin 64) (r : Readout)
  | flushPhases
  | trainStart (p : Path) (val : Word)
  | trainDone (taps : List TapTrain)
  | loopBroken (seg : Fin 64) (tap : Fin 4) (leg : Bool) (ua : Nat) (sample : Nat)
  | voltageModeSwitch (seg : Fin 64) (ok0 ok1 ok2 ok3 : Bool) (loop : List Nat)
  | scbHostFrame (p : Path) (bus : Fin 4) (val : Word)
  | scbReply (bus : Fin 4) (status : BitVec 4) (data : BitVec 16) (check : Byte)
  | scbBusyRetry (bus : Fin 4)
  | segmentBringup (segs : List SegBringup)
  | sliceCalDone (n : Fin 579) (m : CalMeas)
  | rotationStepIdle (g : Fin 65)
  | groupRetest (p : Path) (g : Fin 65) (val : Word)
  | groupPark (p : Path) (g : Fin 65) (val : Word)
  | adcFreeze (p : Path) (val : Word)
  | lampBusTransaction (bus : Fin 2)
  | lampReply (bus : Fin 2) (frame : List Byte)
  | lampNoReply (bus : Fin 2)
  | zonePingTimer (z : Fin 64)
  | busPingTimer (bus : Fin 2)
  | lampCommitSlot
  | lampAllOffWrite (p : Path) (val : Word)
  | tintResetf (p : Path) (val : Word)
  | zonePingWrite (p : Path) (z : Fin 64) (val : Word)
  | zoneClearWrite (p : Path) (z : Fin 64) (val : Word)
  | pxeTakeBlock (e : Fin 48)
  | blockDone (e : Fin 48)
  | engineParityError (k : EngKind) (e : Fin 48)
  | engineTestWrite (p : Path) (k : EngKind) (e : Fin 48) (val : Word)
  | engineHoldWrite (p : Path) (k : EngKind) (e : Fin 48) (val : Word)
  | engineTestDone (k : EngKind) (e : Fin 48) (pass : Bool) (mismatch : Nat)
  | lineCommit
  | lineAnalysisRead (flips : List (BitVec 23))
  | bankSelectWrite (p : Path) (val : Word)
  | bankCommit (e : CmdEntry)
  | calStart (e : CmdEntry)
  | calPrepareDone
  | calPassEnd
  | calShutterSettled
  | calVerifyEnd
  | calEnd
  | calAbort (p : Path) (val : Word)
  | bankCheck (p : Path) (bank : Fin 2) (val : Word)
  | bankCheckDone (bank : Fin 2)
  | bankMbist (p : Path) (bank : Fin 2) (val : Word)
  | bankMbistDone (bank : Fin 2) (unrepaired : Option Nat)
  | nzlClear (p : Path) (val : Word)
  | bandLineWrite (p : Path) (stream : Fin 4) (high : Bool) (val : Word)
  | eviEdge (g : Fin 4) (rising : Bool)
  | nzeTakeChunk (e : Fin 24)
  | chunkDone (e : Fin 24)
  | contextExport (e : CmdEntry)
  | exportDone (ok : Bool)
  | windowPlaceWrite (p : Path) (val : Word)
  | tceTakeItem (e : Fin 16)
  | corrItemDone (e : Fin 16)
  | profileTick
  | move (e : CmdEntry)
  | axisHalt (p : Path) (a : Fin 8) (val : Word)
  | axisStop (p : Path) (a : Fin 8) (val : Word)
  | motionStopAll (p : Path) (val : Word)
  | drvFltFall (a : Fin 8)
  | drvFltRise (a : Fin 8)
  | axisFault (a : Fin 8)
  | holdCurrentDrop (a : Fin 8)
  | moveStartDelay (a : Fin 8)
  | axisEnableWrite (p : Path) (a : Fin 8) (val : Word)
  | phomeRise (a : Fin 2)
  | phaseFail (a : Fin 2)
  | phaseRestored (a : Fin 2)
  | setposWrite (p : Path) (a : Fin 8) (high : Bool) (val : Word)
  | encset (p : Path) (a : Fin 8) (val : Word)
  | advance (e : CmdEntry)
  | advanceAccept
  | passBoundary
  | jobStart (e : CmdEntry)
  | jobStop (e : CmdEntry)
  | jobEnd
  | couchDwellEnd
  | couchRestart
  | absReq (p : Path) (n : Fin 4) (val : Word)
  | absPeriodicTrigger (n : Fin 4) (ready : Bool)
  | absRecoveryEnd (n : Fin 4) (ready : Bool)
  | absFrameDone (n : Fin 4) (f : AbsFrame)
  | absAckTimeout (n : Fin 4)
  | absNoStart (n : Fin 4) (ld : BitVec 11)
  | absBusyTimeout (n : Fin 4) (ld : BitVec 11)
  | absClrunc (p : Path) (n : Fin 4) (val : Word)
  | qeiCountEdge (n : Fin 4) (a b z : Bool)
  | qeiIndexEdge (n : Fin 4) (z : Bool)
  | qeiSpeedWindow (n : Fin 4)
  | qeiSpeedTimeout (n : Fin 4)
  | qeiClrunc (p : Path) (n : Fin 4) (val : Word)
  | qeiReidx (p : Path) (n : Fin 4) (val : Word)
  | chopPeriodBoundary (c : ChopIn)
  | dieEntryTimer
  | monAgeStale (n : Fin 16)
  | monCalWrite (p : Path) (val : Word)
  | monCalPeriodic
  | monSeqReq (p : Path) (val : Word)
  | monSeqPeriodic
  | monInject (p : Path) (val : Word)
  | monLoad (p : Path) (n : Fin 16) (val : Word)
  | monConfigWrite (p : Path) (n : Fin 16) (cmwin : Bool) (val : Word)
  | blankAssert
  | blankRelease
  | blankStuck
  | gapCloseAfterJob
  | packetIssue (flips : List (BitVec 23))
  | svcRead (p : Path) (flips : List (BitVec 23))
  | sinkWrite (p : Path) (val : Word)
  | dmaStart (p : Path) (c : Fin 32) (val : Word)
  | dmaStop (p : Path) (c : Fin 32) (val : Word)
  | dmaTimerExpiry (t : Fin 8)
  | dmaDescStart (c : Fin 32) (fetched : List Byte)
  | dmaBurstGrant (hostData : List Byte) (poison : Bool)
  | dmaDescDone (c : Fin 32)
  | evoPulseEnd (k : Fin 4)
  | linkFault (p : Fin 2) (remote : Bool)
  | portLinkHoldExpiry (p : Fin 2)
  | linkTrained (p : Fin 2)
  | portSteady (p : Fin 2)
  | portForceDown (p : Path) (port : Fin 2) (val : Word)
  | pfcStall (p : Fin 2)
  | arpRequest (p : Fin 2) (f : RxFrame) (target : Word) (senderMac : BitVec 48) (senderIp : Word)
  | neighbourSolicit (p : Fin 2) (f : RxFrame) (target : BitVec 128) (senderMac : BitVec 48) (senderIp : BitVec 128)
  | pfcFrame (p : Fin 2) (f : RxFrame) (prio : BitVec 3) (quanta : BitVec 16)
  | frameDiscard (p : Fin 2)
  | ackReceive (q : Fin 16) (f : RxFrame) (psn : BitVec 24)
  | nakReceive (q : Fin 16) (f : RxFrame) (code : NakCode) (psn : BitVec 24)
  | readResponse (q : Fin 16) (f : RxFrame) (r : ReadData)
  | cnpReceive (q : Fin 16) (f : RxFrame)
  | qpAckTimeout (q : Fin 16)
  | qpReset (p : Path) (q : Fin 16) (val : Word)
  | ecnAlphaTimer (q : Fin 16)
  | ecnRateTimer (q : Fin 16)
  | poll
  | standbyPoll
  | statusBlockTimer
  | eventWrite
  | hstCtrlWrite (p : Path) (val : Word)
  | nop (e : CmdEntry)
  | regWrite (e : CmdEntry)
  | regRead (e : CmdEntry)
  | tableLoad (e : CmdEntry)
  | indicate (e : CmdEntry)
  | snapshot (e : CmdEntry)
  | unknownOpcode (op : Byte) (e : CmdEntry)
  | powerOnReset
  | resetPin
  | cfgReset (p : Path) (val : Word)
  | resetApply
  | resetRelease (norVsel : Bool) (twbAddr : BitVec 3) (refUs : Nat)
  | flashReady (densLog2 : Nat) (prof : Option XspiProfile)
  | flashBurstFail (burst : BitVec 32)
  | imageHeadersRead (a b : List Byte)
  | imageCopyVerified (image : List Byte) (readOk : Bool)
  | startupComplete
  | fuseOperation (p : Path) (val : Word)
  | fuseDone (ok : Bool)
  | seal (p : Path) (val : Word)
  | sealDone
  | zeroise (p : Path) (val : Word)
  | zeroiseKeys
  /-- `io`: VDD_IO33 has fallen below 2.50 V, else VDD_CORE below 0.60 V (R416). -/
  | brownoutHold (io : Bool)
  | brownoutRelease
  /-- `phases`: the write phases up to the STOP, each after a START or a repeated START (R393). -/
  | twbWriteTransaction (phases : List (List Byte))
  | twbReadWord (head : List (List Byte)) (last : Fin 4) (stop : Bool)
  | twbAbort (phases : List (List Byte))
  | twbStuck (ack : Bool) (phases : List (List Byte))
  /-- `cells`: what the boundary register drives from its output cells as the instruction takes effect (R398, R399). -/
  | tapIrUpdate (ir : Byte) (cells : List Bool)
  | tapReset
  | dbgAccess (dr : BitVec 72)
  | dbgAccessDone
  | indFrame
  | indRowSlot
  | indPointerExpire (e : Fin 4)
  | safeBlinkToggle
  | safeNRelease
  | refclkRestored
  | supplyRestored (rail : Rail)
  | thermClear
  | pcsRealign (p : Fin 2)
  | pfcPauseExpiry (p : Fin 2)
  deriving DecidableEq, Repr

end Sys2Proof
end

