-- ==== Sys2Proof/Config.lean ====
section
/-!
DEFINITION. What the spec leaves open: opaque constants without a body, so that no proof can see a value. Each is named
in the assumption log.
-/

namespace Sys2Proof

/-- The error of the k-th time stamp (R29: every stamp lies within ±8 ns of the event): 0 to 16 stands for −8 to +8 ns. -/
opaque Config.stampError : Nat → Fin 17

/-- The last bit of a binary64 logarithm within 1 ulp (R275): false the value below, true the one above, applied to the
operand. -/
opaque Config.lnError : BitVec 64 → Bool

/-- The factory-trimmed law of the die sensor (R276): td in 0.1 °C from the averaged sample. -/
opaque Config.dieLaw : Int → BitVec 16

/-- The k-th draw of the random source for the IV of SEAL (R385). -/
opaque Config.sealRandom : Nat → BitVec 96

/-- What the cipher holds in place of the device-unique key while it is cut (R386): byte `i`. -/
opaque Config.cutKey : Nat → BitVec 8

/-- A byte of on-chip memory whose content the spec leaves without meaning, by draw and address (R309, R32). -/
opaque Config.openByte : Nat → Nat → BitVec 8

/-- The ICRC of a RoCEv2 frame (R328 says that it follows RoCEv2, and gives no computation): of the frame's header fields and
its payload. -/
opaque Config.icrc : List Nat → List (BitVec 8) → BitVec 32

/-- How long the fuses are sensed and the island clocks lock after a release of reset, in ns (R381 gives typical and largest
values). -/
opaque Config.fuseNs : Nat
opaque Config.lockNs : Nat

/-- The level of PHOME_a away from electrical position 0 (R232, R254: high at home; how far home reaches the spec does not say):
of the axis and its position. -/
opaque Config.homeLevel : Nat → Nat → Bool

/-- A number a rule leaves without a value for its operands, by the draw. -/
opaque Config.openNat : Nat → Nat

end Sys2Proof
end

