-- ==== Sys2Proof/Machine/Bits.lean ====
section
/-!
DEFINITION. Bit fields, sign extension, byte order, rounding, and the sparse table: the plain arithmetic that every
other file of the machine uses. Quantities that software sees as register fields are handled as `Nat` values of a
field; signed quantities as `Int`.
-/

namespace Sys2Proof.Machine

/-- Bits `lo` to `lo + w - 1` of `n`. -/
def bitsAt (n lo w : Nat) : Nat := n / 2 ^ lo % 2 ^ w

/-- `n` with bits `lo` to `lo + w - 1` replaced by the low `w` bits of `v`. -/
def putBits (n lo w v : Nat) : Nat :=
  n / 2 ^ (lo + w) * 2 ^ (lo + w) + v % 2 ^ w * 2 ^ lo + n % 2 ^ lo

/-- Bit `i` of `n`. -/
def bitAt (n i : Nat) : Bool := n / 2 ^ i % 2 == 1

/-- A Boolean as the bit software reads. -/
def b2n (b : Bool) : Nat := if b then 1 else 0

/-- `n` with bit `i` set to `b`. -/
def putBit (n i : Nat) (b : Bool) : Nat := putBits n i 1 (b2n b)

/-- The two's-complement value of the low `w` bits of `n`. -/
def toInt (w n : Nat) : Int :=
  if n % 2 ^ w < 2 ^ (w - 1) then (n % 2 ^ w : Nat) else ((n % 2 ^ w : Nat) : Int) - (2 ^ w : Nat)

/-- The `w`-bit two's-complement pattern of `i`. -/
def ofInt (w : Nat) (i : Int) : Nat := (i % ((2 ^ w : Nat) : Int)).toNat

/-- `i` limited to `lo` … `hi`. -/
def clampI (lo hi i : Int) : Int := if i < lo then lo else if hi < i then hi else i

/-- `n` limited to `lo` … `hi`. -/
def clampN (lo hi n : Nat) : Nat := if n < lo then lo else if hi < n then hi else n

/-- Saturating addition in `w` bits. -/
def satAdd (w n k : Nat) : Nat := min (n + k) (2 ^ w - 1)

/-- `i` saturated to a signed field of `w` bits. -/
def satInt (w : Nat) (i : Int) : Int := clampI (-(2 ^ (w - 1) : Nat)) ((2 ^ (w - 1) : Nat) - 1) i

/-- Quotient rounded to the nearest integer, a half away from zero. -/
def divAway (n d : Int) : Int :=
  if d = 0 then 0
  else if n < 0 then -((2 * (-n) + d).fdiv (2 * d)) else (2 * n + d).fdiv (2 * d)

/-- Quotient rounded to the nearest integer, a half upwards. -/
def divHalfUp (n d : Int) : Int := (2 * n + d).fdiv (2 * d)

/-- Quotient rounded up. -/
def ceilDiv (n d : Nat) : Nat := if d = 0 then 0 else (n + d - 1) / d

/-- Integer square root by bisection over `k` bits from a lower bound. -/
def isqrtFrom (n : Nat) : Nat → Nat → Nat
  | 0, lo => lo
  | k + 1, lo => if (lo + 2 ^ k) * (lo + 2 ^ k) ≤ n then isqrtFrom n k (lo + 2 ^ k) else isqrtFrom n k lo

/-- Integer square root. -/
def isqrt (n : Nat) : Nat := isqrtFrom n (Nat.log2 n / 2 + 1) 0

/-- The low `k` bytes of `n`, lowest first (R3). -/
def leBytes : Nat → Nat → List Byte
  | 0, _ => []
  | k + 1, n => BitVec.ofNat 8 n :: leBytes k (n / 256)

/-- The number whose bytes, lowest first, are given (R3). -/
def leNat : List Byte → Nat
  | [] => 0
  | b :: r => b.toNat + 256 * leNat r

/-- The number whose bytes, highest first, are given. -/
def beNat (bs : List Byte) : Nat := bs.foldl (fun a b => a * 256 + b.toNat) 0

/-- The low `k` bytes of `n`, highest first. -/
def beBytes (k n : Nat) : List Byte := (leBytes k n).reverse

/-- The little-endian number of `k` bytes at offset `o` of a byte string; missing bytes count as 0. -/
def leAt (bs : List Byte) (o k : Nat) : Nat := leNat ((bs.drop o).take k)

/-- `k` bytes of value 0. -/
def zeros (k : Nat) : List Byte := List.replicate k 0

/-- `bs` cut or filled with zero bytes to length `k`. -/
def padTo (k : Nat) (bs : List Byte) : List Byte := bs.take k ++ zeros (k - bs.length)

/-- Number of set bits among the low `w` bits. -/
def popcount (w n : Nat) : Nat := (List.range w).foldl (fun a i => a + n / 2 ^ i % 2) 0

/-- Sum of a list of integers. -/
def sumI (l : List Int) : Int := l.foldl (· + ·) 0

/-- A sparse table: keys strictly rising, no entry equal to the default of its key. -/
abbrev Table (α : Type) := List (Nat × α)

/-- The value at a key: the entry, or the default of the key. -/
def tget {α : Type} (d : Nat → α) : Table α → Nat → α
  | [], k => d k
  | (k', v) :: r, k => if k = k' then v else tget d r k

/-- Replace the value at a key, keeping the canonical form. -/
def tput {α : Type} [DecidableEq α] (d : Nat → α) : Table α → Nat → α → Table α
  | [], k, v => if v = d k then [] else [(k, v)]
  | (k', v') :: r, k, v =>
    if k < k' then (if v = d k then (k', v') :: r else (k, v) :: (k', v') :: r)
    else if k = k' then (if v = d k then r else (k, v) :: r)
    else (k', v') :: tput d r k v

/-- The canonical form of a sparse table: keys strictly rising, no entry equal to its default. -/
abbrev Table.Wf {α : Type} (d : Nat → α) (t : Table α) : Prop :=
  List.Pairwise (fun a b => a.1 < b.1) t ∧ ∀ e ∈ t, e.2 ≠ d e.1

/-- Write consecutive keys. -/
def tputs {α : Type} [DecidableEq α] (d : Nat → α) (t : Table α) (k : Nat) : List α → Table α
  | [] => t
  | v :: r => tputs d (tput d t k v) (k + 1) r

/-- The value for a key in an association list of settings, or a default. -/
def lookupD {α : Type} (l : List (Nat × α)) (k : Nat) (d : α) : α :=
  match l.find? (fun e => e.1 == k) with
  | some e => e.2
  | none => d

end Sys2Proof.Machine
end

