-- ==== Sys2Proof/Machine/RegMap.lean ====
section
/-!
DEFINITION. The register map: for every register table of the spec the address of each register, the place of each of
its fields, and per block a table of descriptors (address family, fields with access type, boundary class and reset
value). Field names follow the spec's; a register whose table row gives no field name has one field `val`.
-/

namespace Sys2Proof.Machine

/-- A field: the address of its register, its lowest bit, its width. -/
structure Fld where
  addr : Nat
  lo : Nat
  w : Nat
  deriving DecidableEq, Repr

/-- Access types (R8). -/
inductive Acc where
  | ro | rw | rws | w1c | rc | wo
  deriving DecidableEq, Repr

/-- Boundary classes of RWS fields (R13). -/
inductive Cls where
  | lb | pb | jb | mb
  deriving DecidableEq, Repr

/-- One field of a register family: lowest bit, width, access type, reset value (0 where the spec says `image`, R370),
boundary class of an RWS field. -/
structure FldDesc where
  lo : Nat
  w : Nat
  acc : Acc
  rst : Nat
  cls : Option Cls
  deriving DecidableEq, Repr

/-- A register family: address of its first member, (stride, count) of each index from the largest stride down. -/
structure RegDesc where
  base : Nat
  dims : List (Nat × Nat)
  flds : List FldDesc
  deriving DecidableEq, Repr

namespace Reg

/-- `SYS_ID` (R33). -/
def sysId : Nat := 0x0
def sysId_device : Fld := ⟨sysId, 16, 16⟩
def sysId_family : Fld := ⟨sysId, 8, 8⟩
def sysId_rev : Fld := ⟨sysId, 0, 8⟩
/-- `SYS_STATE` (R33). -/
def sysState : Nat := 0x4
def sysState_job : Fld := ⟨sysState, 16, 16⟩
def sysState_regime : Fld := ⟨sysState, 4, 2⟩
def sysState_run : Fld := ⟨sysState, 3, 1⟩
def sysState_loaded : Fld := ⟨sysState, 2, 1⟩
def sysState_safe : Fld := ⟨sysState, 1, 1⟩
/-- `SYS_TIME_0` (R33). -/
def sysTime0 : Nat := 0x10
def sysTime0_val : Fld := ⟨sysTime0, 0, 32⟩
/-- `SYS_TIME_1` (R33). -/
def sysTime1 : Nat := 0x14
def sysTime1_val : Fld := ⟨sysTime1, 0, 32⟩
/-- `SYS_TSYNC_TIME_0` (R33). -/
def sysTsyncTime0 : Nat := 0x18
def sysTsyncTime0_val : Fld := ⟨sysTsyncTime0, 0, 32⟩
/-- `SYS_TSYNC_TIME_1` (R33). -/
def sysTsyncTime1 : Nat := 0x1C
def sysTsyncTime1_val : Fld := ⟨sysTsyncTime1, 0, 32⟩
/-- `SYS_TSYNC_CTRL` (R33). -/
def sysTsyncCtrl : Nat := 0x20
def sysTsyncCtrl_pol : Fld := ⟨sysTsyncCtrl, 1, 1⟩
def sysTsyncCtrl_en : Fld := ⟨sysTsyncCtrl, 0, 1⟩
/-- `SYS_TSYNC_OVR` (R33). -/
def sysTsyncOvr : Nat := 0x24
def sysTsyncOvr_val : Fld := ⟨sysTsyncOvr, 0, 32⟩
/-- `SYS_COMMIT_HOLD` (R33). -/
def sysCommitHold : Nat := 0x30
def sysCommitHold_mb : Fld := ⟨sysCommitHold, 3, 8⟩
def sysCommitHold_jb : Fld := ⟨sysCommitHold, 2, 1⟩
def sysCommitHold_pb : Fld := ⟨sysCommitHold, 1, 1⟩
def sysCommitHold_lb : Fld := ⟨sysCommitHold, 0, 1⟩
/-- `SYS_COMMIT_PEND` (R33). -/
def sysCommitPend : Nat := 0x34
def sysCommitPend_mb : Fld := ⟨sysCommitPend, 3, 8⟩
def sysCommitPend_jb : Fld := ⟨sysCommitPend, 2, 1⟩
def sysCommitPend_pb : Fld := ⟨sysCommitPend, 1, 1⟩
def sysCommitPend_lb : Fld := ⟨sysCommitPend, 0, 1⟩
/-- `SYS_LINE_0` (R33). -/
def sysLine0 : Nat := 0x40
def sysLine0_val : Fld := ⟨sysLine0, 0, 32⟩
/-- `SYS_LINE_1` (R33). -/
def sysLine1 : Nat := 0x44
def sysLine1_val : Fld := ⟨sysLine1, 0, 16⟩
/-- `SYS_SET_ID` (R33). -/
def sysSetId : Nat := 0x48
def sysSetId_calender : Fld := ⟨sysSetId, 16, 16⟩
def sysSetId_lamp : Fld := ⟨sysSetId, 0, 16⟩
/-- `SYS_SNAP_CTRL` (R33). -/
def sysSnapCtrl : Nat := 0x50
def sysSnapCtrl_view : Fld := ⟨sysSnapCtrl, 2, 1⟩
def sysSnapCtrl_done : Fld := ⟨sysSnapCtrl, 1, 1⟩
def sysSnapCtrl_req : Fld := ⟨sysSnapCtrl, 0, 1⟩
/-- `SYS_SNAP_LINE_0` (R33). -/
def sysSnapLine0 : Nat := 0x54
def sysSnapLine0_val : Fld := ⟨sysSnapLine0, 0, 32⟩
/-- `SYS_SNAP_LINE_1` (R33). -/
def sysSnapLine1 : Nat := 0x58
def sysSnapLine1_val : Fld := ⟨sysSnapLine1, 0, 16⟩
/-- `SYS_ISLAND_ALIVE` (R33). -/
def sysIslandAlive (w : Nat) : Nat := 0x60 + 0x4 * w
def sysIslandAlive_val (w : Nat) : Fld := ⟨(sysIslandAlive w), 0, 32⟩
/-- `SYS_SAFE_CAUSE` (R33). -/
def sysSafeCause : Nat := 0x80
def sysSafeCause_val : Fld := ⟨sysSafeCause, 0, 32⟩
/-- `SYS_SAFE_ACTIVE` (R33). -/
def sysSafeActive : Nat := 0x84
def sysSafeActive_val : Fld := ⟨sysSafeActive, 0, 32⟩
/-- `SYS_SAFE_FORCE` (R33). -/
def sysSafeForce : Nat := 0x88
def sysSafeForce_val : Fld := ⟨sysSafeForce, 0, 32⟩
/-- `VFE_CTRL` (R64). -/
def vfeCtrl : Nat := 0x90000
def vfeCtrl_train : Fld := ⟨vfeCtrl, 4, 1⟩
def vfeCtrl_fbk : Fld := ⟨vfeCtrl, 2, 2⟩
/-- `VFE_STAT` (R64). -/
def vfeStat : Nat := 0x90004
def vfeStat_nbad : Fld := ⟨vfeStat, 9, 9⟩
def vfeStat_done : Fld := ⟨vfeStat, 1, 1⟩
def vfeStat_busy : Fld := ⟨vfeStat, 0, 1⟩
/-- `VFE_SEG_EN_0` (R64). -/
def vfeSegEn0 : Nat := 0x90008
def vfeSegEn0_val : Fld := ⟨vfeSegEn0, 0, 32⟩
/-- `VFE_SEG_EN_1` (R64). -/
def vfeSegEn1 : Nat := 0x9000C
def vfeSegEn1_val : Fld := ⟨vfeSegEn1, 0, 32⟩
/-- `VFE_SEG_PRESENT_0` (R64). -/
def vfeSegPresent0 : Nat := 0x90010
def vfeSegPresent0_val : Fld := ⟨vfeSegPresent0, 0, 32⟩
/-- `VFE_SEG_PRESENT_1` (R64). -/
def vfeSegPresent1 : Nat := 0x90014
def vfeSegPresent1_val : Fld := ⟨vfeSegPresent1, 0, 32⟩
/-- `VFE_TAP_BAD` (R64). -/
def vfeTapBad (w : Nat) : Nat := 0x90020 + 0x4 * w
def vfeTapBad_val (w : Nat) : Fld := ⟨(vfeTapBad w), 0, 32⟩
/-- `VFE_VREF_CTRL` (R64). -/
def vfeVrefCtrl : Nat := 0x90040
def vfeVrefCtrl_en : Fld := ⟨vfeVrefCtrl, 0, 4⟩
/-- `VFE_SCB_b_CTRL` (R64). -/
def vfeScbCtrl (b : Nat) : Nat := 0x90100 + 0x10 * b
def vfeScbCtrl_khz (b : Nat) : Fld := ⟨(vfeScbCtrl b), 0, 14⟩
/-- `VFE_SCB_b_CMD` (R64). -/
def vfeScbCmd (b : Nat) : Nat := 0x90104 + 0x10 * b
def vfeScbCmd_go (b : Nat) : Fld := ⟨(vfeScbCmd b), 31, 1⟩
def vfeScbCmd_rd (b : Nat) : Fld := ⟨(vfeScbCmd b), 30, 1⟩
def vfeScbCmd_addr (b : Nat) : Fld := ⟨(vfeScbCmd b), 24, 5⟩
def vfeScbCmd_reg (b : Nat) : Fld := ⟨(vfeScbCmd b), 16, 8⟩
def vfeScbCmd_data (b : Nat) : Fld := ⟨(vfeScbCmd b), 0, 16⟩
/-- `VFE_SCB_b_DATA` (R64). -/
def vfeScbData (b : Nat) : Nat := 0x90108 + 0x10 * b
def vfeScbData_data (b : Nat) : Fld := ⟨(vfeScbData b), 0, 16⟩
/-- `VFE_SCB_b_STAT` (R64). -/
def vfeScbStat (b : Nat) : Nat := 0x9010C + 0x10 * b
def vfeScbStat_busy (b : Nat) : Fld := ⟨(vfeScbStat b), 31, 1⟩
def vfeScbStat_done (b : Nat) : Fld := ⟨(vfeScbStat b), 30, 1⟩
def vfeScbStat_err (b : Nat) : Fld := ⟨(vfeScbStat b), 29, 1⟩
def vfeScbStat_st (b : Nat) : Fld := ⟨(vfeScbStat b), 25, 4⟩
def vfeScbStat_tries (b : Nat) : Fld := ⟨(vfeScbStat b), 23, 2⟩
/-- `VFE_SEG_s_CLK` (R64). -/
def vfeSegClk (s : Nat) : Nat := 0x91000 + 0x100 * s
def vfeSegClk_phase (s : Nat) : Fld := ⟨(vfeSegClk s), 24, 8⟩
def vfeSegClk_khz (s : Nat) : Fld := ⟨(vfeSegClk s), 0, 17⟩
/-- `VFE_SEG_s_TIMING` (R64). -/
def vfeSegTiming (s : Nat) : Nat := 0x91004 + 0x100 * s
def vfeSegTiming_guard (s : Nat) : Fld := ⟨(vfeSegTiming s), 24, 8⟩
def vfeSegTiming_xfer (s : Nat) : Fld := ⟨(vfeSegTiming s), 12, 12⟩
def vfeSegTiming_sp_w (s : Nat) : Fld := ⟨(vfeSegTiming s), 0, 8⟩
/-- `VFE_SEG_s_STAT` (R64). -/
def vfeSegStat (s : Nat) : Nat := 0x91008 + 0x100 * s
def vfeSegStat_req_period (s : Nat) : Fld := ⟨(vfeSegStat s), 12, 20⟩
def vfeSegStat_fallback (s : Nat) : Fld := ⟨(vfeSegStat s), 5, 1⟩
def vfeSegStat_scb_fail (s : Nat) : Fld := ⟨(vfeSegStat s), 4, 1⟩
def vfeSegStat_state (s : Nat) : Fld := ⟨(vfeSegStat s), 0, 3⟩
/-- `VFE_SEG_s_LOOPWIN` (R64). -/
def vfeSegLoopwin (s : Nat) : Nat := 0x9100C + 0x100 * s
def vfeSegLoopwin_hi (s : Nat) : Fld := ⟨(vfeSegLoopwin s), 16, 16⟩
def vfeSegLoopwin_lo (s : Nat) : Fld := ⟨(vfeSegLoopwin s), 0, 16⟩
/-- `VFE_TAP_s_t_RX` (R64). -/
def vfeTapRx (s t : Nat) : Nat := 0x91020 + 0x100 * s + 0x10 * t
def vfeTapRx_gain (s t : Nat) : Fld := ⟨(vfeTapRx s t), 29, 3⟩
def vfeTapRx_ofs (s t : Nat) : Fld := ⟨(vfeTapRx s t), 21, 8⟩
def vfeTapRx_eq (s t : Nat) : Fld := ⟨(vfeTapRx s t), 17, 4⟩
def vfeTapRx_dly_clk (s t : Nat) : Fld := ⟨(vfeTapRx s t), 14, 3⟩
def vfeTapRx_dly_frac (s t : Nat) : Fld := ⟨(vfeTapRx s t), 8, 6⟩
/-- `VFE_TAP_s_t_TRAIN` (R64). -/
def vfeTapTrain (s t : Nat) : Nat := 0x91024 + 0x100 * s + 0x10 * t
def vfeTapTrain_result (s t : Nat) : Fld := ⟨(vfeTapTrain s t), 30, 2⟩
def vfeTapTrain_eye_h (s t : Nat) : Fld := ⟨(vfeTapTrain s t), 20, 10⟩
def vfeTapTrain_eye_w (s t : Nat) : Fld := ⟨(vfeTapTrain s t), 13, 7⟩
/-- `VFE_TAP_s_t_LOOP` (R64). -/
def vfeTapLoop (s t : Nat) : Nat := 0x91028 + 0x100 * s + 0x10 * t
def vfeTapLoop_loop_ua (s t : Nat) : Fld := ⟨(vfeTapLoop s t), 16, 16⟩
def vfeTapLoop_breaks (s t : Nat) : Fld := ⟨(vfeTapLoop s t), 0, 16⟩
/-- `ADC_CTRL` (R91). -/
def adcCtrl : Nat := 0xB0000
def adcCtrl_freeze : Fld := ⟨adcCtrl, 31, 1⟩
def adcCtrl_sable_lim : Fld := ⟨adcCtrl, 8, 8⟩
def adcCtrl_spur_lim : Fld := ⟨adcCtrl, 0, 8⟩
/-- `ADC_STAT` (R91). -/
def adcStat : Nat := 0xB0004
def adcStat_start_done : Fld := ⟨adcStat, 31, 1⟩
def adcStat_nlost : Fld := ⟨adcStat, 10, 7⟩
def adcStat_nfaulty : Fld := ⟨adcStat, 0, 10⟩
/-- `ADC_ROT` (R91). -/
def adcRot : Nat := 0xB0008
def adcRot_min : Fld := ⟨adcRot, 0, 16⟩
/-- `ADC_SLICE_FAULTY` (R91). -/
def adcSliceFaulty (w : Nat) : Nat := 0xB0020 + 0x4 * w
def adcSliceFaulty_val (w : Nat) : Fld := ⟨(adcSliceFaulty w), 0, 32⟩
/-- `ADC_GRP_g_CTRL` (R91). -/
def adcGrpCtrl (g : Nat) : Nat := 0xB1000 + 0x100 * g
def adcGrpCtrl_retest (g : Nat) : Fld := ⟨(adcGrpCtrl g), 31, 1⟩
def adcGrpCtrl_park_en (g : Nat) : Fld := ⟨(adcGrpCtrl g), 8, 1⟩
def adcGrpCtrl_park (g : Nat) : Fld := ⟨(adcGrpCtrl g), 0, 4⟩
/-- `ADC_GRP_g_STAT` (R91). -/
def adcGrpStat (g : Nat) : Nat := 0xB1004 + 0x100 * g
def adcGrpStat_mode (g : Nat) : Fld := ⟨(adcGrpStat g), 30, 2⟩
def adcGrpStat_state (g : Nat) : Fld := ⟨(adcGrpStat g), 20, 4⟩
def adcGrpStat_sub (g : Nat) : Fld := ⟨(adcGrpStat g), 16, 4⟩
def adcGrpStat_steps (g : Nat) : Fld := ⟨(adcGrpStat g), 0, 16⟩
/-- `ADC_GRP_g_PAIR_t_Q0` (R91). -/
def adcGrpPairQ0 (g t : Nat) : Nat := 0xB1010 + 0x100 * g + 0x10 * t
def adcGrpPairQ0_res_ofs (g t : Nat) : Fld := ⟨(adcGrpPairQ0 g t), 16, 16⟩
def adcGrpPairQ0_spur (g t : Nat) : Fld := ⟨(adcGrpPairQ0 g t), 0, 16⟩
/-- `ADC_GRP_g_PAIR_t_Q1` (R91). -/
def adcGrpPairQ1 (g t : Nat) : Nat := 0xB1014 + 0x100 * g + 0x10 * t
def adcGrpPairQ1_res_gain (g t : Nat) : Fld := ⟨(adcGrpPairQ1 g t), 16, 16⟩
/-- `ADC_SLICE_n_OFS` (R91). -/
def adcSliceOfs (n : Nat) : Nat := 0xB8000 + 0x20 * n
def adcSliceOfs_ofs (n : Nat) : Fld := ⟨(adcSliceOfs n), 0, 16⟩
/-- `ADC_SLICE_n_GAIN` (R91). -/
def adcSliceGain (n : Nat) : Nat := 0xB8004 + 0x20 * n
def adcSliceGain_gain (n : Nat) : Fld := ⟨(adcSliceGain n), 0, 16⟩
/-- `ADC_SLICE_n_SKEW` (R91). -/
def adcSliceSkew (n : Nat) : Nat := 0xB8008 + 0x20 * n
def adcSliceSkew_skew (n : Nat) : Fld := ⟨(adcSliceSkew n), 0, 10⟩
/-- `ADC_SLICE_n_STAT` (R91). -/
def adcSliceStat (n : Nat) : Nat := 0xB800C + 0x20 * n
def adcSliceStat_state (n : Nat) : Fld := ⟨(adcSliceStat n), 30, 2⟩
def adcSliceStat_fails (n : Nat) : Fld := ⟨(adcSliceStat n), 28, 2⟩
def adcSliceStat_run (n : Nat) : Fld := ⟨(adcSliceStat n), 26, 2⟩
def adcSliceStat_role (n : Nat) : Fld := ⟨(adcSliceStat n), 16, 4⟩
def adcSliceStat_last (n : Nat) : Fld := ⟨(adcSliceStat n), 0, 8⟩
/-- `ADC_SLICE_n_CNT` (R91). -/
def adcSliceCnt (n : Nat) : Nat := 0xB8010 + 0x20 * n
def adcSliceCnt_rejects (n : Nat) : Fld := ⟨(adcSliceCnt n), 16, 16⟩
def adcSliceCnt_isc (n : Nat) : Fld := ⟨(adcSliceCnt n), 0, 16⟩
/-- `ADC_SLICE_n_RES` (R91). -/
def adcSliceRes (n : Nat) : Nat := 0xB8014 + 0x20 * n
def adcSliceRes_offset (n : Nat) : Fld := ⟨(adcSliceRes n), 16, 16⟩
def adcSliceRes_gain (n : Nat) : Fld := ⟨(adcSliceRes n), 0, 16⟩
/-- `ADC_SLICE_n_RES_SKEW` (R91). -/
def adcSliceResSkew (n : Nat) : Nat := 0xB8018 + 0x20 * n
def adcSliceResSkew_skew (n : Nat) : Fld := ⟨(adcSliceResSkew n), 0, 16⟩
/-- `LMP_CTRL` (R116). -/
def lmpCtrl : Nat := 0xF0000
def lmpCtrl_all_off : Fld := ⟨lmpCtrl, 31, 1⟩
def lmpCtrl_bus_en : Fld := ⟨lmpCtrl, 0, 2⟩
/-- `LMP_STAT` (R116). -/
def lmpStat : Nat := 0xF0004
def lmpStat_lamp_en : Fld := ⟨lmpStat, 31, 1⟩
def lmpStat_noreply : Fld := ⟨lmpStat, 0, 8⟩
/-- `LMP_TINT` (R116). -/
def lmpTint : Nat := 0xF0008
def lmpTint_en : Fld := ⟨lmpTint, 31, 1⟩
def lmpTint_resetf : Fld := ⟨lmpTint, 30, 1⟩
def lmpTint_k : Fld := ⟨lmpTint, 0, 4⟩
/-- `LMP_TINT_LIM` (R116). -/
def lmpTintLim : Nat := 0xF000C
def lmpTintLim_fmax : Fld := ⟨lmpTintLim, 16, 16⟩
def lmpTintLim_fmin : Fld := ⟨lmpTintLim, 0, 16⟩
/-- `LMP_DERATE_0` (R116). -/
def lmpDerate0 : Nat := 0xF0010
def lmpDerate0_knee : Fld := ⟨lmpDerate0, 16, 16⟩
def lmpDerate0_span : Fld := ⟨lmpDerate0, 0, 16⟩
/-- `LMP_DERATE_1` (R116). -/
def lmpDerate1 : Nat := 0xF0014
def lmpDerate1_dmin : Fld := ⟨lmpDerate1, 0, 16⟩
/-- `LMP_DIAG` (R116). -/
def lmpDiag : Nat := 0xF0018
def lmpDiag_k : Fld := ⟨lmpDiag, 0, 8⟩
/-- `LMP_STRB_TRIM` (R116). -/
def lmpStrbTrim : Nat := 0xF001C
def lmpStrbTrim_trim_0 : Fld := ⟨lmpStrbTrim, 0, 3⟩
def lmpStrbTrim_trim_1 : Fld := ⟨lmpStrbTrim, 3, 3⟩
def lmpStrbTrim_trim_2 : Fld := ⟨lmpStrbTrim, 6, 3⟩
def lmpStrbTrim_trim_3 : Fld := ⟨lmpStrbTrim, 9, 3⟩
/-- `LMP_PHASE_k_CFG` (R116). -/
def lmpPhaseCfg (k : Nat) : Nat := 0xF0040 + 0x8 * k
def lmpPhaseCfg_colour (k : Nat) : Fld := ⟨(lmpPhaseCfg k), 0, 3⟩
/-- `LMP_PHASE_k_WIN` (R116). -/
def lmpPhaseWin (k : Nat) : Nat := 0xF0044 + 0x8 * k
def lmpPhaseWin_lead (k : Nat) : Fld := ⟨(lmpPhaseWin k), 18, 14⟩
def lmpPhaseWin_width (k : Nat) : Fld := ⟨(lmpPhaseWin k), 0, 18⟩
/-- `LMP_BUS_b_STAT` (R116). -/
def lmpBusStat (b : Nat) : Nat := 0xF0080 + 0x10 * b
def lmpBusStat_state (b : Nat) : Fld := ⟨(lmpBusStat b), 30, 2⟩
/-- `LMP_BUS_b_ERR` (R116). -/
def lmpBusErr (b : Nat) : Nat := 0xF0084 + 0x10 * b
def lmpBusErr_noreply (b : Nat) : Fld := ⟨(lmpBusErr b), 16, 16⟩
def lmpBusErr_badcrc (b : Nat) : Fld := ⟨(lmpBusErr b), 0, 16⟩
/-- `LMP_ZONE_z_CFG` (R116). -/
def lmpZoneCfg (z : Nat) : Nat := 0xF1000 + 0x100 * z
def lmpZoneCfg_en (z : Nat) : Fld := ⟨(lmpZoneCfg z), 31, 1⟩
def lmpZoneCfg_mon (z : Nat) : Fld := ⟨(lmpZoneCfg z), 0, 4⟩
/-- `LMP_ZONE_z_STAT` (R116). -/
def lmpZoneStat (z : Nat) : Nat := 0xF1004 + 0x100 * z
def lmpZoneStat_state (z : Nat) : Fld := ⟨(lmpZoneStat z), 30, 2⟩
def lmpZoneStat_bus (z : Nat) : Fld := ⟨(lmpZoneStat z), 29, 1⟩
def lmpZoneStat_overtemp (z : Nat) : Fld := ⟨(lmpZoneStat z), 28, 1⟩
def lmpZoneStat_dark (z : Nat) : Fld := ⟨(lmpZoneStat z), 24, 4⟩
def lmpZoneStat_stage (z : Nat) : Fld := ⟨(lmpZoneStat z), 16, 8⟩
/-- `LMP_ZONE_z_LAMPS_0` (R116). -/
def lmpZoneLamps0 (z : Nat) : Nat := 0xF1008 + 0x100 * z
def lmpZoneLamps0_val (z : Nat) : Fld := ⟨(lmpZoneLamps0 z), 0, 32⟩
/-- `LMP_ZONE_z_LAMPS_1` (R116). -/
def lmpZoneLamps1 (z : Nat) : Nat := 0xF100C + 0x100 * z
def lmpZoneLamps1_val (z : Nat) : Fld := ⟨(lmpZoneLamps1 z), 0, 32⟩
/-- `LMP_ZONE_z_TINTF_0` (R116). -/
def lmpZoneTintf0 (z : Nat) : Nat := 0xF1010 + 0x100 * z
def lmpZoneTintf0_val (z : Nat) : Fld := ⟨(lmpZoneTintf0 z), 0, 32⟩
/-- `LMP_ZONE_z_TINTF_1` (R116). -/
def lmpZoneTintf1 (z : Nat) : Nat := 0xF1014 + 0x100 * z
def lmpZoneTintf1_val (z : Nat) : Fld := ⟨(lmpZoneTintf1 z), 0, 32⟩
/-- `LMP_ZONE_z_CTRL` (R116). -/
def lmpZoneCtrl (z : Nat) : Nat := 0xF1018 + 0x100 * z
def lmpZoneCtrl_ping (z : Nat) : Fld := ⟨(lmpZoneCtrl z), 31, 1⟩
def lmpZoneCtrl_clear (z : Nat) : Fld := ⟨(lmpZoneCtrl z), 0, 4⟩
/-- `LMP_ZONE_z_TEMP` (R116). -/
def lmpZoneTemp (z : Nat) : Nat := 0xF101C + 0x100 * z
def lmpZoneTemp_t (z : Nat) : Fld := ⟨(lmpZoneTemp z), 16, 16⟩
def lmpZoneTemp_d (z : Nat) : Fld := ⟨(lmpZoneTemp z), 0, 16⟩
/-- `LMP_ZONE_z_STR_c_LVL` (R116). -/
def lmpZoneStrLvl (z c : Nat) : Nat := 0xF1020 + 0x100 * z + 0x10 * c
def lmpZoneStrLvl_base (z c : Nat) : Fld := ⟨(lmpZoneStrLvl z c), 0, 16⟩
/-- `LMP_ZONE_z_STR_c_REF` (R116). -/
def lmpZoneStrRef (z c : Nat) : Nat := 0xF1024 + 0x100 * z + 0x10 * c
def lmpZoneStrRef_ref (z c : Nat) : Fld := ⟨(lmpZoneStrRef z c), 0, 16⟩
/-- `LMP_ZONE_z_STR_c_STAT` (R116). -/
def lmpZoneStrStat (z c : Nat) : Nat := 0xF1028 + 0x100 * z + 0x10 * c
def lmpZoneStrStat_f (z c : Nat) : Fld := ⟨(lmpZoneStrStat z c), 16, 16⟩
def lmpZoneStrStat_rej (z c : Nat) : Fld := ⟨(lmpZoneStrStat z c), 8, 8⟩
def lmpZoneStrStat_n (z c : Nat) : Fld := ⟨(lmpZoneStrStat z c), 0, 8⟩
/-- `LMP_ZONE_z_STR_c_OUT` (R116). -/
def lmpZoneStrOut (z c : Nat) : Nat := 0xF102C + 0x100 * z + 0x10 * c
def lmpZoneStrOut_i (z c : Nat) : Fld := ⟨(lmpZoneStrOut z c), 16, 16⟩
def lmpZoneStrOut_lit (z c : Nat) : Fld := ⟨(lmpZoneStrOut z c), 0, 16⟩
/-- `PXE_CTRL` (R144). -/
def pxeCtrl : Nat := 0xD0000
def pxeCtrl_clamp_a : Fld := ⟨pxeCtrl, 8, 4⟩
def pxeCtrl_joint_en : Fld := ⟨pxeCtrl, 5, 1⟩
def pxeCtrl_defect_en : Fld := ⟨pxeCtrl, 4, 1⟩
def pxeCtrl_tint_en : Fld := ⟨pxeCtrl, 3, 1⟩
def pxeCtrl_temp_en : Fld := ⟨pxeCtrl, 2, 1⟩
def pxeCtrl_lin_en : Fld := ⟨pxeCtrl, 1, 1⟩
def pxeCtrl_clamp_en : Fld := ⟨pxeCtrl, 0, 1⟩
/-- `PXE_FMT` (R144). -/
def pxeFmt : Nat := 0xD0004
def pxeFmt_bin : Fld := ⟨pxeFmt, 1, 1⟩
def pxeFmt_pack : Fld := ⟨pxeFmt, 0, 1⟩
/-- `PXE_LIN` (R144). -/
def pxeLin : Nat := 0xD0008
def pxeLin_set : Fld := ⟨pxeLin, 0, 1⟩
/-- `PXE_DECKLE_0` (R144). -/
def pxeDeckle0 : Nat := 0xD0010
def pxeDeckle0_start : Fld := ⟨pxeDeckle0, 0, 19⟩
/-- `PXE_DECKLE_1` (R144). -/
def pxeDeckle1 : Nat := 0xD0014
def pxeDeckle1_width : Fld := ⟨pxeDeckle1, 0, 19⟩
/-- `PXE_STAT` (R144). -/
def pxeStat : Nat := 0xD0020
def pxeStat_stage_free : Fld := ⟨pxeStat, 24, 8⟩
def pxeStat_need : Fld := ⟨pxeStat, 8, 6⟩
def pxeStat_in_pool : Fld := ⟨pxeStat, 0, 6⟩
/-- `PXE_OUT_0` (R144). -/
def pxeOut0 : Nat := 0xD0024
def pxeOut0_val : Fld := ⟨pxeOut0, 0, 32⟩
/-- `PXE_OUT_1` (R144). -/
def pxeOut1 : Nat := 0xD0028
def pxeOut1_val : Fld := ⟨pxeOut1, 0, 16⟩
/-- `PXE_CNT_DROP` (R144). -/
def pxeCntDrop : Nat := 0xD0030
def pxeCntDrop_val : Fld := ⟨pxeCntDrop, 0, 32⟩
/-- `PXE_CNT_STEAL` (R144). -/
def pxeCntSteal : Nat := 0xD0034
def pxeCntSteal_val : Fld := ⟨pxeCntSteal, 0, 32⟩
/-- `PXE_LAT` (R144). -/
def pxeLat : Nat := 0xD0038
def pxeLat_time : Fld := ⟨pxeLat, 0, 16⟩
/-- `PXE_Q_q_STAT` (R144). -/
def pxeQStat (q : Nat) : Nat := 0xD0040 + 0x4 * q
def pxeQStat_age (q : Nat) : Fld := ⟨(pxeQStat q), 16, 16⟩
def pxeQStat_depth (q : Nat) : Fld := ⟨(pxeQStat q), 0, 11⟩
/-- `PXE_JOINT_j` (R144). -/
def pxeJoint (j : Nat) : Nat := 0xD0400 + 0x4 * j
def pxeJoint_d (j : Nat) : Fld := ⟨(pxeJoint j), 0, 10⟩
/-- `PXE_SEG_s_TEMP` (R144). -/
def pxeSegTemp (s : Nat) : Nat := 0xD0500 + 0x4 * s
def pxeSegTemp_t (s : Nat) : Fld := ⟨(pxeSegTemp s), 16, 16⟩
def pxeSegTemp_held (s : Nat) : Fld := ⟨(pxeSegTemp s), 15, 1⟩
def pxeSegTemp_dt (s : Nat) : Fld := ⟨(pxeSegTemp s), 0, 11⟩
/-- `PXE_ENG_e_CTRL` (R144). -/
def pxeEngCtrl (e : Nat) : Nat := 0xD1000 + 0x10 * e
def pxeEngCtrl_test (e : Nat) : Fld := ⟨(pxeEngCtrl e), 31, 1⟩
def pxeEngCtrl_hold (e : Nat) : Fld := ⟨(pxeEngCtrl e), 0, 1⟩
/-- `PXE_ENG_e_STAT` (R144). -/
def pxeEngStat (e : Nat) : Nat := 0xD1004 + 0x10 * e
def pxeEngStat_state (e : Nat) : Fld := ⟨(pxeEngStat e), 30, 2⟩
def pxeEngStat_busy (e : Nat) : Fld := ⟨(pxeEngStat e), 29, 1⟩
def pxeEngStat_pass (e : Nat) : Fld := ⟨(pxeEngStat e), 28, 1⟩
/-- `PXE_ENG_e_CNT` (R144). -/
def pxeEngCnt (e : Nat) : Nat := 0xD1008 + 0x10 * e
def pxeEngCnt_val (e : Nat) : Fld := ⟨(pxeEngCnt e), 0, 32⟩
/-- `PXE_CLAMP_s_t_k` (R144). -/
def pxeClamp (s t k : Nat) : Nat := 0xD2000 + 0x40 * s + 0x10 * t + 0x4 * k
def pxeClamp_clamp16 (s t k : Nat) : Fld := ⟨(pxeClamp s t k), 0, 23⟩
/-- `SHD_CTRL` (R167). -/
def shdCtrl : Nat := 0xE0000
def shdCtrl_shutter : Fld := ⟨shdCtrl, 31, 1⟩
def shdCtrl_cal_abort : Fld := ⟨shdCtrl, 30, 1⟩
def shdCtrl_drift_en : Fld := ⟨shdCtrl, 0, 1⟩
/-- `SHD_STAT` (R167). -/
def shdStat : Nat := 0xE0004
def shdStat_busy : Fld := ⟨shdStat, 31, 1⟩
def shdStat_step : Fld := ⟨shdStat, 28, 3⟩
def shdStat_result : Fld := ⟨shdStat, 26, 2⟩
/-- `SHD_BANK` (R167). -/
def shdBank : Nat := 0xE0008
def shdBank_sel : Fld := ⟨shdBank, 0, 1⟩
/-- `SHD_BANK_STAT` (R167). -/
def shdBankStat : Nat := 0xE000C
def shdBankStat_bad0 : Fld := ⟨shdBankStat, 3, 1⟩
def shdBankStat_bad1 : Fld := ⟨shdBankStat, 7, 1⟩
def shdBankStat_pend0 : Fld := ⟨shdBankStat, 2, 1⟩
def shdBankStat_pend1 : Fld := ⟨shdBankStat, 6, 1⟩
def shdBankStat_busy0 : Fld := ⟨shdBankStat, 1, 1⟩
def shdBankStat_busy1 : Fld := ⟨shdBankStat, 5, 1⟩
def shdBankStat_valid0 : Fld := ⟨shdBankStat, 0, 1⟩
def shdBankStat_valid1 : Fld := ⟨shdBankStat, 4, 1⟩
/-- `SHD_BANK_b_CTRL` (R167). -/
def shdBankCtrl (b : Nat) : Nat := 0xE0010 + 0x4 * b
def shdBankCtrl_check (b : Nat) : Fld := ⟨(shdBankCtrl b), 31, 1⟩
def shdBankCtrl_mbist (b : Nat) : Fld := ⟨(shdBankCtrl b), 30, 1⟩
/-- `SHD_TARGET_0` (R167). -/
def shdTarget0 : Nat := 0xE0020
def shdTarget0_p1 : Fld := ⟨shdTarget0, 16, 16⟩
def shdTarget0_p0 : Fld := ⟨shdTarget0, 0, 16⟩
/-- `SHD_TARGET_1` (R167). -/
def shdTarget1 : Nat := 0xE0024
def shdTarget1_p3 : Fld := ⟨shdTarget1, 16, 16⟩
def shdTarget1_p2 : Fld := ⟨shdTarget1, 0, 16⟩
/-- `SHD_LIM_DARK_0` (R167). -/
def shdLimDark0 : Nat := 0xE0030
def shdLimDark0_dark_max : Fld := ⟨shdLimDark0, 16, 16⟩
def shdLimDark0_dark_min : Fld := ⟨shdLimDark0, 0, 16⟩
/-- `SHD_LIM_DARK_1` (R167). -/
def shdLimDark1 : Nat := 0xE0034
def shdLimDark1_dark_step : Fld := ⟨shdLimDark1, 0, 16⟩
/-- `SHD_LIM_GAIN_0` (R167). -/
def shdLimGain0 : Nat := 0xE0038
def shdLimGain0_gain_max : Fld := ⟨shdLimGain0, 16, 16⟩
def shdLimGain0_gain_min : Fld := ⟨shdLimGain0, 0, 16⟩
/-- `SHD_LIM_GAIN_1` (R167). -/
def shdLimGain1 : Nat := 0xE003C
def shdLimGain1_gain_dev : Fld := ⟨shdLimGain1, 16, 10⟩
def shdLimGain1_gain_step : Fld := ⟨shdLimGain1, 0, 10⟩
/-- `SHD_LIM_BANK` (R167). -/
def shdLimBank : Nat := 0xE0040
def shdLimBank_defect_n : Fld := ⟨shdLimBank, 24, 3⟩
def shdLimBank_rnu_lim : Fld := ⟨shdLimBank, 12, 12⟩
def shdLimBank_maxfail : Fld := ⟨shdLimBank, 0, 10⟩
/-- `SHD_TILE_0` (R167). -/
def shdTile0 : Nat := 0xE0050
def shdTile0_val : Fld := ⟨shdTile0, 0, 32⟩
/-- `SHD_TILE_1` (R167). -/
def shdTile1 : Nat := 0xE0054
def shdTile1_val : Fld := ⟨shdTile1, 0, 32⟩
/-- `SHD_TILE_SETTLE` (R167). -/
def shdTileSettle : Nat := 0xE0058
def shdTileSettle_settle : Fld := ⟨shdTileSettle, 0, 16⟩
/-- `SHD_RESULT_0` (R167). -/
def shdResult0 : Nat := 0xE0060
def shdResult0_failed : Fld := ⟨shdResult0, 0, 21⟩
/-- `SHD_RESULT_1` (R167). -/
def shdResult1 : Nat := 0xE0064
def shdResult1_marked : Fld := ⟨shdResult1, 0, 21⟩
/-- `SHD_CHECK_0` (R167). -/
def shdCheck0 : Nat := 0xE0068
def shdCheck0_failing : Fld := ⟨shdCheck0, 0, 21⟩
/-- `SHD_CHECK_1` (R167). -/
def shdCheck1 : Nat := 0xE006C
def shdCheck1_first : Fld := ⟨shdCheck1, 0, 24⟩
/-- `SHD_DRIFT_CTRL` (R167). -/
def shdDriftCtrl : Nat := 0xE0070
def shdDriftCtrl_kd : Fld := ⟨shdDriftCtrl, 28, 4⟩
def shdDriftCtrl_gate : Fld := ⟨shdDriftCtrl, 26, 2⟩
def shdDriftCtrl_evi : Fld := ⟨shdDriftCtrl, 24, 2⟩
def shdDriftCtrl_drift_lim : Fld := ⟨shdDriftCtrl, 0, 10⟩
/-- `SHD_ZONE_z_WIN` (R167). -/
def shdZoneWin (z : Nat) : Nat := 0xE1000 + 0x10 * z
def shdZoneWin_width (z : Nat) : Fld := ⟨(shdZoneWin z), 16, 13⟩
def shdZoneWin_start (z : Nat) : Fld := ⟨(shdZoneWin z), 0, 13⟩
/-- `SHD_ZONE_z_RNU_0` (R167). -/
def shdZoneRnu0 (z : Nat) : Nat := 0xE1004 + 0x10 * z
def shdZoneRnu0_p1 (z : Nat) : Fld := ⟨(shdZoneRnu0 z), 16, 16⟩
def shdZoneRnu0_p0 (z : Nat) : Fld := ⟨(shdZoneRnu0 z), 0, 16⟩
/-- `SHD_ZONE_z_RNU_1` (R167). -/
def shdZoneRnu1 (z : Nat) : Nat := 0xE1008 + 0x10 * z
def shdZoneRnu1_p3 (z : Nat) : Fld := ⟨(shdZoneRnu1 z), 16, 16⟩
def shdZoneRnu1_p2 (z : Nat) : Fld := ⟨(shdZoneRnu1 z), 0, 16⟩
/-- `SHD_ZONE_z_DRIFT` (R167). -/
def shdZoneDrift (z : Nat) : Nat := 0xE100C + 0x10 * z
def shdZoneDrift_val (z : Nat) : Fld := ⟨(shdZoneDrift z), 0, 32⟩
/-- `NZL_CTRL` (R194). -/
def nzlCtrl : Nat := 0x110000
def nzlCtrl_en : Fld := ⟨nzlCtrl, 31, 1⟩
def nzlCtrl_trkcor : Fld := ⟨nzlCtrl, 30, 1⟩
def nzlCtrl_clear : Fld := ⟨nzlCtrl, 29, 1⟩
def nzlCtrl_expch : Fld := ⟨nzlCtrl, 8, 5⟩
def nzlCtrl_kv : Fld := ⟨nzlCtrl, 4, 4⟩
def nzlCtrl_ka : Fld := ⟨nzlCtrl, 0, 4⟩
/-- `NZL_STAT` (R194). -/
def nzlStat : Nat := 0x110004
def nzlStat_exp_busy : Fld := ⟨nzlStat, 31, 1⟩
def nzlStat_exp_pend : Fld := ⟨nzlStat, 30, 1⟩
def nzlStat_ready : Fld := ⟨nzlStat, 0, 13⟩
/-- `NZL_STATE_CNT_k` (R194). -/
def nzlStateCnt (k : Nat) : Nat := 0x110010 + 0x4 * k
def nzlStateCnt_cnt (k : Nat) : Fld := ⟨(nzlStateCnt k), 0, 20⟩
/-- `NZL_CNT_SKIP` (R194). -/
def nzlCntSkip : Nat := 0x110030
def nzlCntSkip_val : Fld := ⟨nzlCntSkip, 0, 32⟩
/-- `NZL_BAND_s_CTRL` (R194). -/
def nzlBandCtrl (s : Nat) : Nat := 0x110040 + 0x10 * s
def nzlBandCtrl_src (s : Nat) : Fld := ⟨(nzlBandCtrl s), 30, 2⟩
def nzlBandCtrl_evi (s : Nat) : Fld := ⟨(nzlBandCtrl s), 28, 2⟩
def nzlBandCtrl_lofs (s : Nat) : Fld := ⟨(nzlBandCtrl s), 0, 16⟩
/-- `NZL_BAND_s_LINE_0` (R194). -/
def nzlBandLine0 (s : Nat) : Nat := 0x110044 + 0x10 * s
def nzlBandLine0_val (s : Nat) : Fld := ⟨(nzlBandLine0 s), 0, 32⟩
/-- `NZL_BAND_s_LINE_1` (R194). -/
def nzlBandLine1 (s : Nat) : Nat := 0x110048 + 0x10 * s
def nzlBandLine1_val (s : Nat) : Fld := ⟨(nzlBandLine1 s), 0, 16⟩
/-- `NZL_BAND_s_NUM` (R194). -/
def nzlBandNum (s : Nat) : Nat := 0x11004C + 0x10 * s
def nzlBandNum_val (s : Nat) : Fld := ⟨(nzlBandNum s), 0, 32⟩
/-- `NZL_GEOM_0` (R194). -/
def nzlGeom0 : Nat := 0x110080
def nzlGeom0_ox : Fld := ⟨nzlGeom0, 0, 20⟩
/-- `NZL_GEOM_1` (R194). -/
def nzlGeom1 : Nat := 0x110084
def nzlGeom1_sk : Fld := ⟨nzlGeom1, 0, 24⟩
/-- `NZL_GEOM_2` (R194). -/
def nzlGeom2 : Nat := 0x110088
def nzlGeom2_sc : Fld := ⟨nzlGeom2, 0, 16⟩
/-- `NZL_GEOM_USED_0` (R194). -/
def nzlGeomUsed0 : Nat := 0x110090
def nzlGeomUsed0_val : Fld := ⟨nzlGeomUsed0, 0, 32⟩
/-- `NZL_GEOM_USED_1` (R194). -/
def nzlGeomUsed1 : Nat := 0x110094
def nzlGeomUsed1_val : Fld := ⟨nzlGeomUsed1, 0, 32⟩
/-- `NZL_GEOM_USED_2` (R194). -/
def nzlGeomUsed2 : Nat := 0x110098
def nzlGeomUsed2_val : Fld := ⟨nzlGeomUsed2, 0, 32⟩
/-- `NZL_STREAK` (R194). -/
def nzlStreak : Nat := 0x1100A0
def nzlStreak_en : Fld := ⟨nzlStreak, 31, 1⟩
def nzlStreak_col_en : Fld := ⟨nzlStreak, 30, 1⟩
def nzlStreak_row_en : Fld := ⟨nzlStreak, 29, 1⟩
def nzlStreak_point : Fld := ⟨nzlStreak, 28, 1⟩
def nzlStreak_chan : Fld := ⟨nzlStreak, 26, 2⟩
def nzlStreak_conf_s : Fld := ⟨nzlStreak, 24, 2⟩
def nzlStreak_sm : Fld := ⟨nzlStreak, 21, 3⟩
def nzlStreak_thr : Fld := ⟨nzlStreak, 0, 10⟩
/-- `NZL_STREAK_FLAT` (R194). -/
def nzlStreakFlat : Nat := 0x1100A4
def nzlStreakFlat_flat_tol : Fld := ⟨nzlStreakFlat, 0, 16⟩
/-- `NZL_STREAK_CNT` (R194). -/
def nzlStreakCnt : Nat := 0x1100A8
def nzlStreakCnt_cols : Fld := ⟨nzlStreakCnt, 0, 16⟩
/-- `NZL_TSET_t_0` (R194). -/
def nzlTset0 (t : Nat) : Nat := 0x110100 + 0x10 * t
def nzlTset0_d_weak (t : Nat) : Fld := ⟨(nzlTset0 t), 16, 16⟩
def nzlTset0_d_miss (t : Nat) : Fld := ⟨(nzlTset0 t), 0, 16⟩
/-- `NZL_TSET_t_1` (R194). -/
def nzlTset1 (t : Nat) : Nat := 0x110104 + 0x10 * t
def nzlTset1_ddev_n (t : Nat) : Fld := ⟨(nzlTset1 t), 16, 16⟩
def nzlTset1_hys_d (t : Nat) : Fld := ⟨(nzlTset1 t), 0, 16⟩
/-- `NZL_TSET_t_2` (R194). -/
def nzlTset2 (t : Nat) : Nat := 0x110108 + 0x10 * t
def nzlTset2_odev_n (t : Nat) : Fld := ⟨(nzlTset2 t), 24, 8⟩
def nzlTset2_hys_o (t : Nat) : Fld := ⟨(nzlTset2 t), 16, 8⟩
def nzlTset2_o_defl (t : Nat) : Fld := ⟨(nzlTset2 t), 0, 16⟩
/-- `NZL_TSET_t_3` (R194). -/
def nzlTset3 (t : Nat) : Nat := 0x11010C + 0x10 * t
def nzlTset3_bg_min (t : Nat) : Fld := ⟨(nzlTset3 t), 16, 16⟩
def nzlTset3_unseen_n (t : Nat) : Fld := ⟨(nzlTset3 t), 8, 5⟩
def nzlTset3_conf_miss (t : Nat) : Fld := ⟨(nzlTset3 t), 4, 4⟩
def nzlTset3_conf (t : Nat) : Fld := ⟨(nzlTset3 t), 0, 4⟩
/-- `NZL_ENG_e_CTRL` (R194). -/
def nzlEngCtrl (e : Nat) : Nat := 0x111000 + 0x10 * e
def nzlEngCtrl_test (e : Nat) : Fld := ⟨(nzlEngCtrl e), 31, 1⟩
def nzlEngCtrl_hold (e : Nat) : Fld := ⟨(nzlEngCtrl e), 0, 1⟩
/-- `NZL_ENG_e_STAT` (R194). -/
def nzlEngStat (e : Nat) : Nat := 0x111004 + 0x10 * e
def nzlEngStat_state (e : Nat) : Fld := ⟨(nzlEngStat e), 30, 2⟩
def nzlEngStat_busy (e : Nat) : Fld := ⟨(nzlEngStat e), 29, 1⟩
def nzlEngStat_pass (e : Nat) : Fld := ⟨(nzlEngStat e), 28, 1⟩
/-- `NZL_ENG_e_CNT` (R194). -/
def nzlEngCnt (e : Nat) : Nat := 0x111008 + 0x10 * e
def nzlEngCnt_val (e : Nat) : Fld := ⟨(nzlEngCnt e), 0, 32⟩
/-- `TRK_CTRL` (R218). -/
def trkCtrl : Nat := 0x120000
def trkCtrl_en : Fld := ⟨trkCtrl, 31, 1⟩
def trkCtrl_place : Fld := ⟨trkCtrl, 30, 1⟩
def trkCtrl_ks : Fld := ⟨trkCtrl, 0, 4⟩
/-- `TRK_STAT` (R218). -/
def trkStat : Nat := 0x120004
def trkStat_active : Fld := ⟨trkStat, 16, 9⟩
def trkStat_ready : Fld := ⟨trkStat, 0, 10⟩
/-- `TRK_OX_BASE` (R218). -/
def trkOxBase : Nat := 0x120008
def trkOxBase_ox : Fld := ⟨trkOxBase, 0, 20⟩
/-- `TRK_GEOM_0` (R218). -/
def trkGeom0 : Nat := 0x120010
def trkGeom0_ox : Fld := ⟨trkGeom0, 0, 20⟩
/-- `TRK_GEOM_1` (R218). -/
def trkGeom1 : Nat := 0x120014
def trkGeom1_sk : Fld := ⟨trkGeom1, 0, 24⟩
/-- `TRK_GEOM_2` (R218). -/
def trkGeom2 : Nat := 0x120018
def trkGeom2_sc : Fld := ⟨trkGeom2, 0, 16⟩
/-- `TRK_CNT_SKIP` (R218). -/
def trkCntSkip : Nat := 0x120020
def trkCntSkip_val : Fld := ⟨trkCntSkip, 0, 32⟩
/-- `TRK_CNT_OVR` (R218). -/
def trkCntOvr : Nat := 0x120024
def trkCntOvr_val : Fld := ⟨trkCntOvr, 0, 32⟩
/-- `TRK_CNT_INV` (R218). -/
def trkCntInv : Nat := 0x120028
def trkCntInv_val : Fld := ⟨trkCntInv, 0, 32⟩
/-- `TRK_LAT` (R218). -/
def trkLat : Nat := 0x12002C
def trkLat_time : Fld := ⟨trkLat, 0, 16⟩
/-- `TRK_ENG_e_CTRL` (R218). -/
def trkEngCtrl (e : Nat) : Nat := 0x121000 + 0x10 * e
def trkEngCtrl_test (e : Nat) : Fld := ⟨(trkEngCtrl e), 31, 1⟩
def trkEngCtrl_hold (e : Nat) : Fld := ⟨(trkEngCtrl e), 0, 1⟩
/-- `TRK_ENG_e_STAT` (R218). -/
def trkEngStat (e : Nat) : Nat := 0x121004 + 0x10 * e
def trkEngStat_state (e : Nat) : Fld := ⟨(trkEngStat e), 30, 2⟩
def trkEngStat_busy (e : Nat) : Fld := ⟨(trkEngStat e), 29, 1⟩
def trkEngStat_pass (e : Nat) : Fld := ⟨(trkEngStat e), 28, 1⟩
/-- `TRK_ENG_e_CNT` (R218). -/
def trkEngCnt (e : Nat) : Nat := 0x121008 + 0x10 * e
def trkEngCnt_val (e : Nat) : Fld := ⟨(trkEngCnt e), 0, 32⟩
/-- `FED_CTRL` (R219). -/
def fedCtrl : Nat := 0x130000
def fedCtrl_en : Fld := ⟨fedCtrl, 31, 1⟩
def fedCtrl_cal_en : Fld := ⟨fedCtrl, 30, 1⟩
def fedCtrl_learn : Fld := ⟨fedCtrl, 29, 1⟩
def fedCtrl_diff_en : Fld := ⟨fedCtrl, 28, 1⟩
def fedCtrl_web_en : Fld := ⟨fedCtrl, 27, 1⟩
def fedCtrl_keep : Fld := ⟨fedCtrl, 26, 1⟩
/-- `FED_STAT` (R219). -/
def fedStat : Nat := 0x130004
def fedStat_clamped : Fld := ⟨fedStat, 31, 1⟩
def fedStat_angle : Fld := ⟨fedStat, 30, 1⟩
def fedStat_n : Fld := ⟨fedStat, 16, 7⟩
def fedStat_rej : Fld := ⟨fedStat, 0, 16⟩
/-- `FED_LOOP` (R219). -/
def fedLoop : Nat := 0x130008
def fedLoop_d : Fld := ⟨fedLoop, 24, 5⟩
def fedLoop_kc : Fld := ⟨fedLoop, 16, 4⟩
def fedLoop_kj : Fld := ⟨fedLoop, 8, 4⟩
def fedLoop_ki : Fld := ⟨fedLoop, 0, 4⟩
/-- `FED_CMAX` (R219). -/
def fedCmax : Nat := 0x13000C
def fedCmax_cmax : Fld := ⟨fedCmax, 0, 20⟩
/-- `FED_EMAX` (R219). -/
def fedEmax : Nat := 0x130010
def fedEmax_emax : Fld := ⟨fedEmax, 0, 20⟩
/-- `FED_MAP_LIM` (R219). -/
def fedMapLim : Nat := 0x130014
def fedMapLim_mslope : Fld := ⟨fedMapLim, 16, 16⟩
def fedMapLim_mmax : Fld := ⟨fedMapLim, 0, 16⟩
/-- `FED_CAL_ENC` (R219). -/
def fedCalEnc : Nat := 0x130018
def fedCalEnc_port : Fld := ⟨fedCalEnc, 30, 2⟩
def fedCalEnc_dir : Fld := ⟨fedCalEnc, 29, 1⟩
def fedCalEnc_top : Fld := ⟨fedCalEnc, 16, 5⟩
/-- `FED_CAL_CIRC` (R219). -/
def fedCalCirc : Nat := 0x13001C
def fedCalCirc_circ : Fld := ⟨fedCalCirc, 0, 32⟩
/-- `FED_INT_I` (R219). -/
def fedIntI : Nat := 0x130020
def fedIntI_val : Fld := ⟨fedIntI, 0, 32⟩
/-- `FED_INT_J` (R219). -/
def fedIntJ : Nat := 0x130024
def fedIntJ_val : Fld := ⟨fedIntJ, 0, 32⟩
/-- `FED_LAST_PASS` (R219). -/
def fedLastPass : Nat := 0x130028
def fedLastPass_val : Fld := ⟨fedLastPass, 0, 32⟩
/-- `FED_SEAM_RES` (R219). -/
def fedSeamRes : Nat := 0x130030
def fedSeamRes_val : Fld := ⟨fedSeamRes, 0, 32⟩
/-- `FED_SEAM_MEAN` (R219). -/
def fedSeamMean : Nat := 0x130034
def fedSeamMean_val : Fld := ⟨fedSeamMean, 0, 32⟩
/-- `FED_CAL_AMP` (R219). -/
def fedCalAmp : Nat := 0x130038
def fedCalAmp_id : Fld := ⟨fedCalAmp, 16, 16⟩
def fedCalAmp_amp : Fld := ⟨fedCalAmp, 0, 16⟩
/-- `FED_SEAM_LIM` (R219). -/
def fedSeamLim : Nat := 0x13003C
def fedSeamLim_lim : Fld := ⟨fedSeamLim, 0, 20⟩
/-- `FED_WEB` (R219). -/
def fedWeb : Nat := 0x130040
def fedWeb_kw : Fld := ⟨fedWeb, 28, 4⟩
def fedWeb_smax : Fld := ⟨fedWeb, 0, 24⟩
/-- `FED_WEB_SCL` (R219). -/
def fedWebScl : Nat := 0x130044
def fedWebScl_val : Fld := ⟨fedWebScl, 0, 32⟩
/-- `MOT_CTRL` (R254). -/
def motCtrl : Nat := 0x140000
def motCtrl_stop : Fld := ⟨motCtrl, 31, 1⟩
def motCtrl_lsrc : Fld := ⟨motCtrl, 6, 2⟩
def motCtrl_levi : Fld := ⟨motCtrl, 4, 2⟩
def motCtrl_webf : Fld := ⟨motCtrl, 3, 1⟩
def motCtrl_fsrc : Fld := ⟨motCtrl, 1, 1⟩
/-- `MOT_STAT` (R254). -/
def motStat : Nat := 0x140004
def motStat_couch : Fld := ⟨motStat, 28, 4⟩
def motStat_adv_run : Fld := ⟨motStat, 27, 1⟩
def motStat_adv_held : Fld := ⟨motStat, 26, 1⟩
def motStat_func : Fld := ⟨motStat, 25, 1⟩
def motStat_moving : Fld := ⟨motStat, 0, 8⟩
/-- `MOT_FEED_ENC` (R254). -/
def motFeedEnc : Nat := 0x140008
def motFeedEnc_port : Fld := ⟨motFeedEnc, 0, 2⟩
/-- `MOT_FEED_QNM` (R254). -/
def motFeedQnm : Nat := 0x14000C
def motFeedQnm_val : Fld := ⟨motFeedQnm, 0, 32⟩
/-- `MOT_FEED_POS_0` (R254). -/
def motFeedPos0 : Nat := 0x140010
def motFeedPos0_val : Fld := ⟨motFeedPos0, 0, 32⟩
/-- `MOT_FEED_POS_1` (R254). -/
def motFeedPos1 : Nat := 0x140014
def motFeedPos1_val : Fld := ⟨motFeedPos1, 0, 32⟩
/-- `MOT_LINE_OFS` (R254). -/
def motLineOfs : Nat := 0x140018
def motLineOfs_val : Fld := ⟨motLineOfs, 0, 32⟩
/-- `MOT_LINE_NEXT_0` (R254). -/
def motLineNext0 : Nat := 0x140020
def motLineNext0_val : Fld := ⟨motLineNext0, 0, 32⟩
/-- `MOT_LINE_NEXT_1` (R254). -/
def motLineNext1 : Nat := 0x140024
def motLineNext1_val : Fld := ⟨motLineNext1, 0, 32⟩
/-- `MOT_VLINE` (R254). -/
def motVline : Nat := 0x140028
def motVline_vline : Fld := ⟨motVline, 0, 23⟩
/-- `MOT_CNT_OVR` (R254). -/
def motCntOvr : Nat := 0x14002C
def motCntOvr_val : Fld := ⟨motCntOvr, 0, 32⟩
/-- `MOT_PASS` (R254). -/
def motPass : Nat := 0x140030
def motPass_val : Fld := ⟨motPass, 0, 32⟩
/-- `MOT_ADV_SETTLE` (R254). -/
def motAdvSettle : Nat := 0x140038
def motAdvSettle_settle : Fld := ⟨motAdvSettle, 0, 16⟩
/-- `MOT_COUCH_CTRL` (R254). -/
def motCouchCtrl : Nat := 0x140040
def motCouchCtrl_strict : Fld := ⟨motCouchCtrl, 31, 1⟩
def motCouchCtrl_chan : Fld := ⟨motCouchCtrl, 26, 2⟩
/-- `MOT_COUCH_MARGIN` (R254). -/
def motCouchMargin : Nat := 0x140044
def motCouchMargin_margin : Fld := ⟨motCouchMargin, 0, 24⟩
/-- `MOT_COUCH_BACKLASH` (R254). -/
def motCouchBacklash : Nat := 0x140048
def motCouchBacklash_backlash : Fld := ⟨motCouchBacklash, 0, 24⟩
/-- `MOT_COUCH_DWELL` (R254). -/
def motCouchDwell : Nat := 0x14004C
def motCouchDwell_dwell : Fld := ⟨motCouchDwell, 0, 16⟩
/-- `MOT_COUCH_LIM` (R254). -/
def motCouchLim : Nat := 0x140050
def motCouchLim_lim : Fld := ⟨motCouchLim, 0, 20⟩
/-- `MOT_COUCH_Q` (R254). -/
def motCouchQ : Nat := 0x140054
def motCouchQ_tmin : Fld := ⟨motCouchQ, 8, 24⟩
def motCouchQ_qmin : Fld := ⟨motCouchQ, 0, 8⟩
/-- `MOT_COUCH_RES` (R254). -/
def motCouchRes : Nat := 0x140058
def motCouchRes_val : Fld := ⟨motCouchRes, 0, 32⟩
/-- `MOT_COUCH_CNT` (R254). -/
def motCouchCnt : Nat := 0x14005C
def motCouchCnt_couches : Fld := ⟨motCouchCnt, 16, 16⟩
def motCouchCnt_suspect : Fld := ⟨motCouchCnt, 0, 16⟩
/-- `MOT_COUCH_STRIP_n` (R254). -/
def motCouchStrip (n : Nat) : Nat := 0x140060 + 0x4 * n
def motCouchStrip_en (n : Nat) : Fld := ⟨(motCouchStrip n), 31, 1⟩
def motCouchStrip_x0 (n : Nat) : Fld := ⟨(motCouchStrip n), 0, 19⟩
/-- `MOT_AX_a_CTRL` (R254). -/
def motAxCtrl (a : Nat) : Nat := 0x141000 + 0x100 * a
def motAxCtrl_stop (a : Nat) : Fld := ⟨(motAxCtrl a), 31, 1⟩
def motAxCtrl_halt (a : Nat) : Fld := ⟨(motAxCtrl a), 30, 1⟩
def motAxCtrl_encset (a : Nat) : Fld := ⟨(motAxCtrl a), 29, 1⟩
def motAxCtrl_ena (a : Nat) : Fld := ⟨(motAxCtrl a), 0, 1⟩
/-- `MOT_AX_a_STAT` (R254). -/
def motAxStat (a : Nat) : Nat := 0x141004 + 0x100 * a
def motAxStat_state (a : Nat) : Fld := ⟨(motAxStat a), 29, 3⟩
def motAxStat_ref (a : Nat) : Fld := ⟨(motAxStat a), 28, 1⟩
def motAxStat_unc (a : Nat) : Fld := ⟨(motAxStat a), 27, 1⟩
def motAxStat_flt (a : Nat) : Fld := ⟨(motAxStat a), 26, 1⟩
def motAxStat_hold (a : Nat) : Fld := ⟨(motAxStat a), 25, 1⟩
def motAxStat_queued (a : Nat) : Fld := ⟨(motAxStat a), 24, 1⟩
def motAxStat_phome (a : Nat) : Fld := ⟨(motAxStat a), 23, 1⟩
def motAxStat_defer (a : Nat) : Fld := ⟨(motAxStat a), 22, 1⟩
/-- `MOT_AX_a_SPEED` (R254). -/
def motAxSpeed (a : Nat) : Nat := 0x141008 + 0x100 * a
def motAxSpeed_speed (a : Nat) : Fld := ⟨(motAxSpeed a), 0, 23⟩
/-- `MOT_AX_a_ACC` (R254). -/
def motAxAcc (a : Nat) : Nat := 0x14100C + 0x100 * a
def motAxAcc_val (a : Nat) : Fld := ⟨(motAxAcc a), 0, 32⟩
/-- `MOT_AX_a_DEC` (R254). -/
def motAxDec (a : Nat) : Nat := 0x141010 + 0x100 * a
def motAxDec_val (a : Nat) : Fld := ⟨(motAxDec a), 0, 32⟩
/-- `MOT_AX_a_JERK` (R254). -/
def motAxJerk (a : Nat) : Nat := 0x141014 + 0x100 * a
def motAxJerk_val (a : Nat) : Fld := ⟨(motAxJerk a), 0, 32⟩
/-- `MOT_AX_a_VSTART` (R254). -/
def motAxVstart (a : Nat) : Nat := 0x141018 + 0x100 * a
def motAxVstart_vstart (a : Nat) : Fld := ⟨(motAxVstart a), 0, 17⟩
/-- `MOT_AX_a_CUR` (R254). -/
def motAxCur (a : Nat) : Nat := 0x14101C + 0x100 * a
def motAxCur_run (a : Nat) : Fld := ⟨(motAxCur a), 24, 8⟩
def motAxCur_hold (a : Nat) : Fld := ⟨(motAxCur a), 16, 8⟩
def motAxCur_hold_dly (a : Nat) : Fld := ⟨(motAxCur a), 0, 16⟩
/-- `MOT_AX_a_PULSE` (R254). -/
def motAxPulse (a : Nat) : Nat := 0x141020 + 0x100 * a
def motAxPulse_dir_hd (a : Nat) : Fld := ⟨(motAxPulse a), 16, 8⟩
def motAxPulse_dir_su (a : Nat) : Fld := ⟨(motAxPulse a), 8, 8⟩
def motAxPulse_step_w (a : Nat) : Fld := ⟨(motAxPulse a), 0, 8⟩
/-- `MOT_AX_a_NM` (R254). -/
def motAxNm (a : Nat) : Nat := 0x141024 + 0x100 * a
def motAxNm_val (a : Nat) : Fld := ⟨(motAxNm a), 0, 32⟩
/-- `MOT_AX_a_POS_0` (R254). -/
def motAxPos0 (a : Nat) : Nat := 0x141028 + 0x100 * a
def motAxPos0_val (a : Nat) : Fld := ⟨(motAxPos0 a), 0, 32⟩
/-- `MOT_AX_a_POS_1` (R254). -/
def motAxPos1 (a : Nat) : Nat := 0x14102C + 0x100 * a
def motAxPos1_val (a : Nat) : Fld := ⟨(motAxPos1 a), 0, 32⟩
/-- `MOT_AX_a_SETPOS_0` (R254). -/
def motAxSetpos0 (a : Nat) : Nat := 0x141030 + 0x100 * a
def motAxSetpos0_val (a : Nat) : Fld := ⟨(motAxSetpos0 a), 0, 32⟩
/-- `MOT_AX_a_SETPOS_1` (R254). -/
def motAxSetpos1 (a : Nat) : Nat := 0x141034 + 0x100 * a
def motAxSetpos1_val (a : Nat) : Fld := ⟨(motAxSetpos1 a), 0, 32⟩
/-- `MOT_AX_a_TGT_0` (R254). -/
def motAxTgt0 (a : Nat) : Nat := 0x141038 + 0x100 * a
def motAxTgt0_val (a : Nat) : Fld := ⟨(motAxTgt0 a), 0, 32⟩
/-- `MOT_AX_a_TGT_1` (R254). -/
def motAxTgt1 (a : Nat) : Nat := 0x14103C + 0x100 * a
def motAxTgt1_val (a : Nat) : Fld := ⟨(motAxTgt1 a), 0, 32⟩
/-- `MOT_AX_a_LATCH_0` (R254). -/
def motAxLatch0 (a : Nat) : Nat := 0x141040 + 0x100 * a
def motAxLatch0_val (a : Nat) : Fld := ⟨(motAxLatch0 a), 0, 32⟩
/-- `MOT_AX_a_LATCH_1` (R254). -/
def motAxLatch1 (a : Nat) : Nat := 0x141044 + 0x100 * a
def motAxLatch1_val (a : Nat) : Fld := ⟨(motAxLatch1 a), 0, 32⟩
/-- `MOT_AX_a_PHASE` (R254). -/
def motAxPhase (a : Nat) : Nat := 0x141048 + 0x100 * a
def motAxPhase_ph_save (a : Nat) : Fld := ⟨(motAxPhase a), 16, 10⟩
def motAxPhase_ph (a : Nat) : Fld := ⟨(motAxPhase a), 0, 10⟩
/-- `MOT_AX_a_ENC` (R254). -/
def motAxEnc (a : Nat) : Nat := 0x14104C + 0x100 * a
def motAxEnc_en (a : Nat) : Fld := ⟨(motAxEnc a), 31, 1⟩
def motAxEnc_port (a : Nat) : Fld := ⟨(motAxEnc a), 0, 2⟩
/-- `MOT_AX_a_ENC_K` (R254). -/
def motAxEncK (a : Nat) : Nat := 0x141050 + 0x100 * a
def motAxEncK_val (a : Nat) : Fld := ⟨(motAxEncK a), 0, 32⟩
/-- `MOT_AX_a_ENC_OFS` (R254). -/
def motAxEncOfs (a : Nat) : Nat := 0x141054 + 0x100 * a
def motAxEncOfs_val (a : Nat) : Fld := ⟨(motAxEncOfs a), 0, 32⟩
/-- `MOT_AX_a_SEG` (R254). -/
def motAxSeg (a : Nat) : Nat := 0x141058 + 0x100 * a
def motAxSeg_val (a : Nat) : Fld := ⟨(motAxSeg a), 0, 32⟩
/-- `POS_STAT` (R268). -/
def posStat : Nat := 0x150000
def posStat_qunc : Fld := ⟨posStat, 4, 4⟩
def posStat_aunc : Fld := ⟨posStat, 0, 4⟩
/-- `POS_CLAIM` (R268). -/
def posClaim : Nat := 0x150004
def posClaim_val : Fld := ⟨posClaim, 0, 32⟩
/-- `POS_ABS_n_CFG` (R268). -/
def posAbsCfg (n : Nat) : Nat := 0x150100 + 0x40 * n
def posAbsCfg_en (n : Nat) : Fld := ⟨(posAbsCfg n), 31, 1⟩
def posAbsCfg_proto (n : Nat) : Fld := ⟨(posAbsCfg n), 30, 1⟩
def posAbsCfg_gray (n : Nat) : Fld := ⟨(posAbsCfg n), 29, 1⟩
def posAbsCfg_ew (n : Nat) : Fld := ⟨(posAbsCfg n), 27, 2⟩
def posAbsCfg_lead (n : Nat) : Fld := ⟨(posAbsCfg n), 25, 2⟩
def posAbsCfg_dlen (n : Nat) : Fld := ⟨(posAbsCfg n), 16, 6⟩
def posAbsCfg_khz (n : Nat) : Fld := ⟨(posAbsCfg n), 0, 16⟩
/-- `POS_ABS_n_TRIG` (R268). -/
def posAbsTrig (n : Nat) : Nat := 0x150104 + 0x40 * n
def posAbsTrig_lb (n : Nat) : Fld := ⟨(posAbsTrig n), 31, 1⟩
def posAbsTrig_per (n : Nat) : Fld := ⟨(posAbsTrig n), 0, 16⟩
/-- `POS_ABS_n_TIME` (R268). -/
def posAbsTime (n : Nat) : Nat := 0x150108 + 0x40 * n
def posAbsTime_trec (n : Nat) : Fld := ⟨(posAbsTime n), 24, 8⟩
def posAbsTime_busy_max (n : Nat) : Fld := ⟨(posAbsTime n), 16, 8⟩
/-- `POS_ABS_n_JMAX` (R268). -/
def posAbsJmax (n : Nat) : Nat := 0x15010C + 0x40 * n
def posAbsJmax_val (n : Nat) : Fld := ⟨(posAbsJmax n), 0, 32⟩
/-- `POS_ABS_n_CTRL` (R268). -/
def posAbsCtrl (n : Nat) : Nat := 0x150110 + 0x40 * n
def posAbsCtrl_req (n : Nat) : Fld := ⟨(posAbsCtrl n), 31, 1⟩
def posAbsCtrl_clrunc (n : Nat) : Fld := ⟨(posAbsCtrl n), 30, 1⟩
/-- `POS_ABS_n_STAT` (R268). -/
def posAbsStat (n : Nat) : Nat := 0x150114 + 0x40 * n
def posAbsStat_unc (n : Nat) : Fld := ⟨(posAbsStat n), 31, 1⟩
def posAbsStat_func (n : Nat) : Fld := ⟨(posAbsStat n), 30, 1⟩
def posAbsStat_junc (n : Nat) : Fld := ⟨(posAbsStat n), 29, 1⟩
def posAbsStat_valid (n : Nat) : Fld := ⟨(posAbsStat n), 28, 1⟩
def posAbsStat_busy (n : Nat) : Fld := ⟨(posAbsStat n), 27, 1⟩
def posAbsStat_pend (n : Nat) : Fld := ⟨(posAbsStat n), 26, 1⟩
def posAbsStat_warn (n : Nat) : Fld := ⟨(posAbsStat n), 25, 1⟩
def posAbsStat_error (n : Nat) : Fld := ⟨(posAbsStat n), 21, 4⟩
def posAbsStat_ld (n : Nat) : Fld := ⟨(posAbsStat n), 0, 11⟩
/-- `POS_ABS_n_WORD` (R268). -/
def posAbsWord (n w : Nat) : Nat := 0x150118 + 0x40 * n + 0x4 * w
def posAbsWord_val (n w : Nat) : Fld := ⟨(posAbsWord n w), 0, 32⟩
/-- `POS_ABS_n_ERR` (R268). -/
def posAbsErr (n : Nat) : Nat := 0x150124 + 0x40 * n
def posAbsErr_failed (n : Nat) : Fld := ⟨(posAbsErr n), 16, 16⟩
def posAbsErr_jump (n : Nat) : Fld := ⟨(posAbsErr n), 0, 16⟩
/-- `POS_ABS_n_OVR` (R268). -/
def posAbsOvr (n : Nat) : Nat := 0x150128 + 0x40 * n
def posAbsOvr_val (n : Nat) : Fld := ⟨(posAbsOvr n), 0, 32⟩
/-- `POS_QEI_n_CFG` (R268). -/
def posQeiCfg (n : Nat) : Nat := 0x150200 + 0x40 * n
def posQeiCfg_en (n : Nat) : Fld := ⟨(posQeiCfg n), 31, 1⟩
def posQeiCfg_dirinv (n : Nat) : Fld := ⟨(posQeiCfg n), 30, 1⟩
def posQeiCfg_ipol (n : Nat) : Fld := ⟨(posQeiCfg n), 29, 1⟩
def posQeiCfg_igate (n : Nat) : Fld := ⟨(posQeiCfg n), 28, 1⟩
def posQeiCfg_pthr (n : Nat) : Fld := ⟨(posQeiCfg n), 16, 8⟩
def posQeiCfg_win (n : Nat) : Fld := ⟨(posQeiCfg n), 0, 16⟩
/-- `POS_QEI_n_CPR` (R268). -/
def posQeiCpr (n : Nat) : Nat := 0x150204 + 0x40 * n
def posQeiCpr_val (n : Nat) : Fld := ⟨(posQeiCpr n), 0, 32⟩
/-- `POS_QEI_n_ITOL` (R268). -/
def posQeiItol (n : Nat) : Nat := 0x150208 + 0x40 * n
def posQeiItol_itol (n : Nat) : Fld := ⟨(posQeiItol n), 0, 16⟩
/-- `POS_QEI_n_CTRL` (R268). -/
def posQeiCtrl (n : Nat) : Nat := 0x15020C + 0x40 * n
def posQeiCtrl_clrunc (n : Nat) : Fld := ⟨(posQeiCtrl n), 31, 1⟩
def posQeiCtrl_reidx (n : Nat) : Fld := ⟨(posQeiCtrl n), 30, 1⟩
/-- `POS_QEI_n_STAT` (R268). -/
def posQeiStat (n : Nat) : Nat := 0x150210 + 0x40 * n
def posQeiStat_unc (n : Nat) : Fld := ⟨(posQeiStat n), 31, 1⟩
def posQeiStat_svalid (n : Nat) : Fld := ⟨(posQeiStat n), 30, 1⟩
def posQeiStat_smode (n : Nat) : Fld := ⟨(posQeiStat n), 29, 1⟩
def posQeiStat_dir (n : Nat) : Fld := ⟨(posQeiStat n), 28, 1⟩
def posQeiStat_iref (n : Nat) : Fld := ⟨(posQeiStat n), 27, 1⟩
def posQeiStat_iflt (n : Nat) : Fld := ⟨(posQeiStat n), 26, 1⟩
def posQeiStat_lvl (n : Nat) : Fld := ⟨(posQeiStat n), 0, 3⟩
/-- `POS_QEI_n_COUNT` (R268). -/
def posQeiCount (n : Nat) : Nat := 0x150214 + 0x40 * n
def posQeiCount_val (n : Nat) : Fld := ⟨(posQeiCount n), 0, 32⟩
/-- `POS_QEI_n_IDX` (R268). -/
def posQeiIdx (n w : Nat) : Nat := 0x150218 + 0x40 * n + 0x4 * w
def posQeiIdx_val (n w : Nat) : Fld := ⟨(posQeiIdx n w), 0, 32⟩
/-- `POS_QEI_n_SPD` (R268). -/
def posQeiSpd (n : Nat) : Nat := 0x150228 + 0x40 * n
def posQeiSpd_val (n : Nat) : Fld := ⟨(posQeiSpd n), 0, 32⟩
/-- `POS_QEI_n_ERR` (R268). -/
def posQeiErr (n : Nat) : Nat := 0x15022C + 0x40 * n
def posQeiErr_ill (n : Nat) : Fld := ⟨(posQeiErr n), 16, 16⟩
def posQeiErr_idx (n : Nat) : Fld := ⟨(posQeiErr n), 0, 16⟩
/-- `POS_QEI_n_REF` (R268). -/
def posQeiRef (n : Nat) : Nat := 0x150230 + 0x40 * n
def posQeiRef_val (n : Nat) : Fld := ⟨(posQeiRef n), 0, 32⟩
/-- `MON_CTRL` (R290). -/
def monCtrl : Nat := 0x160000
def monCtrl_en : Fld := ⟨monCtrl, 31, 1⟩
def monCtrl_cal : Fld := ⟨monCtrl, 30, 1⟩
def monCtrl_caln : Fld := ⟨monCtrl, 20, 4⟩
def monCtrl_cal_per : Fld := ⟨monCtrl, 8, 8⟩
def monCtrl_age : Fld := ⟨monCtrl, 0, 8⟩
/-- `MON_STAT` (R290). -/
def monStat : Nat := 0x160004
def monStat_rate : Fld := ⟨monStat, 30, 2⟩
def monStat_cal_busy : Fld := ⟨monStat, 29, 1⟩
def monStat_blanked : Fld := ⟨monStat, 28, 1⟩
def monStat_blank_ign : Fld := ⟨monStat, 27, 1⟩
def monStat_inj_pend : Fld := ⟨monStat, 24, 3⟩
def monStat_entry : Fld := ⟨monStat, 16, 5⟩
def monStat_act : Fld := ⟨monStat, 13, 3⟩
/-- `MON_SEQ_CTRL` (R290). -/
def monSeqCtrl : Nat := 0x160008
def monSeqCtrl_req : Fld := ⟨monSeqCtrl, 31, 1⟩
def monSeqCtrl_mode : Fld := ⟨monSeqCtrl, 30, 1⟩
def monSeqCtrl_tsrc : Fld := ⟨monSeqCtrl, 28, 2⟩
def monSeqCtrl_evi : Fld := ⟨monSeqCtrl, 26, 2⟩
def monSeqCtrl_last : Fld := ⟨monSeqCtrl, 21, 5⟩
def monSeqCtrl_per : Fld := ⟨monSeqCtrl, 0, 16⟩
/-- `MON_SEQ_OVR` (R290). -/
def monSeqOvr : Nat := 0x16000C
def monSeqOvr_val : Fld := ⟨monSeqOvr, 0, 32⟩
/-- `MON_INJ` (R290). -/
def monInj : Nat := 0x160010
def monInj_go : Fld := ⟨monInj, 31, 1⟩
def monInj_notify : Fld := ⟨monInj, 30, 1⟩
def monInj_ch : Fld := ⟨monInj, 0, 4⟩
/-- `MON_RREF` (R290). -/
def monRref : Nat := 0x160014
def monRref_val : Fld := ⟨monRref, 0, 32⟩
/-- `MON_BLANK` (R290). -/
def monBlank : Nat := 0x160018
def monBlank_en : Fld := ⟨monBlank, 31, 1⟩
def monBlank_pol : Fld := ⟨monBlank, 30, 1⟩
def monBlank_max : Fld := ⟨monBlank, 16, 8⟩
def monBlank_hold : Fld := ⟨monBlank, 0, 16⟩
/-- `MON_DIE` (R290). -/
def monDie : Nat := 0x16001C
def monDie_td : Fld := ⟨monDie, 16, 16⟩
def monDie_valid : Fld := ⟨monDie, 0, 1⟩
/-- `MON_SEQ_w` (R290). -/
def monSeq (w : Nat) : Nat := 0x160040 + 0x4 * w
def monSeq_val (w : Nat) : Fld := ⟨(monSeq w), 0, 32⟩
/-- `MON_REF_g_Z` (R290). -/
def monRefZ (g : Nat) : Nat := 0x160100 + 0x8 * g
def monRefZ_val (g : Nat) : Fld := ⟨(monRefZ g), 0, 32⟩
/-- `MON_REF_g_KV` (R290). -/
def monRefKv (g : Nat) : Nat := 0x160104 + 0x8 * g
def monRefKv_val (g : Nat) : Fld := ⟨(monRefKv g), 0, 32⟩
/-- `MON_CH_n_CFG` (R290). -/
def monChCfg (n : Nat) : Nat := 0x161000 + 0x40 * n
def monChCfg_en (n : Nat) : Fld := ⟨(monChCfg n), 31, 1⟩
def monChCfg_xmode (n : Nat) : Fld := ⟨(monChCfg n), 30, 1⟩
def monChCfg_form (n : Nat) : Fld := ⟨(monChCfg n), 28, 2⟩
def monChCfg_exc (n : Nat) : Fld := ⟨(monChCfg n), 24, 3⟩
def monChCfg_gain (n : Nat) : Fld := ⟨(monChCfg n), 20, 3⟩
def monChCfg_n (n : Nat) : Fld := ⟨(monChCfg n), 16, 4⟩
def monChCfg_settle (n : Nat) : Fld := ⟨(monChCfg n), 8, 6⟩
/-- `MON_CH_n_RES` (R290). -/
def monChRes (n : Nat) : Nat := 0x161004 + 0x40 * n
def monChRes_t (n : Nat) : Fld := ⟨(monChRes n), 16, 16⟩
def monChRes_valid (n : Nat) : Fld := ⟨(monChRes n), 15, 1⟩
def monChRes_stale (n : Nat) : Fld := ⟨(monChRes n), 14, 1⟩
def monChRes_open (n : Nat) : Fld := ⟨(monChRes n), 13, 1⟩
def monChRes_fault (n : Nat) : Fld := ⟨(monChRes n), 12, 1⟩
def monChRes_err (n : Nat) : Fld := ⟨(monChRes n), 8, 4⟩
def monChRes_cnt (n : Nat) : Fld := ⟨(monChRes n), 0, 8⟩
/-- `MON_CH_n_TIME_0` (R290). -/
def monChTime0 (n : Nat) : Nat := 0x161008 + 0x40 * n
def monChTime0_val (n : Nat) : Fld := ⟨(monChTime0 n), 0, 32⟩
/-- `MON_CH_n_TIME_1` (R290). -/
def monChTime1 (n : Nat) : Nat := 0x16100C + 0x40 * n
def monChTime1_val (n : Nat) : Fld := ⟨(monChTime1 n), 0, 32⟩
/-- `MON_CH_n_R` (R290). -/
def monChR (n : Nat) : Nat := 0x161010 + 0x40 * n
def monChR_val (n : Nat) : Fld := ⟨(monChR n), 0, 32⟩
/-- `MON_CH_n_RLEAD` (R290). -/
def monChRlead (n : Nat) : Nat := 0x161014 + 0x40 * n
def monChRlead_val (n : Nat) : Fld := ⟨(monChRlead n), 0, 32⟩
/-- `MON_CH_n_RNORM` (R290). -/
def monChRnorm (n : Nat) : Nat := 0x161018 + 0x40 * n
def monChRnorm_val (n : Nat) : Fld := ⟨(monChRnorm n), 0, 32⟩
/-- `MON_CH_n_LIM` (R290). -/
def monChLim (n : Nat) : Nat := 0x16101C + 0x40 * n
def monChLim_hi (n : Nat) : Fld := ⟨(monChLim n), 16, 16⟩
def monChLim_lo (n : Nat) : Fld := ⟨(monChLim n), 0, 16⟩
/-- `MON_CH_n_CTRL` (R290). -/
def monChCtrl (n : Nat) : Nat := 0x161020 + 0x40 * n
def monChCtrl_load (n : Nat) : Fld := ⟨(monChCtrl n), 31, 1⟩
/-- `MON_CH_n_CAL_Z` (R290). -/
def monChCalZ (n : Nat) : Nat := 0x161024 + 0x40 * n
def monChCalZ_val (n : Nat) : Fld := ⟨(monChCalZ n), 0, 32⟩
/-- `MON_CH_n_CAL_KV` (R290). -/
def monChCalKv (n : Nat) : Nat := 0x161028 + 0x40 * n
def monChCalKv_val (n : Nat) : Fld := ⟨(monChCalKv n), 0, 32⟩
/-- `MON_CH_n_CAL_KIA` (R290). -/
def monChCalKia (n : Nat) : Nat := 0x16102C + 0x40 * n
def monChCalKia_val (n : Nat) : Fld := ⟨(monChCalKia n), 0, 32⟩
/-- `MON_CH_n_CAL_KIB` (R290). -/
def monChCalKib (n : Nat) : Nat := 0x161030 + 0x40 * n
def monChCalKib_val (n : Nat) : Fld := ⟨(monChCalKib n), 0, 32⟩
/-- `MON_CH_n_CNT` (R290). -/
def monChCnt (n : Nat) : Nat := 0x161034 + 0x40 * n
def monChCnt_opens (n : Nat) : Fld := ⟨(monChCnt n), 16, 16⟩
def monChCnt_rejects (n : Nat) : Fld := ⟨(monChCnt n), 0, 16⟩
/-- `MON_CH_n_CMWIN` (R290). -/
def monChCmwin (n : Nat) : Nat := 0x161038 + 0x40 * n
def monChCmwin_cmhi (n : Nat) : Fld := ⟨(monChCmwin n), 16, 16⟩
def monChCmwin_cmlo (n : Nat) : Fld := ⟨(monChCmwin n), 0, 16⟩
/-- `LFF_CTRL` (R323). -/
def lffCtrl : Nat := 0x80000
def lffCtrl_sink : Fld := ⟨lffCtrl, 0, 1⟩
/-- `LFF_STAT` (R323). -/
def lffStat : Nat := 0x80004
def lffStat_above : Fld := ⟨lffStat, 31, 1⟩
def lffStat_gap : Fld := ⟨lffStat, 30, 1⟩
def lffStat_empty : Fld := ⟨lffStat, 29, 1⟩
def lffStat_ring_full : Fld := ⟨lffStat, 28, 1⟩
def lffStat_cause : Fld := ⟨lffStat, 0, 8⟩
/-- `LFF_MARKS` (R323). -/
def lffMarks : Nat := 0x80008
def lffMarks_high : Fld := ⟨lffMarks, 16, 10⟩
def lffMarks_low : Fld := ⟨lffMarks, 0, 10⟩
/-- `LFF_FILL` (R323). -/
def lffFill : Nat := 0x80010
def lffFill_fill : Fld := ⟨lffFill, 0, 22⟩
/-- `LFF_FILL_MAX` (R323). -/
def lffFillMax : Nat := 0x80014
def lffFillMax_fill : Fld := ⟨lffFillMax, 0, 22⟩
/-- `LFF_PTR_ALLOC` (R323). -/
def lffPtrAlloc : Nat := 0x80020
def lffPtrAlloc_val : Fld := ⟨lffPtrAlloc, 0, 23⟩
/-- `LFF_PTR_COMMIT` (R323). -/
def lffPtrCommit : Nat := 0x80024
def lffPtrCommit_val : Fld := ⟨lffPtrCommit, 0, 23⟩
/-- `LFF_PTR_ISSUE` (R323). -/
def lffPtrIssue : Nat := 0x80028
def lffPtrIssue_val : Fld := ⟨lffPtrIssue, 0, 23⟩
/-- `LFF_PTR_FREE` (R323). -/
def lffPtrFree : Nat := 0x8002C
def lffPtrFree_val : Fld := ⟨lffPtrFree, 0, 23⟩
/-- `LFF_CNT_DROP` (R323). -/
def lffCntDrop : Nat := 0x80030
def lffCntDrop_val : Fld := ⟨lffCntDrop, 0, 32⟩
/-- `LFF_CNT_WMARK` (R323). -/
def lffCntWmark : Nat := 0x80034
def lffCntWmark_val : Fld := ⟨lffCntWmark, 0, 32⟩
/-- `LFF_CNT_POISON` (R323). -/
def lffCntPoison : Nat := 0x80038
def lffCntPoison_val : Fld := ⟨lffCntPoison, 0, 32⟩
/-- `LFF_CNT_REWIND` (R323). -/
def lffCntRewind : Nat := 0x8003C
def lffCntRewind_val : Fld := ⟨lffCntRewind, 0, 32⟩
/-- `LFF_LAST_COMMIT_0` (R323). -/
def lffLastCommit0 : Nat := 0x80040
def lffLastCommit0_val : Fld := ⟨lffLastCommit0, 0, 32⟩
/-- `LFF_LAST_COMMIT_1` (R323). -/
def lffLastCommit1 : Nat := 0x80044
def lffLastCommit1_val : Fld := ⟨lffLastCommit1, 0, 16⟩
/-- `LFF_GAP_0` (R323). -/
def lffGap0 : Nat := 0x80048
def lffGap0_val : Fld := ⟨lffGap0, 0, 32⟩
/-- `LFF_GAP_1` (R323). -/
def lffGap1 : Nat := 0x8004C
def lffGap1_val : Fld := ⟨lffGap1, 0, 16⟩
/-- `LFF_ISSUE` (R323). -/
def lffIssue : Nat := 0x80050
def lffIssue_port1 : Fld := ⟨lffIssue, 16, 13⟩
def lffIssue_port0 : Fld := ⟨lffIssue, 0, 13⟩
/-- `LFF_SVC_DATA` (R323). -/
def lffSvcData (w : Nat) : Nat := 0x80060 + 0x4 * w
def lffSvcData_val (w : Nat) : Fld := ⟨(lffSvcData w), 0, 32⟩
/-- `LFF_SVC_STAT` (R323). -/
def lffSvcStat : Nat := 0x80070
def lffSvcStat_idle : Fld := ⟨lffSvcStat, 31, 1⟩
def lffSvcStat_poison : Fld := ⟨lffSvcStat, 30, 1⟩
def lffSvcStat_sop : Fld := ⟨lffSvcStat, 29, 1⟩
def lffSvcStat_left : Fld := ⟨lffSvcStat, 0, 24⟩
/-- `DMA_BUSY` (R324). -/
def dmaBusy : Nat := 0x70000
def dmaBusy_val : Fld := ⟨dmaBusy, 0, 32⟩
/-- `DMA_HALTED` (R324). -/
def dmaHalted : Nat := 0x70004
def dmaHalted_val : Fld := ⟨dmaHalted, 0, 32⟩
/-- `DMA_TMR_t` (R324). -/
def dmaTmr (t : Nat) : Nat := 0x70010 + 0x4 * t
def dmaTmr_en (t : Nat) : Fld := ⟨(dmaTmr t), 31, 1⟩
def dmaTmr_period (t : Nat) : Fld := ⟨(dmaTmr t), 0, 31⟩
/-- `DMA_CH_c_CTRL` (R324). -/
def dmaChCtrl (c : Nat) : Nat := 0x71000 + 0x40 * c
def dmaChCtrl_start (c : Nat) : Fld := ⟨(dmaChCtrl c), 31, 1⟩
def dmaChCtrl_stop (c : Nat) : Fld := ⟨(dmaChCtrl c), 30, 1⟩
def dmaChCtrl_notify (c : Nat) : Fld := ⟨(dmaChCtrl c), 4, 1⟩
def dmaChCtrl_som (c : Nat) : Fld := ⟨(dmaChCtrl c), 3, 1⟩
def dmaChCtrl_op (c : Nat) : Fld := ⟨(dmaChCtrl c), 0, 3⟩
/-- `DMA_CH_c_CFG` (R324). -/
def dmaChCfg (c : Nat) : Nat := 0x71004 + 0x40 * c
def dmaChCfg_prio (c : Nat) : Fld := ⟨(dmaChCfg c), 30, 2⟩
def dmaChCfg_trig (c : Nat) : Fld := ⟨(dmaChCfg c), 28, 2⟩
def dmaChCfg_tmr (c : Nat) : Fld := ⟨(dmaChCfg c), 25, 3⟩
def dmaChCfg_chsrc (c : Nat) : Fld := ⟨(dmaChCfg c), 20, 5⟩
def dmaChCfg_cmode (c : Nat) : Fld := ⟨(dmaChCfg c), 19, 1⟩
def dmaChCfg_evo_en (c : Nat) : Fld := ⟨(dmaChCfg c), 18, 1⟩
def dmaChCfg_evo (c : Nat) : Fld := ⟨(dmaChCfg c), 16, 2⟩
def dmaChCfg_clim (c : Nat) : Fld := ⟨(dmaChCfg c), 0, 16⟩
/-- `DMA_CH_c_STAT` (R324). -/
def dmaChStat (c : Nat) : Nat := 0x71008 + 0x40 * c
def dmaChStat_state (c : Nat) : Fld := ⟨(dmaChStat c), 29, 3⟩
def dmaChStat_pend (c : Nat) : Fld := ⟨(dmaChStat c), 28, 1⟩
def dmaChStat_stopped (c : Nat) : Fld := ⟨(dmaChStat c), 27, 1⟩
def dmaChStat_owner (c : Nat) : Fld := ⟨(dmaChStat c), 23, 4⟩
def dmaChStat_cause (c : Nat) : Fld := ⟨(dmaChStat c), 16, 3⟩
def dmaChStat_ndesc (c : Nat) : Fld := ⟨(dmaChStat c), 0, 16⟩
/-- `DMA_CH_c_COUNT` (R324). -/
def dmaChCount (c : Nat) : Nat := 0x7100C + 0x40 * c
def dmaChCount_val (c : Nat) : Fld := ⟨(dmaChCount c), 0, 32⟩
/-- `DMA_CH_c_SRC_0` (R324). -/
def dmaChSrc0 (c : Nat) : Nat := 0x71010 + 0x40 * c
def dmaChSrc0_val (c : Nat) : Fld := ⟨(dmaChSrc0 c), 0, 32⟩
/-- `DMA_CH_c_SRC_1` (R324). -/
def dmaChSrc1 (c : Nat) : Nat := 0x71014 + 0x40 * c
def dmaChSrc1_val (c : Nat) : Fld := ⟨(dmaChSrc1 c), 0, 32⟩
/-- `DMA_CH_c_DST_0` (R324). -/
def dmaChDst0 (c : Nat) : Nat := 0x71018 + 0x40 * c
def dmaChDst0_val (c : Nat) : Fld := ⟨(dmaChDst0 c), 0, 32⟩
/-- `DMA_CH_c_DST_1` (R324). -/
def dmaChDst1 (c : Nat) : Nat := 0x7101C + 0x40 * c
def dmaChDst1_val (c : Nat) : Fld := ⟨(dmaChDst1 c), 0, 32⟩
/-- `DMA_CH_c_NEXT_0` (R324). -/
def dmaChNext0 (c : Nat) : Nat := 0x71020 + 0x40 * c
def dmaChNext0_val (c : Nat) : Fld := ⟨(dmaChNext0 c), 0, 32⟩
/-- `DMA_CH_c_NEXT_1` (R324). -/
def dmaChNext1 (c : Nat) : Nat := 0x71024 + 0x40 * c
def dmaChNext1_val (c : Nat) : Fld := ⟨(dmaChNext1 c), 0, 32⟩
/-- `DMA_CH_c_DONE` (R324). -/
def dmaChDone (c : Nat) : Nat := 0x71028 + 0x40 * c
def dmaChDone_val (c : Nat) : Fld := ⟨(dmaChDone c), 0, 32⟩
/-- `DMA_CH_c_RESULT` (R324). -/
def dmaChResult (c : Nat) : Nat := 0x7102C + 0x40 * c
def dmaChResult_result (c : Nat) : Fld := ⟨(dmaChResult c), 0, 8⟩
/-- `DMA_CH_c_CUR_0` (R324). -/
def dmaChCur0 (c : Nat) : Nat := 0x71030 + 0x40 * c
def dmaChCur0_val (c : Nat) : Fld := ⟨(dmaChCur0 c), 0, 32⟩
/-- `DMA_CH_c_CUR_1` (R324). -/
def dmaChCur1 (c : Nat) : Nat := 0x71034 + 0x40 * c
def dmaChCur1_val (c : Nat) : Fld := ⟨(dmaChCur1 c), 0, 32⟩
/-- `DMA_CH_c_OVR` (R324). -/
def dmaChOvr (c : Nat) : Nat := 0x71038 + 0x40 * c
def dmaChOvr_val (c : Nat) : Fld := ⟨(dmaChOvr c), 0, 32⟩
/-- `DMA_CH_c_CNT` (R324). -/
def dmaChCnt (c : Nat) : Nat := 0x7103C + 0x40 * c
def dmaChCnt_val (c : Nat) : Fld := ⟨(dmaChCnt c), 0, 32⟩
/-- `HST_CTRL` (R354). -/
def hstCtrl : Nat := 0x30000
def hstCtrl_mode : Fld := ⟨hstCtrl, 30, 2⟩
def hstCtrl_primary : Fld := ⟨hstCtrl, 29, 1⟩
def hstCtrl_lane : Fld := ⟨hstCtrl, 28, 1⟩
def hstCtrl_link_hold : Fld := ⟨hstCtrl, 8, 8⟩
def hstCtrl_poll : Fld := ⟨hstCtrl, 0, 7⟩
/-- `HST_STAT` (R354). -/
def hstStat : Nat := 0x30004
def hstStat_lines : Fld := ⟨hstStat, 30, 2⟩
def hstStat_ctrlport : Fld := ⟨hstStat, 29, 1⟩
/-- `HST_NET` (R354). -/
def hstNet : Nat := 0x30008
def hstNet_vlan_en : Fld := ⟨hstNet, 31, 1⟩
def hstNet_vid : Fld := ⟨hstNet, 16, 12⟩
def hstNet_pfc_wd : Fld := ⟨hstNet, 8, 8⟩
def hstNet_pcp : Fld := ⟨hstNet, 0, 3⟩
/-- `HST_LINE_SLOT` (R354). -/
def hstLineSlot : Nat := 0x30010
def hstLineSlot_val : Fld := ⟨hstLineSlot, 0, 32⟩
/-- `HST_LINE_COUNT` (R354). -/
def hstLineCount : Nat := 0x30014
def hstLineCount_lcount : Fld := ⟨hstLineCount, 0, 17⟩
/-- `HST_LINE_PI_0` (R354). -/
def hstLinePi0 : Nat := 0x30018
def hstLinePi0_val : Fld := ⟨hstLinePi0, 0, 32⟩
/-- `HST_LINE_PI_1` (R354). -/
def hstLinePi1 : Nat := 0x3001C
def hstLinePi1_val : Fld := ⟨hstLinePi1, 0, 32⟩
/-- `HST_LINE_CI_0` (R354). -/
def hstLineCi0 : Nat := 0x30020
def hstLineCi0_val : Fld := ⟨hstLineCi0, 0, 32⟩
/-- `HST_LINE_CI_1` (R354). -/
def hstLineCi1 : Nat := 0x30024
def hstLineCi1_val : Fld := ⟨hstLineCi1, 0, 32⟩
/-- `HST_LINE_ISSUE_0` (R354). -/
def hstLineIssue0 : Nat := 0x30028
def hstLineIssue0_val : Fld := ⟨hstLineIssue0, 0, 32⟩
/-- `HST_LINE_ISSUE_1` (R354). -/
def hstLineIssue1 : Nat := 0x3002C
def hstLineIssue1_val : Fld := ⟨hstLineIssue1, 0, 32⟩
/-- `HST_POLL_SKIP` (R354). -/
def hstPollSkip : Nat := 0x30030
def hstPollSkip_val : Fld := ⟨hstPollSkip, 0, 32⟩
/-- `HST_PORT_p_CTRL` (R354). -/
def hstPortCtrl (p : Nat) : Nat := 0x30100 + 0x40 * p
def hstPortCtrl_down (p : Nat) : Fld := ⟨(hstPortCtrl p), 31, 1⟩
/-- `HST_PORT_p_STAT` (R354). -/
def hstPortStat (p : Nat) : Nat := 0x30104 + 0x40 * p
def hstPortStat_state (p : Nat) : Fld := ⟨(hstPortStat p), 30, 2⟩
def hstPortStat_cause (p : Nat) : Fld := ⟨(hstPortStat p), 27, 3⟩
def hstPortStat_link (p : Nat) : Fld := ⟨(hstPortStat p), 26, 1⟩
def hstPortStat_lfault (p : Nat) : Fld := ⟨(hstPortStat p), 25, 1⟩
def hstPortStat_rfault (p : Nat) : Fld := ⟨(hstPortStat p), 24, 1⟩
def hstPortStat_paused (p : Nat) : Fld := ⟨(hstPortStat p), 23, 1⟩
/-- `HST_PORT_p_FEC_CORR` (R354). -/
def hstPortFecCorr (p : Nat) : Nat := 0x30108 + 0x40 * p
def hstPortFecCorr_val (p : Nat) : Fld := ⟨(hstPortFecCorr p), 0, 32⟩
/-- `HST_PORT_p_FEC_UNCORR` (R354). -/
def hstPortFecUncorr (p : Nat) : Nat := 0x3010C + 0x40 * p
def hstPortFecUncorr_val (p : Nat) : Fld := ⟨(hstPortFecUncorr p), 0, 32⟩
/-- `HST_PORT_p_RXDISC` (R354). -/
def hstPortRxdisc (p : Nat) : Nat := 0x30110 + 0x40 * p
def hstPortRxdisc_val (p : Nat) : Fld := ⟨(hstPortRxdisc p), 0, 32⟩
/-- `HST_PORT_p_PAUSE` (R354). -/
def hstPortPause (p : Nat) : Nat := 0x30114 + 0x40 * p
def hstPortPause_val (p : Nat) : Fld := ⟨(hstPortPause p), 0, 32⟩
/-- `HST_PORT_p_DOWNS` (R354). -/
def hstPortDowns (p : Nat) : Nat := 0x30118 + 0x40 * p
def hstPortDowns_val (p : Nat) : Fld := ⟨(hstPortDowns p), 0, 32⟩
/-- `HST_PORT_p_MAC_0` (R354). -/
def hstPortMac0 (p : Nat) : Nat := 0x3011C + 0x40 * p
def hstPortMac0_val (p : Nat) : Fld := ⟨(hstPortMac0 p), 0, 32⟩
/-- `HST_PORT_p_MAC_1` (R354). -/
def hstPortMac1 (p : Nat) : Nat := 0x30120 + 0x40 * p
def hstPortMac1_val (p : Nat) : Fld := ⟨(hstPortMac1 p), 0, 16⟩
/-- `QPT_ECN_0` (R355). -/
def qptEcn0 : Nat := 0x40000
def qptEcn0_g : Fld := ⟨qptEcn0, 28, 4⟩
def qptEcn0_rtimer : Fld := ⟨qptEcn0, 16, 12⟩
def qptEcn0_rai : Fld := ⟨qptEcn0, 0, 16⟩
/-- `QPT_ECN_1` (R355). -/
def qptEcn1 : Nat := 0x40004
def qptEcn1_en : Fld := ⟨qptEcn1, 31, 1⟩
def qptEcn1_rmin : Fld := ⟨qptEcn1, 0, 16⟩
/-- `QPT_QP_q_CFG` (R355). -/
def qptQpCfg (q : Nat) : Nat := 0x41000 + 0x40 * q
def qptQpCfg_en (q : Nat) : Fld := ⟨(qptQpCfg q), 31, 1⟩
def qptQpCfg_lines (q : Nat) : Fld := ⟨(qptQpCfg q), 30, 1⟩
def qptQpCfg_control (q : Nat) : Fld := ⟨(qptQpCfg q), 29, 1⟩
def qptQpCfg_dma (q : Nat) : Fld := ⟨(qptQpCfg q), 28, 1⟩
def qptQpCfg_pen (q : Nat) : Fld := ⟨(qptQpCfg q), 27, 1⟩
def qptQpCfg_partner (q : Nat) : Fld := ⟨(qptQpCfg q), 23, 4⟩
def qptQpCfg_to (q : Nat) : Fld := ⟨(qptQpCfg q), 20, 3⟩
def qptQpCfg_ipv6 (q : Nat) : Fld := ⟨(qptQpCfg q), 19, 1⟩
/-- `QPT_QP_q_LQPN` (R355). -/
def qptQpLqpn (q : Nat) : Nat := 0x41004 + 0x40 * q
def qptQpLqpn_qpn (q : Nat) : Fld := ⟨(qptQpLqpn q), 0, 24⟩
/-- `QPT_QP_q_RQPN` (R355). -/
def qptQpRqpn (q : Nat) : Nat := 0x41008 + 0x40 * q
def qptQpRqpn_qpn (q : Nat) : Fld := ⟨(qptQpRqpn q), 0, 24⟩
/-- `QPT_QP_q_PSN` (R355). -/
def qptQpPsn (q : Nat) : Nat := 0x4100C + 0x40 * q
def qptQpPsn_psn (q : Nat) : Fld := ⟨(qptQpPsn q), 0, 24⟩
/-- `QPT_QP_q_ACKPSN` (R355). -/
def qptQpAckpsn (q : Nat) : Nat := 0x41010 + 0x40 * q
def qptQpAckpsn_psn (q : Nat) : Fld := ⟨(qptQpAckpsn q), 0, 24⟩
/-- `QPT_QP_q_NEWPSN` (R355). -/
def qptQpNewpsn (q : Nat) : Nat := 0x41014 + 0x40 * q
def qptQpNewpsn_psn (q : Nat) : Fld := ⟨(qptQpNewpsn q), 0, 24⟩
/-- `QPT_QP_q_CTRL` (R355). -/
def qptQpCtrl (q : Nat) : Nat := 0x41018 + 0x40 * q
def qptQpCtrl_reset (q : Nat) : Fld := ⟨(qptQpCtrl q), 31, 1⟩
/-- `QPT_QP_q_STAT` (R355). -/
def qptQpStat (q : Nat) : Nat := 0x4101C + 0x40 * q
def qptQpStat_state (q : Nat) : Fld := ⟨(qptQpStat q), 30, 2⟩
def qptQpStat_err (q : Nat) : Fld := ⟨(qptQpStat q), 27, 3⟩
def qptQpStat_run (q : Nat) : Fld := ⟨(qptQpStat q), 24, 3⟩
def qptQpStat_moved (q : Nat) : Fld := ⟨(qptQpStat q), 23, 1⟩
def qptQpStat_reads (q : Nat) : Fld := ⟨(qptQpStat q), 0, 4⟩
/-- `QPT_QP_q_RETRY` (R355). -/
def qptQpRetry (q : Nat) : Nat := 0x41020 + 0x40 * q
def qptQpRetry_timeouts (q : Nat) : Fld := ⟨(qptQpRetry q), 16, 16⟩
def qptQpRetry_seqnaks (q : Nat) : Fld := ⟨(qptQpRetry q), 0, 16⟩
/-- `QPT_QP_q_CNP` (R355). -/
def qptQpCnp (q : Nat) : Nat := 0x41024 + 0x40 * q
def qptQpCnp_val (q : Nat) : Fld := ⟨(qptQpCnp q), 0, 32⟩
/-- `QPT_QP_q_RATE` (R355). -/
def qptQpRate (q : Nat) : Nat := 0x41028 + 0x40 * q
def qptQpRate_rt (q : Nat) : Fld := ⟨(qptQpRate q), 16, 16⟩
def qptQpRate_r (q : Nat) : Fld := ⟨(qptQpRate q), 0, 16⟩
/-- `CMD_CTRL` (R356). -/
def cmdCtrl : Nat := 0x50000
def cmdCtrl_pause : Fld := ⟨cmdCtrl, 31, 1⟩
/-- `CMD_STAT` (R356). -/
def cmdStat : Nat := 0x50004
def cmdStat_phase : Fld := ⟨cmdStat, 31, 1⟩
def cmdStat_fetch : Fld := ⟨cmdStat, 30, 1⟩
def cmdStat_retry : Fld := ⟨cmdStat, 28, 2⟩
/-- `CMD_CI_0` (R356). -/
def cmdCi0 : Nat := 0x50008
def cmdCi0_val : Fld := ⟨cmdCi0, 0, 32⟩
/-- `CMD_CI_1` (R356). -/
def cmdCi1 : Nat := 0x5000C
def cmdCi1_val : Fld := ⟨cmdCi1, 0, 32⟩
/-- `CMD_COUNT` (R356). -/
def cmdCount : Nat := 0x50010
def cmdCount_ccount : Fld := ⟨cmdCount, 0, 13⟩
/-- `CMD_LAST` (R356). -/
def cmdLast : Nat := 0x50014
def cmdLast_opcode : Fld := ⟨cmdLast, 24, 8⟩
def cmdLast_reason : Fld := ⟨cmdLast, 16, 8⟩
def cmdLast_tag : Fld := ⟨cmdLast, 0, 16⟩
/-- `CMD_CNT_DONE` (R356). -/
def cmdCntDone : Nat := 0x50018
def cmdCntDone_val : Fld := ⟨cmdCntDone, 0, 32⟩
/-- `CMD_CNT_REFUSED` (R356). -/
def cmdCntRefused : Nat := 0x5001C
def cmdCntRefused_val : Fld := ⟨cmdCntRefused, 0, 32⟩
/-- `CMD_CNT_CHECK` (R356). -/
def cmdCntCheck : Nat := 0x50020
def cmdCntCheck_val : Fld := ⟨cmdCntCheck, 0, 32⟩
/-- `EVQ_CTRL` (R357). -/
def evqCtrl : Nat := 0x60000
def evqCtrl_filter : Fld := ⟨evqCtrl, 0, 16⟩
/-- `EVQ_STAT` (R357). -/
def evqStat : Nat := 0x60004
def evqStat_lost : Fld := ⟨evqStat, 31, 1⟩
def evqStat_wait : Fld := ⟨evqStat, 30, 1⟩
def evqStat_seq : Fld := ⟨evqStat, 0, 16⟩
/-- `EVQ_PI_0` (R357). -/
def evqPi0 : Nat := 0x60008
def evqPi0_val : Fld := ⟨evqPi0, 0, 32⟩
/-- `EVQ_PI_1` (R357). -/
def evqPi1 : Nat := 0x6000C
def evqPi1_val : Fld := ⟨evqPi1, 0, 32⟩
/-- `EVQ_CI_0` (R357). -/
def evqCi0 : Nat := 0x60010
def evqCi0_val : Fld := ⟨evqCi0, 0, 32⟩
/-- `EVQ_CI_1` (R357). -/
def evqCi1 : Nat := 0x60014
def evqCi1_val : Fld := ⟨evqCi1, 0, 32⟩
/-- `EVQ_COUNT` (R357). -/
def evqCount : Nat := 0x60018
def evqCount_ecount : Fld := ⟨evqCount, 0, 17⟩
/-- `EVQ_CNT_LOST` (R357). -/
def evqCntLost : Nat := 0x6001C
def evqCntLost_val : Fld := ⟨evqCntLost, 0, 32⟩
/-- `CFG_STAT` (R388). -/
def cfgStat : Nat := 0x10000
def cfgStat_ready : Fld := ⟨cfgStat, 31, 1⟩
def cfgStat_loaded : Fld := ⟨cfgStat, 30, 1⟩
def cfgStat_copy : Fld := ⟨cfgStat, 29, 1⟩
def cfgStat_step : Fld := ⟨cfgStat, 24, 4⟩
/-- `CFG_RESULT` (R388). -/
def cfgResult : Nat := 0x10004
def cfgResult_b : Fld := ⟨cfgResult, 8, 8⟩
def cfgResult_a : Fld := ⟨cfgResult, 0, 8⟩
/-- `CFG_SEQ` (R388). -/
def cfgSeq : Nat := 0x10008
def cfgSeq_val : Fld := ⟨cfgSeq, 0, 32⟩
/-- `CFG_SVN` (R388). -/
def cfgSvn : Nat := 0x1000C
def cfgSvn_svn : Fld := ⟨cfgSvn, 0, 6⟩
/-- `CFG_BUILD_0` (R388). -/
def cfgBuild0 : Nat := 0x10010
def cfgBuild0_val : Fld := ⟨cfgBuild0, 0, 32⟩
/-- `CFG_BUILD_1` (R388). -/
def cfgBuild1 : Nat := 0x10014
def cfgBuild1_val : Fld := ⟨cfgBuild1, 0, 32⟩
/-- `CFG_LEN` (R388). -/
def cfgLen : Nat := 0x10018
def cfgLen_val : Fld := ⟨cfgLen, 0, 32⟩
/-- `CFG_NOR` (R388). -/
def cfgNor : Nat := 0x1001C
def cfgNor_dens : Fld := ⟨cfgNor, 24, 8⟩
def cfgNor_mhz : Fld := ⟨cfgNor, 16, 8⟩
def cfgNor_vsel : Fld := ⟨cfgNor, 15, 1⟩
def cfgNor_mode : Fld := ⟨cfgNor, 0, 2⟩
/-- `CFG_RESET` (R388). -/
def cfgReset : Nat := 0x10020
def cfgReset_val : Fld := ⟨cfgReset, 0, 32⟩
/-- `CFG_CLAIM_PIN` (R388). -/
def cfgClaimPin : Nat := 0x10030
def cfgClaimPin_val : Fld := ⟨cfgClaimPin, 0, 32⟩
/-- `CFG_CLAIM_AXIS` (R388). -/
def cfgClaimAxis : Nat := 0x10034
def cfgClaimAxis_val : Fld := ⟨cfgClaimAxis, 0, 32⟩
/-- `CFG_CLAIM_POS` (R388). -/
def cfgClaimPos : Nat := 0x10038
def cfgClaimPos_val : Fld := ⟨cfgClaimPos, 0, 32⟩
/-- `CFG_CLAIM_DMA_w` (R388). -/
def cfgClaimDma (w : Nat) : Nat := 0x10040 + 0x4 * w
def cfgClaimDma_val (w : Nat) : Fld := ⟨(cfgClaimDma w), 0, 32⟩
/-- `CFG_CONFLICT` (R388). -/
def cfgConflict : Nat := 0x10050
def cfgConflict_class : Fld := ⟨cfgConflict, 24, 8⟩
def cfgConflict_index : Fld := ⟨cfgConflict, 16, 8⟩
def cfgConflict_inforce : Fld := ⟨cfgConflict, 8, 8⟩
def cfgConflict_wanted : Fld := ⟨cfgConflict, 0, 8⟩
/-- `CFG_CONFLICT_ADDR` (R388). -/
def cfgConflictAddr : Nat := 0x10054
def cfgConflictAddr_val : Fld := ⟨cfgConflictAddr, 0, 32⟩
/-- `SEC_STAT` (R389). -/
def secStat : Nat := 0x20000
def secStat_prov : Fld := ⟨secStat, 31, 1⟩
def secStat_dbglock : Fld := ⟨secStat, 30, 1⟩
def secStat_keycut : Fld := ⟨secStat, 29, 1⟩
def secStat_secrets : Fld := ⟨secStat, 28, 1⟩
def secStat_fbusy : Fld := ⟨secStat, 27, 1⟩
def secStat_fdone : Fld := ⟨secStat, 26, 1⟩
def secStat_ferr : Fld := ⟨secStat, 25, 1⟩
def secStat_svn : Fld := ⟨secStat, 0, 6⟩
/-- `SEC_FUSE_CTRL` (R389). -/
def secFuseCtrl : Nat := 0x20004
def secFuseCtrl_key : Fld := ⟨secFuseCtrl, 16, 16⟩
def secFuseCtrl_op : Fld := ⟨secFuseCtrl, 0, 2⟩
/-- `SEC_FUSE_DATA_i` (R389). -/
def secFuseData (i : Nat) : Nat := 0x20010 + 0x4 * i
def secFuseData_val (i : Nat) : Fld := ⟨(secFuseData i), 0, 32⟩
/-- `SEC_PKH_i` (R389). -/
def secPkh (i : Nat) : Nat := 0x20040 + 0x4 * i
def secPkh_val (i : Nat) : Fld := ⟨(secPkh i), 0, 32⟩
/-- `SEC_UID_0` (R389). -/
def secUid0 : Nat := 0x20060
def secUid0_val : Fld := ⟨secUid0, 0, 32⟩
/-- `SEC_UID_1` (R389). -/
def secUid1 : Nat := 0x20064
def secUid1_val : Fld := ⟨secUid1, 0, 32⟩
/-- `SEC_ZEROISE` (R389). -/
def secZeroise : Nat := 0x20070
def secZeroise_val : Fld := ⟨secZeroise, 0, 32⟩
/-- `SEC_SEAL_CTRL` (R389). -/
def secSealCtrl : Nat := 0x20080
def secSealCtrl_go : Fld := ⟨secSealCtrl, 31, 1⟩
def secSealCtrl_busy : Fld := ⟨secSealCtrl, 30, 1⟩
def secSealCtrl_done : Fld := ⟨secSealCtrl, 29, 1⟩
def secSealCtrl_type : Fld := ⟨secSealCtrl, 16, 8⟩
def secSealCtrl_p : Fld := ⟨secSealCtrl, 0, 12⟩
/-- `SEC_SEAL_IV_i` (R389). -/
def secSealIv (i : Nat) : Nat := 0x20084 + 0x4 * i
def secSealIv_val (i : Nat) : Fld := ⟨(secSealIv i), 0, 32⟩
/-- `SEC_SEAL_TAG_i` (R389). -/
def secSealTag (i : Nat) : Nat := 0x20090 + 0x4 * i
def secSealTag_val (i : Nat) : Fld := ⟨(secSealTag i), 0, 32⟩
/-- `SEC_SEAL_BUF_w` (R389). -/
def secSealBuf (w : Nat) : Nat := 0x21000 + 0x4 * w
def secSealBuf_val (w : Nat) : Fld := ⟨(secSealBuf w), 0, 32⟩
/-- `TWB_CTRL` (R410). -/
def twbCtrl : Nat := 0x170000
def twbCtrl_tstuck : Fld := ⟨twbCtrl, 0, 8⟩
/-- `TWB_STAT` (R410). -/
def twbStat : Nat := 0x170004
def twbStat_state : Fld := ⟨twbStat, 30, 2⟩
def twbStat_hold : Fld := ⟨twbStat, 29, 1⟩
def twbStat_addr : Fld := ⟨twbStat, 0, 7⟩
/-- `TWB_CNT_STUCK` (R410). -/
def twbCntStuck : Nat := 0x170008
def twbCntStuck_val : Fld := ⟨twbCntStuck, 0, 32⟩
/-- `TWB_CNT_DISC` (R410). -/
def twbCntDisc : Nat := 0x17000C
def twbCntDisc_bytes : Fld := ⟨twbCntDisc, 16, 16⟩
def twbCntDisc_groups : Fld := ⟨twbCntDisc, 0, 16⟩
/-- `IND_CTRL` (R411). -/
def indCtrl : Nat := 0x100000
def indCtrl_en : Fld := ⟨indCtrl, 31, 1⟩
def indCtrl_trow : Fld := ⟨indCtrl, 16, 12⟩
def indCtrl_blank : Fld := ⟨indCtrl, 8, 8⟩
def indCtrl_dim : Fld := ⟨indCtrl, 0, 8⟩
/-- `IND_CUR` (R411). -/
def indCur : Nat := 0x100004
def indCur_icol : Fld := ⟨indCur, 0, 5⟩
/-- `IND_STAT` (R411). -/
def indStat : Nat := 0x100008
def indStat_safepat : Fld := ⟨indStat, 31, 1⟩
def indStat_row : Fld := ⟨indStat, 28, 3⟩
def indStat_active : Fld := ⟨indStat, 24, 4⟩
def indStat_ptr : Fld := ⟨indStat, 0, 7⟩
/-- `IND_LED_w` (R411). -/
def indLed (w : Nat) : Nat := 0x100010 + 0x4 * w
def indLed_val (w : Nat) : Fld := ⟨(indLed w), 0, 32⟩
/-- `IND_ENG_e_CFG` (R411). -/
def indEngCfg (e : Nat) : Nat := 0x100100 + 0x20 * e
def indEngCfg_en (e : Nat) : Fld := ⟨(indEngCfg e), 31, 1⟩
def indEngCfg_type (e : Nat) : Fld := ⟨(indEngCfg e), 26, 2⟩
def indEngCfg_src (e : Nat) : Fld := ⟨(indEngCfg e), 25, 1⟩
def indEngCfg_level (e : Nat) : Fld := ⟨(indEngCfg e), 0, 8⟩
/-- `IND_ENG_e_TIME` (R411). -/
def indEngTime (e : Nat) : Nat := 0x100104 + 0x20 * e
def indEngTime_t1 (e : Nat) : Fld := ⟨(indEngTime e), 16, 16⟩
def indEngTime_t2 (e : Nat) : Fld := ⟨(indEngTime e), 0, 16⟩
/-- `IND_ENG_e_ARG` (R411). -/
def indEngArg (e : Nat) : Nat := 0x100108 + 0x20 * e
def indEngArg_len (e : Nat) : Fld := ⟨(indEngArg e), 16, 7⟩
def indEngArg_dir (e : Nat) : Fld := ⟨(indEngArg e), 8, 1⟩
def indEngArg_p (e : Nat) : Fld := ⟨(indEngArg e), 0, 7⟩
/-- `IND_ENG_e_MASK` (R411). -/
def indEngMask (e w : Nat) : Nat := 0x100110 + 0x20 * e + 0x4 * w
def indEngMask_val (e w : Nat) : Fld := ⟨(indEngMask e w), 0, 32⟩
/-- `DBG_STAT` (R412). -/
def dbgStat : Nat := 0x180000
def dbgStat_open : Fld := ⟨dbgStat, 31, 1⟩
def dbgStat_lock : Fld := ⟨dbgStat, 30, 1⟩
def dbgStat_opening : Fld := ⟨dbgStat, 29, 1⟩
def dbgStat_pins : Fld := ⟨dbgStat, 28, 1⟩
def dbgStat_ir : Fld := ⟨dbgStat, 8, 8⟩
/-- `DBG_IDCODE` (R412). -/
def dbgIdcode : Nat := 0x180004
def dbgIdcode_val : Fld := ⟨dbgIdcode, 0, 32⟩
/-- `DBG_CNT_REFUSED` (R412). -/
def dbgCntRefused : Nat := 0x180008
def dbgCntRefused_val : Fld := ⟨dbgCntRefused, 0, 32⟩

end Reg

/-- Descriptors of the SYS block (R33). -/
def sysRegs : List RegDesc := [
  ⟨0x0, [],
    [⟨16, 16, .ro, 13412, none⟩, ⟨8, 8, .ro, 1, none⟩, ⟨0, 8, .ro, 0, none⟩]⟩,
  ⟨0x4, [],
    [⟨16, 16, .ro, 0, none⟩, ⟨4, 2, .ro, 0, none⟩, ⟨3, 1, .ro, 0, none⟩, ⟨2, 1, .ro, 0, none⟩, ⟨1, 1, .ro, 0, none⟩]⟩,
  ⟨0x10, [],
    [⟨0, 32, .ro, 0, none⟩]⟩,
  ⟨0x14, [],
    [⟨0, 32, .ro, 0, none⟩]⟩,
  ⟨0x18, [],
    [⟨0, 32, .ro, 0, none⟩]⟩,
  ⟨0x1C, [],
    [⟨0, 32, .ro, 0, none⟩]⟩,
  ⟨0x20, [],
    [⟨1, 1, .rw, 0, none⟩, ⟨0, 1, .rw, 0, none⟩]⟩,
  ⟨0x24, [],
    [⟨0, 32, .rc, 0, none⟩]⟩,
  ⟨0x30, [],
    [⟨3, 8, .rw, 0, none⟩, ⟨2, 1, .rw, 0, none⟩, ⟨1, 1, .rw, 0, none⟩, ⟨0, 1, .rw, 0, none⟩]⟩,
  ⟨0x34, [],
    [⟨3, 8, .ro, 0, none⟩, ⟨2, 1, .ro, 0, none⟩, ⟨1, 1, .ro, 0, none⟩, ⟨0, 1, .ro, 0, none⟩]⟩,
  ⟨0x40, [],
    [⟨0, 32, .ro, 0, none⟩]⟩,
  ⟨0x44, [],
    [⟨0, 16, .ro, 0, none⟩]⟩,
  ⟨0x48, [],
    [⟨16, 16, .ro, 0, none⟩, ⟨0, 16, .ro, 0, none⟩]⟩,
  ⟨0x50, [],
    [⟨2, 1, .rw, 0, none⟩, ⟨1, 1, .w1c, 0, none⟩, ⟨0, 1, .wo, 0, none⟩]⟩,
  ⟨0x54, [],
    [⟨0, 32, .ro, 0, none⟩]⟩,
  ⟨0x58, [],
    [⟨0, 16, .ro, 0, none⟩]⟩,
  ⟨0x60, [(0x4, 3)],
    [⟨0, 32, .ro, 0, none⟩]⟩,
  ⟨0x80, [],
    [⟨0, 32, .w1c, 0, none⟩]⟩,
  ⟨0x84, [],
    [⟨0, 32, .ro, 0, none⟩]⟩,
  ⟨0x88, [],
    [⟨0, 32, .wo, 0, none⟩]⟩]

/-- Descriptors of the CFG block (R388). -/
def cfgRegs : List RegDesc := [
  ⟨0x10000, [],
    [⟨31, 1, .ro, 0, none⟩, ⟨30, 1, .ro, 0, none⟩, ⟨29, 1, .ro, 0, none⟩, ⟨24, 4, .ro, 0, none⟩]⟩,
  ⟨0x10004, [],
    [⟨8, 8, .ro, 255, none⟩, ⟨0, 8, .ro, 255, none⟩]⟩,
  ⟨0x10008, [],
    [⟨0, 32, .ro, 0, none⟩]⟩,
  ⟨0x1000C, [],
    [⟨0, 6, .ro, 0, none⟩]⟩,
  ⟨0x10010, [],
    [⟨0, 32, .ro, 0, none⟩]⟩,
  ⟨0x10014, [],
    [⟨0, 32, .ro, 0, none⟩]⟩,
  ⟨0x10018, [],
    [⟨0, 32, .ro, 0, none⟩]⟩,
  ⟨0x1001C, [],
    [⟨24, 8, .ro, 0, none⟩, ⟨16, 8, .ro, 0, none⟩, ⟨15, 1, .ro, 0, none⟩, ⟨0, 2, .ro, 0, none⟩]⟩,
  ⟨0x10020, [],
    [⟨0, 32, .wo, 0, none⟩]⟩,
  ⟨0x10030, [],
    [⟨0, 32, .ro, 0, none⟩]⟩,
  ⟨0x10034, [],
    [⟨0, 32, .ro, 0, none⟩]⟩,
  ⟨0x10038, [],
    [⟨0, 32, .ro, 0, none⟩]⟩,
  ⟨0x10040, [(0x4, 4)],
    [⟨0, 32, .ro, 0, none⟩]⟩,
  ⟨0x10050, [],
    [⟨24, 8, .ro, 0, none⟩, ⟨16, 8, .ro, 0, none⟩, ⟨8, 8, .ro, 0, none⟩, ⟨0, 8, .ro, 0, none⟩]⟩,
  ⟨0x10054, [],
    [⟨0, 32, .ro, 0, none⟩]⟩]

/-- Descriptors of the SEC block (R389). -/
def secRegs : List RegDesc := [
  ⟨0x20000, [],
    [⟨31, 1, .ro, 0, none⟩, ⟨30, 1, .ro, 0, none⟩, ⟨29, 1, .ro, 0, none⟩, ⟨28, 1, .ro, 0, none⟩, ⟨27, 1, .ro, 0, none⟩, ⟨26, 1, .w1c, 0, none⟩, ⟨25, 1, .w1c, 0, none⟩, ⟨0, 6, .ro, 0, none⟩]⟩,
  ⟨0x20004, [],
    [⟨16, 16, .wo, 0, none⟩, ⟨0, 2, .wo, 0, none⟩]⟩,
  ⟨0x20010, [(0x4, 8)],
    [⟨0, 32, .wo, 0, none⟩]⟩,
  ⟨0x20040, [(0x4, 8)],
    [⟨0, 32, .ro, 0, none⟩]⟩,
  ⟨0x20060, [],
    [⟨0, 32, .ro, 0, none⟩]⟩,
  ⟨0x20064, [],
    [⟨0, 32, .ro, 0, none⟩]⟩,
  ⟨0x20070, [],
    [⟨0, 32, .wo, 0, none⟩]⟩,
  ⟨0x20080, [],
    [⟨31, 1, .wo, 0, none⟩, ⟨30, 1, .ro, 0, none⟩, ⟨29, 1, .w1c, 0, none⟩, ⟨16, 8, .rw, 0, none⟩, ⟨0, 12, .rw, 0, none⟩]⟩,
  ⟨0x20084, [(0x4, 3)],
    [⟨0, 32, .ro, 0, none⟩]⟩,
  ⟨0x20090, [(0x4, 4)],
    [⟨0, 32, .ro, 0, none⟩]⟩,
  ⟨0x21000, [(0x4, 512)],
    [⟨0, 32, .rw, 0, none⟩]⟩]

/-- Descriptors of the HST block, part 0 (R354). -/
def hstRegs0 : List RegDesc := [
  ⟨0x30000, [],
    [⟨30, 2, .rw, 0, none⟩, ⟨29, 1, .rw, 0, none⟩, ⟨28, 1, .ro, 0, none⟩, ⟨8, 8, .rw, 0, none⟩, ⟨0, 7, .rw, 0, none⟩]⟩,
  ⟨0x30004, [],
    [⟨30, 2, .ro, 3, none⟩, ⟨29, 1, .ro, 0, none⟩]⟩,
  ⟨0x30008, [],
    [⟨31, 1, .ro, 0, none⟩, ⟨16, 12, .ro, 0, none⟩, ⟨8, 8, .ro, 0, none⟩, ⟨0, 3, .ro, 0, none⟩]⟩,
  ⟨0x30010, [],
    [⟨0, 32, .ro, 0, none⟩]⟩,
  ⟨0x30014, [],
    [⟨0, 17, .ro, 0, none⟩]⟩,
  ⟨0x30018, [],
    [⟨0, 32, .ro, 0, none⟩]⟩,
  ⟨0x3001C, [],
    [⟨0, 32, .ro, 0, none⟩]⟩,
  ⟨0x30020, [],
    [⟨0, 32, .ro, 0, none⟩]⟩,
  ⟨0x30024, [],
    [⟨0, 32, .ro, 0, none⟩]⟩,
  ⟨0x30028, [],
    [⟨0, 32, .ro, 0, none⟩]⟩,
  ⟨0x3002C, [],
    [⟨0, 32, .ro, 0, none⟩]⟩,
  ⟨0x30030, [],
    [⟨0, 32, .rc, 0, none⟩]⟩,
  ⟨0x30100, [(0x40, 2)],
    [⟨31, 1, .rw, 0, none⟩]⟩,
  ⟨0x30104, [(0x40, 2)],
    [⟨30, 2, .ro, 0, none⟩, ⟨27, 3, .ro, 0, none⟩, ⟨26, 1, .ro, 0, none⟩, ⟨25, 1, .ro, 0, none⟩, ⟨24, 1, .ro, 0, none⟩, ⟨23, 1, .ro, 0, none⟩]⟩,
  ⟨0x30108, [(0x40, 2)],
    [⟨0, 32, .rc, 0, none⟩]⟩,
  ⟨0x3010C, [(0x40, 2)],
    [⟨0, 32, .rc, 0, none⟩]⟩,
  ⟨0x30110, [(0x40, 2)],
    [⟨0, 32, .rc, 0, none⟩]⟩,
  ⟨0x30114, [(0x40, 2)],
    [⟨0, 32, .rc, 0, none⟩]⟩,
  ⟨0x30118, [(0x40, 2)],
    [⟨0, 32, .rc, 0, none⟩]⟩,
  ⟨0x3011C, [(0x40, 2)],
    [⟨0, 32, .ro, 0, none⟩]⟩]

/-- Descriptors of the HST block, part 1 (R354). -/
def hstRegs1 : List RegDesc := [
  ⟨0x30120, [(0x40, 2)],
    [⟨0, 16, .ro, 0, none⟩]⟩]

/-- Descriptors of the HST block. -/
def hstRegs : List RegDesc := hstRegs0 ++ hstRegs1

/-- Descriptors of the QPT block (R355). -/
def qptRegs : List RegDesc := [
  ⟨0x40000, [],
    [⟨28, 4, .rw, 0, none⟩, ⟨16, 12, .rw, 0, none⟩, ⟨0, 16, .rw, 0, none⟩]⟩,
  ⟨0x40004, [],
    [⟨31, 1, .rw, 0, none⟩, ⟨0, 16, .rw, 0, none⟩]⟩,
  ⟨0x41000, [(0x40, 16)],
    [⟨31, 1, .ro, 0, none⟩, ⟨30, 1, .ro, 0, none⟩, ⟨29, 1, .ro, 0, none⟩, ⟨28, 1, .ro, 0, none⟩, ⟨27, 1, .ro, 0, none⟩, ⟨23, 4, .ro, 0, none⟩, ⟨20, 3, .ro, 0, none⟩, ⟨19, 1, .ro, 0, none⟩]⟩,
  ⟨0x41004, [(0x40, 16)],
    [⟨0, 24, .ro, 0, none⟩]⟩,
  ⟨0x41008, [(0x40, 16)],
    [⟨0, 24, .ro, 0, none⟩]⟩,
  ⟨0x4100C, [(0x40, 16)],
    [⟨0, 24, .ro, 0, none⟩]⟩,
  ⟨0x41010, [(0x40, 16)],
    [⟨0, 24, .ro, 0, none⟩]⟩,
  ⟨0x41014, [(0x40, 16)],
    [⟨0, 24, .rw, 0, none⟩]⟩,
  ⟨0x41018, [(0x40, 16)],
    [⟨31, 1, .wo, 0, none⟩]⟩,
  ⟨0x4101C, [(0x40, 16)],
    [⟨30, 2, .ro, 0, none⟩, ⟨27, 3, .ro, 0, none⟩, ⟨24, 3, .ro, 0, none⟩, ⟨23, 1, .ro, 0, none⟩, ⟨0, 4, .ro, 0, none⟩]⟩,
  ⟨0x41020, [(0x40, 16)],
    [⟨16, 16, .rc, 0, none⟩, ⟨0, 16, .rc, 0, none⟩]⟩,
  ⟨0x41024, [(0x40, 16)],
    [⟨0, 32, .rc, 0, none⟩]⟩,
  ⟨0x41028, [(0x40, 16)],
    [⟨16, 16, .ro, 0, none⟩, ⟨0, 16, .ro, 0, none⟩]⟩]

/-- Descriptors of the CMD block (R356). -/
def cmdRegs : List RegDesc := [
  ⟨0x50000, [],
    [⟨31, 1, .rw, 0, none⟩]⟩,
  ⟨0x50004, [],
    [⟨31, 1, .ro, 1, none⟩, ⟨30, 1, .ro, 0, none⟩, ⟨28, 2, .ro, 0, none⟩]⟩,
  ⟨0x50008, [],
    [⟨0, 32, .ro, 0, none⟩]⟩,
  ⟨0x5000C, [],
    [⟨0, 32, .ro, 0, none⟩]⟩,
  ⟨0x50010, [],
    [⟨0, 13, .ro, 0, none⟩]⟩,
  ⟨0x50014, [],
    [⟨24, 8, .ro, 0, none⟩, ⟨16, 8, .ro, 0, none⟩, ⟨0, 16, .ro, 0, none⟩]⟩,
  ⟨0x50018, [],
    [⟨0, 32, .rc, 0, none⟩]⟩,
  ⟨0x5001C, [],
    [⟨0, 32, .rc, 0, none⟩]⟩,
  ⟨0x50020, [],
    [⟨0, 32, .rc, 0, none⟩]⟩]

/-- Descriptors of the EVQ block (R357). -/
def evqRegs : List RegDesc := [
  ⟨0x60000, [],
    [⟨0, 16, .rw, 0, none⟩]⟩,
  ⟨0x60004, [],
    [⟨31, 1, .ro, 0, none⟩, ⟨30, 1, .ro, 0, none⟩, ⟨0, 16, .ro, 0, none⟩]⟩,
  ⟨0x60008, [],
    [⟨0, 32, .ro, 0, none⟩]⟩,
  ⟨0x6000C, [],
    [⟨0, 32, .ro, 0, none⟩]⟩,
  ⟨0x60010, [],
    [⟨0, 32, .ro, 0, none⟩]⟩,
  ⟨0x60014, [],
    [⟨0, 32, .ro, 0, none⟩]⟩,
  ⟨0x60018, [],
    [⟨0, 17, .ro, 0, none⟩]⟩,
  ⟨0x6001C, [],
    [⟨0, 32, .rc, 0, none⟩]⟩]

/-- Descriptors of the DMA block (R324). -/
def dmaRegs : List RegDesc := [
  ⟨0x70000, [],
    [⟨0, 32, .ro, 0, none⟩]⟩,
  ⟨0x70004, [],
    [⟨0, 32, .ro, 0, none⟩]⟩,
  ⟨0x70010, [(0x4, 8)],
    [⟨31, 1, .rw, 0, none⟩, ⟨0, 31, .rw, 0, none⟩]⟩,
  ⟨0x71000, [(0x40, 32)],
    [⟨31, 1, .wo, 0, none⟩, ⟨30, 1, .wo, 0, none⟩, ⟨4, 1, .rw, 0, none⟩, ⟨3, 1, .rw, 0, none⟩, ⟨0, 3, .rw, 0, none⟩]⟩,
  ⟨0x71004, [(0x40, 32)],
    [⟨30, 2, .rw, 0, none⟩, ⟨28, 2, .rw, 0, none⟩, ⟨25, 3, .rw, 0, none⟩, ⟨20, 5, .rw, 0, none⟩, ⟨19, 1, .rw, 0, none⟩, ⟨18, 1, .rw, 0, none⟩, ⟨16, 2, .rw, 0, none⟩, ⟨0, 16, .rw, 0, none⟩]⟩,
  ⟨0x71008, [(0x40, 32)],
    [⟨29, 3, .ro, 0, none⟩, ⟨28, 1, .ro, 0, none⟩, ⟨27, 1, .ro, 0, none⟩, ⟨23, 4, .ro, 0, none⟩, ⟨16, 3, .ro, 0, none⟩, ⟨0, 16, .ro, 0, none⟩]⟩,
  ⟨0x7100C, [(0x40, 32)],
    [⟨0, 32, .rw, 0, none⟩]⟩,
  ⟨0x71010, [(0x40, 32)],
    [⟨0, 32, .rw, 0, none⟩]⟩,
  ⟨0x71014, [(0x40, 32)],
    [⟨0, 32, .rw, 0, none⟩]⟩,
  ⟨0x71018, [(0x40, 32)],
    [⟨0, 32, .rw, 0, none⟩]⟩,
  ⟨0x7101C, [(0x40, 32)],
    [⟨0, 32, .rw, 0, none⟩]⟩,
  ⟨0x71020, [(0x40, 32)],
    [⟨0, 32, .rw, 0, none⟩]⟩,
  ⟨0x71024, [(0x40, 32)],
    [⟨0, 32, .rw, 0, none⟩]⟩,
  ⟨0x71028, [(0x40, 32)],
    [⟨0, 32, .ro, 0, none⟩]⟩,
  ⟨0x7102C, [(0x40, 32)],
    [⟨0, 8, .ro, 0, none⟩]⟩,
  ⟨0x71030, [(0x40, 32)],
    [⟨0, 32, .ro, 0, none⟩]⟩,
  ⟨0x71034, [(0x40, 32)],
    [⟨0, 32, .ro, 0, none⟩]⟩,
  ⟨0x71038, [(0x40, 32)],
    [⟨0, 32, .rc, 0, none⟩]⟩,
  ⟨0x7103C, [(0x40, 32)],
    [⟨0, 32, .rc, 0, none⟩]⟩]

/-- Descriptors of the LFF block (R323). -/
def lffRegs : List RegDesc := [
  ⟨0x80000, [],
    [⟨0, 1, .rw, 0, none⟩]⟩,
  ⟨0x80004, [],
    [⟨31, 1, .ro, 0, none⟩, ⟨30, 1, .ro, 0, none⟩, ⟨29, 1, .ro, 1, none⟩, ⟨28, 1, .ro, 0, none⟩, ⟨0, 8, .ro, 0, none⟩]⟩,
  ⟨0x80008, [],
    [⟨16, 10, .rw, 0, none⟩, ⟨0, 10, .rw, 0, none⟩]⟩,
  ⟨0x80010, [],
    [⟨0, 22, .ro, 0, none⟩]⟩,
  ⟨0x80014, [],
    [⟨0, 22, .rc, 0, none⟩]⟩,
  ⟨0x80020, [],
    [⟨0, 23, .ro, 0, none⟩]⟩,
  ⟨0x80024, [],
    [⟨0, 23, .ro, 0, none⟩]⟩,
  ⟨0x80028, [],
    [⟨0, 23, .ro, 0, none⟩]⟩,
  ⟨0x8002C, [],
    [⟨0, 23, .ro, 0, none⟩]⟩,
  ⟨0x80030, [],
    [⟨0, 32, .rc, 0, none⟩]⟩,
  ⟨0x80034, [],
    [⟨0, 32, .rc, 0, none⟩]⟩,
  ⟨0x80038, [],
    [⟨0, 32, .rc, 0, none⟩]⟩,
  ⟨0x8003C, [],
    [⟨0, 32, .rc, 0, none⟩]⟩,
  ⟨0x80040, [],
    [⟨0, 32, .ro, 0, none⟩]⟩,
  ⟨0x80044, [],
    [⟨0, 16, .ro, 0, none⟩]⟩,
  ⟨0x80048, [],
    [⟨0, 32, .ro, 0, none⟩]⟩,
  ⟨0x8004C, [],
    [⟨0, 16, .ro, 0, none⟩]⟩,
  ⟨0x80050, [],
    [⟨16, 13, .ro, 0, none⟩, ⟨0, 13, .ro, 0, none⟩]⟩,
  ⟨0x80060, [(0x4, 4)],
    [⟨0, 32, .ro, 0, none⟩]⟩,
  ⟨0x80070, [],
    [⟨31, 1, .ro, 0, none⟩, ⟨30, 1, .ro, 0, none⟩, ⟨29, 1, .ro, 0, none⟩, ⟨0, 24, .ro, 0, none⟩]⟩]

/-- Descriptors of the VFE block (R64). -/
def vfeRegs : List RegDesc := [
  ⟨0x90000, [],
    [⟨4, 1, .wo, 0, none⟩, ⟨2, 2, .rw, 0, none⟩]⟩,
  ⟨0x90004, [],
    [⟨9, 9, .ro, 0, none⟩, ⟨1, 1, .w1c, 0, none⟩, ⟨0, 1, .ro, 0, none⟩]⟩,
  ⟨0x90008, [],
    [⟨0, 32, .ro, 0, none⟩]⟩,
  ⟨0x9000C, [],
    [⟨0, 32, .ro, 0, none⟩]⟩,
  ⟨0x90010, [],
    [⟨0, 32, .ro, 0, none⟩]⟩,
  ⟨0x90014, [],
    [⟨0, 32, .ro, 0, none⟩]⟩,
  ⟨0x90020, [(0x4, 8)],
    [⟨0, 32, .ro, 0, none⟩]⟩,
  ⟨0x90040, [],
    [⟨0, 4, .rw, 0, none⟩]⟩,
  ⟨0x90100, [(0x10, 4)],
    [⟨0, 14, .rw, 0, none⟩]⟩,
  ⟨0x90104, [(0x10, 4)],
    [⟨31, 1, .wo, 0, none⟩, ⟨30, 1, .rw, 0, none⟩, ⟨24, 5, .rw, 0, none⟩, ⟨16, 8, .rw, 0, none⟩, ⟨0, 16, .rw, 0, none⟩]⟩,
  ⟨0x90108, [(0x10, 4)],
    [⟨0, 16, .ro, 0, none⟩]⟩,
  ⟨0x9010C, [(0x10, 4)],
    [⟨31, 1, .ro, 0, none⟩, ⟨30, 1, .w1c, 0, none⟩, ⟨29, 1, .w1c, 0, none⟩, ⟨25, 4, .ro, 0, none⟩, ⟨23, 2, .ro, 0, none⟩]⟩,
  ⟨0x91000, [(0x100, 64)],
    [⟨24, 8, .rws, 0, some .jb⟩, ⟨0, 17, .rws, 0, some .jb⟩]⟩,
  ⟨0x91004, [(0x100, 64)],
    [⟨24, 8, .rws, 0, some .jb⟩, ⟨12, 12, .rws, 0, some .jb⟩, ⟨0, 8, .rws, 0, some .jb⟩]⟩,
  ⟨0x91008, [(0x100, 64)],
    [⟨12, 20, .ro, 0, none⟩, ⟨5, 1, .ro, 0, none⟩, ⟨4, 1, .ro, 0, none⟩, ⟨0, 3, .ro, 0, none⟩]⟩,
  ⟨0x9100C, [(0x100, 64)],
    [⟨16, 16, .rw, 0, none⟩, ⟨0, 16, .rw, 0, none⟩]⟩,
  ⟨0x91020, [(0x100, 64), (0x10, 4)],
    [⟨29, 3, .rws, 0, some .lb⟩, ⟨21, 8, .rws, 0, some .lb⟩, ⟨17, 4, .rws, 0, some .jb⟩, ⟨14, 3, .rws, 0, some .jb⟩, ⟨8, 6, .rws, 0, some .jb⟩]⟩,
  ⟨0x91024, [(0x100, 64), (0x10, 4)],
    [⟨30, 2, .ro, 0, none⟩, ⟨20, 10, .ro, 0, none⟩, ⟨13, 7, .ro, 0, none⟩]⟩,
  ⟨0x91028, [(0x100, 64), (0x10, 4)],
    [⟨16, 16, .ro, 0, none⟩, ⟨0, 16, .rc, 0, none⟩]⟩]

/-- Descriptors of the ADC block (R91). -/
def adcRegs : List RegDesc := [
  ⟨0xB0000, [],
    [⟨31, 1, .rw, 0, none⟩, ⟨8, 8, .rw, 0, none⟩, ⟨0, 8, .rw, 0, none⟩]⟩,
  ⟨0xB0004, [],
    [⟨31, 1, .ro, 0, none⟩, ⟨10, 7, .ro, 0, none⟩, ⟨0, 10, .ro, 0, none⟩]⟩,
  ⟨0xB0008, [],
    [⟨0, 16, .rw, 0, none⟩]⟩,
  ⟨0xB0020, [(0x4, 19)],
    [⟨0, 32, .ro, 0, none⟩]⟩,
  ⟨0xB1000, [(0x100, 65)],
    [⟨31, 1, .wo, 0, none⟩, ⟨8, 1, .rw, 0, none⟩, ⟨0, 4, .rw, 0, none⟩]⟩,
  ⟨0xB1004, [(0x100, 65)],
    [⟨30, 2, .ro, 0, none⟩, ⟨20, 4, .ro, 8, none⟩, ⟨16, 4, .ro, 15, none⟩, ⟨0, 16, .rc, 0, none⟩]⟩,
  ⟨0xB1010, [(0x100, 64), (0x10, 4)],
    [⟨16, 16, .ro, 0, none⟩, ⟨0, 16, .ro, 64036, none⟩]⟩,
  ⟨0xB1014, [(0x100, 64), (0x10, 4)],
    [⟨16, 16, .ro, 0, none⟩]⟩,
  ⟨0xB5010, [],
    [⟨16, 16, .ro, 0, none⟩, ⟨0, 16, .ro, 64036, none⟩]⟩,
  ⟨0xB5014, [],
    [⟨16, 16, .ro, 0, none⟩]⟩,
  ⟨0xB8000, [(0x20, 579)],
    [⟨0, 16, .ro, 0, none⟩]⟩,
  ⟨0xB8004, [(0x20, 579)],
    [⟨0, 16, .ro, 0, none⟩]⟩,
  ⟨0xB8008, [(0x20, 579)],
    [⟨0, 10, .ro, 0, none⟩]⟩,
  ⟨0xB800C, [(0x20, 579)],
    [⟨30, 2, .ro, 0, none⟩, ⟨28, 2, .ro, 0, none⟩, ⟨26, 2, .ro, 0, none⟩, ⟨16, 4, .ro, 0, none⟩, ⟨0, 8, .ro, 0, none⟩]⟩,
  ⟨0xB8010, [(0x20, 579)],
    [⟨16, 16, .rc, 0, none⟩, ⟨0, 16, .rc, 0, none⟩]⟩,
  ⟨0xB8014, [(0x20, 579)],
    [⟨16, 16, .ro, 0, none⟩, ⟨0, 16, .ro, 0, none⟩]⟩,
  ⟨0xB8018, [(0x20, 579)],
    [⟨0, 16, .ro, 0, none⟩]⟩]

/-- Descriptors of the PXE block (R144). -/
def pxeRegs : List RegDesc := [
  ⟨0xD0000, [],
    [⟨8, 4, .rws, 0, some .jb⟩, ⟨5, 1, .rws, 0, some .jb⟩, ⟨4, 1, .rws, 0, some .jb⟩, ⟨3, 1, .rws, 0, some .jb⟩, ⟨2, 1, .rws, 0, some .jb⟩, ⟨1, 1, .rws, 0, some .jb⟩, ⟨0, 1, .rws, 0, some .jb⟩]⟩,
  ⟨0xD0004, [],
    [⟨1, 1, .rws, 0, some .jb⟩, ⟨0, 1, .rws, 0, some .jb⟩]⟩,
  ⟨0xD0008, [],
    [⟨0, 1, .rws, 0, some .lb⟩]⟩,
  ⟨0xD0010, [],
    [⟨0, 19, .rws, 0, some .lb⟩]⟩,
  ⟨0xD0014, [],
    [⟨0, 19, .rws, 0, some .lb⟩]⟩,
  ⟨0xD0020, [],
    [⟨24, 8, .ro, 204, none⟩, ⟨8, 6, .ro, 0, none⟩, ⟨0, 6, .ro, 48, none⟩]⟩,
  ⟨0xD0024, [],
    [⟨0, 32, .ro, 0, none⟩]⟩,
  ⟨0xD0028, [],
    [⟨0, 16, .ro, 0, none⟩]⟩,
  ⟨0xD0030, [],
    [⟨0, 32, .rc, 0, none⟩]⟩,
  ⟨0xD0034, [],
    [⟨0, 32, .rc, 0, none⟩]⟩,
  ⟨0xD0038, [],
    [⟨0, 16, .rc, 0, none⟩]⟩,
  ⟨0xD0040, [(0x4, 16)],
    [⟨16, 16, .ro, 0, none⟩, ⟨0, 11, .ro, 0, none⟩]⟩,
  ⟨0xD0400, [(0x4, 63)],
    [⟨0, 10, .rws, 0, some .jb⟩]⟩,
  ⟨0xD0500, [(0x4, 64)],
    [⟨16, 16, .ro, 0, none⟩, ⟨15, 1, .ro, 0, none⟩, ⟨0, 11, .ro, 0, none⟩]⟩,
  ⟨0xD1000, [(0x10, 48)],
    [⟨31, 1, .wo, 0, none⟩, ⟨0, 1, .rw, 0, none⟩]⟩,
  ⟨0xD1004, [(0x10, 48)],
    [⟨30, 2, .ro, 0, none⟩, ⟨29, 1, .ro, 0, none⟩, ⟨28, 1, .ro, 0, none⟩]⟩,
  ⟨0xD1008, [(0x10, 48)],
    [⟨0, 32, .rc, 0, none⟩]⟩,
  ⟨0xD2000, [(0x40, 64), (0x10, 4), (0x4, 4)],
    [⟨0, 23, .ro, 0, none⟩]⟩]

/-- Descriptors of the SHD block, part 0 (R167). -/
def shdRegs0 : List RegDesc := [
  ⟨0xE0000, [],
    [⟨31, 1, .ro, 0, none⟩, ⟨30, 1, .wo, 0, none⟩, ⟨0, 1, .rw, 0, none⟩]⟩,
  ⟨0xE0004, [],
    [⟨31, 1, .ro, 0, none⟩, ⟨28, 3, .ro, 0, none⟩, ⟨26, 2, .ro, 0, none⟩]⟩,
  ⟨0xE0008, [],
    [⟨0, 1, .rws, 0, some .lb⟩]⟩,
  ⟨0xE000C, [],
    [⟨3, 1, .ro, 0, none⟩, ⟨7, 1, .ro, 0, none⟩, ⟨2, 1, .ro, 0, none⟩, ⟨6, 1, .ro, 0, none⟩, ⟨1, 1, .ro, 0, none⟩, ⟨5, 1, .ro, 0, none⟩, ⟨0, 1, .ro, 0, none⟩, ⟨4, 1, .ro, 0, none⟩]⟩,
  ⟨0xE0010, [(0x4, 2)],
    [⟨31, 1, .wo, 0, none⟩, ⟨30, 1, .wo, 0, none⟩]⟩,
  ⟨0xE0020, [],
    [⟨16, 16, .rw, 0, none⟩, ⟨0, 16, .rw, 0, none⟩]⟩,
  ⟨0xE0024, [],
    [⟨16, 16, .rw, 0, none⟩, ⟨0, 16, .rw, 0, none⟩]⟩,
  ⟨0xE0030, [],
    [⟨16, 16, .rw, 0, none⟩, ⟨0, 16, .rw, 0, none⟩]⟩,
  ⟨0xE0034, [],
    [⟨0, 16, .rw, 0, none⟩]⟩,
  ⟨0xE0038, [],
    [⟨16, 16, .rw, 0, none⟩, ⟨0, 16, .rw, 0, none⟩]⟩,
  ⟨0xE003C, [],
    [⟨16, 10, .rw, 0, none⟩, ⟨0, 10, .rw, 0, none⟩]⟩,
  ⟨0xE0040, [],
    [⟨24, 3, .rw, 0, none⟩, ⟨12, 12, .rw, 0, none⟩, ⟨0, 10, .rw, 0, none⟩]⟩,
  ⟨0xE0050, [],
    [⟨0, 32, .rw, 0, none⟩]⟩,
  ⟨0xE0054, [],
    [⟨0, 32, .rw, 0, none⟩]⟩,
  ⟨0xE0058, [],
    [⟨0, 16, .rw, 0, none⟩]⟩,
  ⟨0xE0060, [],
    [⟨0, 21, .ro, 0, none⟩]⟩,
  ⟨0xE0064, [],
    [⟨0, 21, .ro, 0, none⟩]⟩,
  ⟨0xE0068, [],
    [⟨0, 21, .ro, 0, none⟩]⟩,
  ⟨0xE006C, [],
    [⟨0, 24, .ro, 16777215, none⟩]⟩,
  ⟨0xE0070, [],
    [⟨28, 4, .rws, 0, some .jb⟩, ⟨26, 2, .rws, 0, some .jb⟩, ⟨24, 2, .rws, 0, some .jb⟩, ⟨0, 10, .rw, 0, none⟩]⟩]

/-- Descriptors of the SHD block, part 1 (R167). -/
def shdRegs1 : List RegDesc := [
  ⟨0xE1000, [(0x10, 64)],
    [⟨16, 13, .rws, 0, some .lb⟩, ⟨0, 13, .rws, 0, some .lb⟩]⟩,
  ⟨0xE1004, [(0x10, 64)],
    [⟨16, 16, .ro, 65535, none⟩, ⟨0, 16, .ro, 65535, none⟩]⟩,
  ⟨0xE1008, [(0x10, 64)],
    [⟨16, 16, .ro, 65535, none⟩, ⟨0, 16, .ro, 65535, none⟩]⟩,
  ⟨0xE100C, [(0x10, 64)],
    [⟨0, 32, .ro, 0, none⟩]⟩]

/-- Descriptors of the SHD block. -/
def shdRegs : List RegDesc := shdRegs0 ++ shdRegs1

/-- Descriptors of the LMP block, part 0 (R116). For LMP_ZONE_z_TEMP, LMP_ZONE_z_LAMPS_n, LMP_ZONE_z_STR_c_OUT and LMP_BUS_b_ERR
R116 gives no reset values: they are 0 (DESIGN CHOICE, log entry 93). -/
def lmpRegs0 : List RegDesc := [
  ⟨0xF0000, [],
    [⟨31, 1, .wo, 0, none⟩, ⟨0, 2, .rw, 0, none⟩]⟩,
  ⟨0xF0004, [],
    [⟨31, 1, .ro, 0, none⟩, ⟨0, 8, .ro, 0, none⟩]⟩,
  ⟨0xF0008, [],
    [⟨31, 1, .rw, 0, none⟩, ⟨30, 1, .wo, 0, none⟩, ⟨0, 4, .rw, 0, none⟩]⟩,
  ⟨0xF000C, [],
    [⟨16, 16, .rw, 0, none⟩, ⟨0, 16, .rw, 0, none⟩]⟩,
  ⟨0xF0010, [],
    [⟨16, 16, .rw, 0, none⟩, ⟨0, 16, .rw, 0, none⟩]⟩,
  ⟨0xF0014, [],
    [⟨0, 16, .rw, 0, none⟩]⟩,
  ⟨0xF0018, [],
    [⟨0, 8, .rw, 0, none⟩]⟩,
  ⟨0xF001C, [],
    [⟨0, 3, .rw, 0, none⟩, ⟨3, 3, .rw, 0, none⟩, ⟨6, 3, .rw, 0, none⟩, ⟨9, 3, .rw, 0, none⟩]⟩,
  ⟨0xF0040, [(0x8, 4)],
    [⟨0, 3, .rws, 0, some .jb⟩]⟩,
  ⟨0xF0044, [(0x8, 4)],
    [⟨18, 14, .rws, 0, some .jb⟩, ⟨0, 18, .rws, 0, some .jb⟩]⟩,
  ⟨0xF0080, [(0x10, 2)],
    [⟨30, 2, .ro, 0, none⟩]⟩,
  ⟨0xF0084, [(0x10, 2)],
    [⟨16, 16, .rc, 0, none⟩, ⟨0, 16, .rc, 0, none⟩]⟩,
  ⟨0xF1000, [(0x100, 64)],
    [⟨31, 1, .rw, 0, none⟩, ⟨0, 4, .rw, 0, none⟩]⟩,
  ⟨0xF1004, [(0x100, 64)],
    [⟨30, 2, .ro, 0, none⟩, ⟨29, 1, .ro, 0, none⟩, ⟨28, 1, .ro, 0, none⟩, ⟨24, 4, .ro, 0, none⟩, ⟨16, 8, .ro, 0, none⟩]⟩,
  ⟨0xF1008, [(0x100, 64)],
    [⟨0, 32, .ro, 0, none⟩]⟩,
  ⟨0xF100C, [(0x100, 64)],
    [⟨0, 32, .ro, 0, none⟩]⟩,
  ⟨0xF1010, [(0x100, 64)],
    [⟨0, 32, .ro, 1073758208, none⟩]⟩,
  ⟨0xF1014, [(0x100, 64)],
    [⟨0, 32, .ro, 1073758208, none⟩]⟩,
  ⟨0xF1018, [(0x100, 64)],
    [⟨31, 1, .wo, 0, none⟩, ⟨0, 4, .wo, 0, none⟩]⟩,
  ⟨0xF101C, [(0x100, 64)],
    [⟨16, 16, .ro, 0, none⟩, ⟨0, 16, .ro, 0, none⟩]⟩]

/-- Descriptors of the LMP block, part 1 (R116). -/
def lmpRegs1 : List RegDesc := [
  ⟨0xF1020, [(0x100, 64), (0x10, 4)],
    [⟨0, 16, .rws, 0, some .lb⟩]⟩,
  ⟨0xF1024, [(0x100, 64), (0x10, 4)],
    [⟨0, 16, .rw, 0, none⟩]⟩,
  ⟨0xF1028, [(0x100, 64), (0x10, 4)],
    [⟨16, 16, .ro, 16384, none⟩, ⟨8, 8, .rc, 0, none⟩, ⟨0, 8, .ro, 0, none⟩]⟩,
  ⟨0xF102C, [(0x100, 64), (0x10, 4)],
    [⟨16, 16, .ro, 0, none⟩, ⟨0, 16, .ro, 0, none⟩]⟩]

/-- Descriptors of the LMP block. -/
def lmpRegs : List RegDesc := lmpRegs0 ++ lmpRegs1

/-- Descriptors of the IND block (R411). -/
def indRegs : List RegDesc := [
  ⟨0x100000, [],
    [⟨31, 1, .rw, 1, none⟩, ⟨16, 12, .rw, 125, none⟩, ⟨8, 8, .rw, 20, none⟩, ⟨0, 8, .rw, 255, none⟩]⟩,
  ⟨0x100004, [],
    [⟨0, 5, .rw, 10, none⟩]⟩,
  ⟨0x100008, [],
    [⟨31, 1, .ro, 0, none⟩, ⟨28, 3, .ro, 0, none⟩, ⟨24, 4, .ro, 0, none⟩, ⟨0, 7, .ro, 0, none⟩]⟩,
  ⟨0x100010, [(0x4, 32)],
    [⟨0, 32, .rw, 0, none⟩]⟩,
  ⟨0x100100, [(0x20, 4)],
    [⟨31, 1, .rw, 0, none⟩, ⟨26, 2, .rw, 0, none⟩, ⟨25, 1, .rw, 0, none⟩, ⟨0, 8, .rw, 0, none⟩]⟩,
  ⟨0x100104, [(0x20, 4)],
    [⟨16, 16, .rw, 0, none⟩, ⟨0, 16, .rw, 0, none⟩]⟩,
  ⟨0x100108, [(0x20, 4)],
    [⟨16, 7, .rw, 0, none⟩, ⟨8, 1, .rw, 0, none⟩, ⟨0, 7, .rw, 0, none⟩]⟩,
  ⟨0x100110, [(0x20, 4), (0x4, 4)],
    [⟨0, 32, .rw, 0, none⟩]⟩]

/-- Descriptors of the NZL block, part 0 (R194). -/
def nzlRegs0 : List RegDesc := [
  ⟨0x110000, [],
    [⟨31, 1, .rws, 0, some .jb⟩, ⟨30, 1, .rws, 0, some .jb⟩, ⟨29, 1, .wo, 0, none⟩, ⟨8, 5, .ro, 0, none⟩, ⟨4, 4, .rws, 0, some .jb⟩, ⟨0, 4, .rws, 0, some .jb⟩]⟩,
  ⟨0x110004, [],
    [⟨31, 1, .ro, 0, none⟩, ⟨30, 1, .ro, 0, none⟩, ⟨0, 13, .ro, 0, none⟩]⟩,
  ⟨0x110010, [(0x4, 6)],
    [⟨0, 20, .ro, 0, none⟩]⟩,
  ⟨0x110030, [],
    [⟨0, 32, .rc, 0, none⟩]⟩,
  ⟨0x110040, [(0x10, 4)],
    [⟨30, 2, .rws, 0, some .jb⟩, ⟨28, 2, .rws, 0, some .jb⟩, ⟨0, 16, .rws, 0, some .jb⟩]⟩,
  ⟨0x110044, [(0x10, 4)],
    [⟨0, 32, .rw, 0, none⟩]⟩,
  ⟨0x110048, [(0x10, 4)],
    [⟨0, 16, .rw, 0, none⟩]⟩,
  ⟨0x11004C, [(0x10, 4)],
    [⟨0, 32, .ro, 0, none⟩]⟩,
  ⟨0x110080, [],
    [⟨0, 20, .rws, 0, some .lb⟩]⟩,
  ⟨0x110084, [],
    [⟨0, 24, .rws, 0, some .lb⟩]⟩,
  ⟨0x110088, [],
    [⟨0, 16, .rws, 0, some .lb⟩]⟩,
  ⟨0x110090, [],
    [⟨0, 32, .ro, 0, none⟩]⟩,
  ⟨0x110094, [],
    [⟨0, 32, .ro, 0, none⟩]⟩,
  ⟨0x110098, [],
    [⟨0, 32, .ro, 0, none⟩]⟩,
  ⟨0x1100A0, [],
    [⟨31, 1, .rws, 0, some .jb⟩, ⟨30, 1, .rws, 0, some .jb⟩, ⟨29, 1, .rws, 0, some .jb⟩, ⟨28, 1, .rw, 0, none⟩, ⟨26, 2, .rws, 0, some .jb⟩, ⟨24, 2, .rws, 0, some .jb⟩, ⟨21, 3, .rws, 0, some .jb⟩, ⟨0, 10, .rws, 0, some .jb⟩]⟩,
  ⟨0x1100A4, [],
    [⟨0, 16, .rws, 0, some .jb⟩]⟩,
  ⟨0x1100A8, [],
    [⟨0, 16, .ro, 0, none⟩]⟩,
  ⟨0x110100, [(0x10, 4)],
    [⟨16, 16, .rws, 0, some .jb⟩, ⟨0, 16, .rws, 0, some .jb⟩]⟩,
  ⟨0x110104, [(0x10, 4)],
    [⟨16, 16, .rws, 0, some .jb⟩, ⟨0, 16, .rws, 0, some .jb⟩]⟩,
  ⟨0x110108, [(0x10, 4)],
    [⟨24, 8, .rws, 0, some .jb⟩, ⟨16, 8, .rws, 0, some .jb⟩, ⟨0, 16, .rws, 0, some .jb⟩]⟩]

/-- Descriptors of the NZL block, part 1 (R194). -/
def nzlRegs1 : List RegDesc := [
  ⟨0x11010C, [(0x10, 4)],
    [⟨16, 16, .rws, 0, some .jb⟩, ⟨8, 5, .rws, 0, some .jb⟩, ⟨4, 4, .rws, 0, some .jb⟩, ⟨0, 4, .rws, 0, some .jb⟩]⟩,
  ⟨0x111000, [(0x10, 24)],
    [⟨31, 1, .wo, 0, none⟩, ⟨0, 1, .rw, 0, none⟩]⟩,
  ⟨0x111004, [(0x10, 24)],
    [⟨30, 2, .ro, 0, none⟩, ⟨29, 1, .ro, 0, none⟩, ⟨28, 1, .ro, 0, none⟩]⟩,
  ⟨0x111008, [(0x10, 24)],
    [⟨0, 32, .rc, 0, none⟩]⟩]

/-- Descriptors of the NZL block. -/
def nzlRegs : List RegDesc := nzlRegs0 ++ nzlRegs1

/-- Descriptors of the TRK block (R218). -/
def trkRegs : List RegDesc := [
  ⟨0x120000, [],
    [⟨31, 1, .rws, 0, some .jb⟩, ⟨30, 1, .wo, 0, none⟩, ⟨0, 4, .rws, 0, some .jb⟩]⟩,
  ⟨0x120004, [],
    [⟨16, 9, .ro, 0, none⟩, ⟨0, 10, .ro, 0, none⟩]⟩,
  ⟨0x120008, [],
    [⟨0, 20, .rws, 0, some .lb⟩]⟩,
  ⟨0x120010, [],
    [⟨0, 20, .ro, 0, none⟩]⟩,
  ⟨0x120014, [],
    [⟨0, 24, .ro, 0, none⟩]⟩,
  ⟨0x120018, [],
    [⟨0, 16, .ro, 0, none⟩]⟩,
  ⟨0x120020, [],
    [⟨0, 32, .rc, 0, none⟩]⟩,
  ⟨0x120024, [],
    [⟨0, 32, .rc, 0, none⟩]⟩,
  ⟨0x120028, [],
    [⟨0, 32, .rc, 0, none⟩]⟩,
  ⟨0x12002C, [],
    [⟨0, 16, .rc, 0, none⟩]⟩,
  ⟨0x121000, [(0x10, 16)],
    [⟨31, 1, .wo, 0, none⟩, ⟨0, 1, .rw, 0, none⟩]⟩,
  ⟨0x121004, [(0x10, 16)],
    [⟨30, 2, .ro, 0, none⟩, ⟨29, 1, .ro, 0, none⟩, ⟨28, 1, .ro, 0, none⟩]⟩,
  ⟨0x121008, [(0x10, 16)],
    [⟨0, 32, .rc, 0, none⟩]⟩]

/-- Descriptors of the FED block (R219). -/
def fedRegs : List RegDesc := [
  ⟨0x130000, [],
    [⟨31, 1, .rws, 0, some .jb⟩, ⟨30, 1, .rws, 0, some .pb⟩, ⟨29, 1, .rw, 0, none⟩, ⟨28, 1, .rws, 0, some .pb⟩, ⟨27, 1, .rws, 0, some .jb⟩, ⟨26, 1, .rw, 0, none⟩]⟩,
  ⟨0x130004, [],
    [⟨31, 1, .ro, 0, none⟩, ⟨30, 1, .ro, 0, none⟩, ⟨16, 7, .ro, 0, none⟩, ⟨0, 16, .rc, 0, none⟩]⟩,
  ⟨0x130008, [],
    [⟨24, 5, .rws, 0, some .pb⟩, ⟨16, 4, .rws, 0, some .pb⟩, ⟨8, 4, .rws, 0, some .pb⟩, ⟨0, 4, .rws, 0, some .pb⟩]⟩,
  ⟨0x13000C, [],
    [⟨0, 20, .rws, 0, some .pb⟩]⟩,
  ⟨0x130010, [],
    [⟨0, 20, .rw, 0, none⟩]⟩,
  ⟨0x130014, [],
    [⟨16, 16, .rw, 0, none⟩, ⟨0, 16, .rw, 0, none⟩]⟩,
  ⟨0x130018, [],
    [⟨30, 2, .rws, 0, some .jb⟩, ⟨29, 1, .rws, 0, some .jb⟩, ⟨16, 5, .rws, 0, some .jb⟩]⟩,
  ⟨0x13001C, [],
    [⟨0, 32, .rw, 0, none⟩]⟩,
  ⟨0x130020, [],
    [⟨0, 32, .ro, 0, none⟩]⟩,
  ⟨0x130024, [],
    [⟨0, 32, .ro, 0, none⟩]⟩,
  ⟨0x130028, [],
    [⟨0, 32, .ro, 0, none⟩]⟩,
  ⟨0x130030, [],
    [⟨0, 32, .ro, 0, none⟩]⟩,
  ⟨0x130034, [],
    [⟨0, 32, .ro, 0, none⟩]⟩,
  ⟨0x130038, [],
    [⟨16, 16, .ro, 0, none⟩, ⟨0, 16, .ro, 0, none⟩]⟩,
  ⟨0x13003C, [],
    [⟨0, 20, .rw, 0, none⟩]⟩,
  ⟨0x130040, [],
    [⟨28, 4, .rws, 0, some .jb⟩, ⟨0, 24, .rws, 0, some .jb⟩]⟩,
  ⟨0x130044, [],
    [⟨0, 32, .ro, 0, none⟩]⟩]

/-- Descriptors of the MOT block, part 0 (R254). -/
def motRegs0 : List RegDesc := [
  ⟨0x140000, [],
    [⟨31, 1, .wo, 0, none⟩, ⟨6, 2, .rws, 0, some .jb⟩, ⟨4, 2, .rws, 0, some .jb⟩, ⟨3, 1, .rws, 0, some .jb⟩, ⟨1, 1, .rws, 0, some .jb⟩]⟩,
  ⟨0x140004, [],
    [⟨28, 4, .ro, 0, none⟩, ⟨27, 1, .ro, 0, none⟩, ⟨26, 1, .ro, 0, none⟩, ⟨25, 1, .ro, 0, none⟩, ⟨0, 8, .ro, 0, none⟩]⟩,
  ⟨0x140008, [],
    [⟨0, 2, .rws, 0, some .jb⟩]⟩,
  ⟨0x14000C, [],
    [⟨0, 32, .rws, 0, some .jb⟩]⟩,
  ⟨0x140010, [],
    [⟨0, 32, .ro, 0, none⟩]⟩,
  ⟨0x140014, [],
    [⟨0, 32, .ro, 0, none⟩]⟩,
  ⟨0x140018, [],
    [⟨0, 32, .rws, 0, some .jb⟩]⟩,
  ⟨0x140020, [],
    [⟨0, 32, .ro, 0, none⟩]⟩,
  ⟨0x140024, [],
    [⟨0, 32, .ro, 0, none⟩]⟩,
  ⟨0x140028, [],
    [⟨0, 23, .ro, 0, none⟩]⟩,
  ⟨0x14002C, [],
    [⟨0, 32, .rc, 0, none⟩]⟩,
  ⟨0x140030, [],
    [⟨0, 32, .ro, 0, none⟩]⟩,
  ⟨0x140038, [],
    [⟨0, 16, .rws, 0, some .jb⟩]⟩,
  ⟨0x140040, [],
    [⟨31, 1, .rws, 0, some .jb⟩, ⟨26, 2, .rws, 0, some .jb⟩]⟩,
  ⟨0x140044, [],
    [⟨0, 24, .rws, 0, some .jb⟩]⟩,
  ⟨0x140048, [],
    [⟨0, 24, .rws, 0, some .jb⟩]⟩,
  ⟨0x14004C, [],
    [⟨0, 16, .rws, 0, some .jb⟩]⟩,
  ⟨0x140050, [],
    [⟨0, 20, .rw, 0, none⟩]⟩,
  ⟨0x140054, [],
    [⟨8, 24, .rws, 0, some .jb⟩, ⟨0, 8, .rws, 0, some .jb⟩]⟩,
  ⟨0x140058, [],
    [⟨0, 32, .ro, 0, none⟩]⟩]

/-- Descriptors of the MOT block, part 1 (R254). -/
def motRegs1 : List RegDesc := [
  ⟨0x14005C, [],
    [⟨16, 16, .rc, 0, none⟩, ⟨0, 16, .rc, 0, none⟩]⟩,
  ⟨0x140060, [(0x4, 8)],
    [⟨31, 1, .rws, 0, some .jb⟩, ⟨0, 19, .rws, 0, some .jb⟩]⟩,
  ⟨0x141000, [(0x100, 8)],
    [⟨31, 1, .wo, 0, none⟩, ⟨30, 1, .wo, 0, none⟩, ⟨29, 1, .wo, 0, none⟩, ⟨0, 1, .rw, 0, none⟩]⟩,
  ⟨0x141004, [(0x100, 8)],
    [⟨29, 3, .ro, 0, none⟩, ⟨28, 1, .ro, 0, none⟩, ⟨27, 1, .ro, 1, none⟩, ⟨26, 1, .ro, 0, none⟩, ⟨25, 1, .ro, 0, none⟩, ⟨24, 1, .ro, 0, none⟩, ⟨23, 1, .ro, 0, none⟩, ⟨22, 1, .ro, 0, none⟩]⟩,
  ⟨0x141008, [(0x100, 8)],
    [⟨0, 23, .rws, 0, some .mb⟩]⟩,
  ⟨0x14100C, [(0x100, 8)],
    [⟨0, 32, .rws, 0, some .mb⟩]⟩,
  ⟨0x141010, [(0x100, 8)],
    [⟨0, 32, .rws, 0, some .mb⟩]⟩,
  ⟨0x141014, [(0x100, 8)],
    [⟨0, 32, .rws, 0, some .mb⟩]⟩,
  ⟨0x141018, [(0x100, 8)],
    [⟨0, 17, .rws, 0, some .mb⟩]⟩,
  ⟨0x14101C, [(0x100, 8)],
    [⟨24, 8, .rws, 0, some .mb⟩, ⟨16, 8, .rws, 0, some .mb⟩, ⟨0, 16, .rws, 0, some .mb⟩]⟩,
  ⟨0x141020, [(0x100, 8)],
    [⟨16, 8, .rw, 0, none⟩, ⟨8, 8, .rw, 0, none⟩, ⟨0, 8, .rw, 0, none⟩]⟩,
  ⟨0x141024, [(0x100, 8)],
    [⟨0, 32, .rw, 0, none⟩]⟩,
  ⟨0x141028, [(0x100, 8)],
    [⟨0, 32, .ro, 0, none⟩]⟩,
  ⟨0x14102C, [(0x100, 8)],
    [⟨0, 32, .ro, 0, none⟩]⟩,
  ⟨0x141030, [(0x100, 8)],
    [⟨0, 32, .wo, 0, none⟩]⟩,
  ⟨0x141034, [(0x100, 8)],
    [⟨0, 32, .wo, 0, none⟩]⟩,
  ⟨0x141038, [(0x100, 8)],
    [⟨0, 32, .ro, 0, none⟩]⟩,
  ⟨0x14103C, [(0x100, 8)],
    [⟨0, 32, .ro, 0, none⟩]⟩,
  ⟨0x141040, [(0x100, 8)],
    [⟨0, 32, .ro, 0, none⟩]⟩,
  ⟨0x141044, [(0x100, 8)],
    [⟨0, 32, .ro, 0, none⟩]⟩]

/-- Descriptors of the MOT block, part 2 (R254). -/
def motRegs2 : List RegDesc := [
  ⟨0x141048, [(0x100, 2)],
    [⟨16, 10, .ro, 0, none⟩, ⟨0, 10, .ro, 0, none⟩]⟩,
  ⟨0x14104C, [(0x100, 8)],
    [⟨31, 1, .rw, 0, none⟩, ⟨0, 2, .rw, 0, none⟩]⟩,
  ⟨0x141050, [(0x100, 8)],
    [⟨0, 32, .rw, 0, none⟩]⟩,
  ⟨0x141054, [(0x100, 8)],
    [⟨0, 32, .rw, 0, none⟩]⟩,
  ⟨0x141058, [(0x100, 8)],
    [⟨0, 32, .ro, 0, none⟩]⟩]

/-- Descriptors of the MOT block. -/
def motRegs : List RegDesc := motRegs0 ++ motRegs1 ++ motRegs2

/-- Descriptors of the POS block, part 0 (R268). -/
def posRegs0 : List RegDesc := [
  ⟨0x150000, [],
    [⟨4, 4, .ro, 15, none⟩, ⟨0, 4, .ro, 15, none⟩]⟩,
  ⟨0x150004, [],
    [⟨0, 32, .ro, 0, none⟩]⟩,
  ⟨0x150100, [(0x40, 4)],
    [⟨31, 1, .rw, 0, none⟩, ⟨30, 1, .rw, 0, none⟩, ⟨29, 1, .rw, 0, none⟩, ⟨27, 2, .rw, 0, none⟩, ⟨25, 2, .rw, 0, none⟩, ⟨16, 6, .rw, 0, none⟩, ⟨0, 16, .rw, 0, none⟩]⟩,
  ⟨0x150104, [(0x40, 4)],
    [⟨31, 1, .rw, 0, none⟩, ⟨0, 16, .rw, 0, none⟩]⟩,
  ⟨0x150108, [(0x40, 4)],
    [⟨24, 8, .rw, 0, none⟩, ⟨16, 8, .rw, 0, none⟩]⟩,
  ⟨0x15010C, [(0x40, 4)],
    [⟨0, 32, .rw, 0, none⟩]⟩,
  ⟨0x150110, [(0x40, 4)],
    [⟨31, 1, .wo, 0, none⟩, ⟨30, 1, .wo, 0, none⟩]⟩,
  ⟨0x150114, [(0x40, 4)],
    [⟨31, 1, .ro, 1, none⟩, ⟨30, 1, .ro, 1, none⟩, ⟨29, 1, .ro, 0, none⟩, ⟨28, 1, .ro, 0, none⟩, ⟨27, 1, .ro, 0, none⟩, ⟨26, 1, .ro, 0, none⟩, ⟨25, 1, .ro, 0, none⟩, ⟨21, 4, .ro, 0, none⟩, ⟨0, 11, .ro, 0, none⟩]⟩,
  ⟨0x150118, [(0x40, 4), (0x4, 3)],
    [⟨0, 32, .ro, 0, none⟩]⟩,
  ⟨0x150124, [(0x40, 4)],
    [⟨16, 16, .rc, 0, none⟩, ⟨0, 16, .rc, 0, none⟩]⟩,
  ⟨0x150128, [(0x40, 4)],
    [⟨0, 32, .rc, 0, none⟩]⟩,
  ⟨0x150200, [(0x40, 4)],
    [⟨31, 1, .rw, 0, none⟩, ⟨30, 1, .rw, 0, none⟩, ⟨29, 1, .rw, 0, none⟩, ⟨28, 1, .rw, 0, none⟩, ⟨16, 8, .rw, 0, none⟩, ⟨0, 16, .rw, 0, none⟩]⟩,
  ⟨0x150204, [(0x40, 4)],
    [⟨0, 32, .rw, 0, none⟩]⟩,
  ⟨0x150208, [(0x40, 4)],
    [⟨0, 16, .rw, 0, none⟩]⟩,
  ⟨0x15020C, [(0x40, 4)],
    [⟨31, 1, .wo, 0, none⟩, ⟨30, 1, .wo, 0, none⟩]⟩,
  ⟨0x150210, [(0x40, 4)],
    [⟨31, 1, .ro, 1, none⟩, ⟨30, 1, .ro, 0, none⟩, ⟨29, 1, .ro, 0, none⟩, ⟨28, 1, .ro, 0, none⟩, ⟨27, 1, .ro, 0, none⟩, ⟨26, 1, .ro, 0, none⟩, ⟨0, 3, .ro, 0, none⟩]⟩,
  ⟨0x150214, [(0x40, 4)],
    [⟨0, 32, .ro, 0, none⟩]⟩,
  ⟨0x150218, [(0x40, 4), (0x4, 4)],
    [⟨0, 32, .ro, 0, none⟩]⟩,
  ⟨0x150228, [(0x40, 4)],
    [⟨0, 32, .ro, 0, none⟩]⟩,
  ⟨0x15022C, [(0x40, 4)],
    [⟨16, 16, .rc, 0, none⟩, ⟨0, 16, .rc, 0, none⟩]⟩]

/-- Descriptors of the POS block, part 1 (R268). -/
def posRegs1 : List RegDesc := [
  ⟨0x150230, [(0x40, 4)],
    [⟨0, 32, .ro, 0, none⟩]⟩]

/-- Descriptors of the POS block. -/
def posRegs : List RegDesc := posRegs0 ++ posRegs1

/-- Descriptors of the MON block, part 0 (R290). -/
def monRegs0 : List RegDesc := [
  ⟨0x160000, [],
    [⟨31, 1, .rw, 0, none⟩, ⟨30, 1, .wo, 0, none⟩, ⟨20, 4, .rw, 0, none⟩, ⟨8, 8, .rw, 0, none⟩, ⟨0, 8, .rw, 0, none⟩]⟩,
  ⟨0x160004, [],
    [⟨30, 2, .ro, 0, none⟩, ⟨29, 1, .ro, 0, none⟩, ⟨28, 1, .ro, 0, none⟩, ⟨27, 1, .ro, 0, none⟩, ⟨24, 3, .ro, 0, none⟩, ⟨16, 5, .ro, 0, none⟩, ⟨13, 3, .ro, 0, none⟩]⟩,
  ⟨0x160008, [],
    [⟨31, 1, .wo, 0, none⟩, ⟨30, 1, .rw, 0, none⟩, ⟨28, 2, .rw, 0, none⟩, ⟨26, 2, .rw, 0, none⟩, ⟨21, 5, .rw, 0, none⟩, ⟨0, 16, .rw, 0, none⟩]⟩,
  ⟨0x16000C, [],
    [⟨0, 32, .rc, 0, none⟩]⟩,
  ⟨0x160010, [],
    [⟨31, 1, .wo, 0, none⟩, ⟨30, 1, .rw, 0, none⟩, ⟨0, 4, .rw, 0, none⟩]⟩,
  ⟨0x160014, [],
    [⟨0, 32, .rw, 0, none⟩]⟩,
  ⟨0x160018, [],
    [⟨31, 1, .rw, 0, none⟩, ⟨30, 1, .rw, 0, none⟩, ⟨16, 8, .rw, 0, none⟩, ⟨0, 16, .rw, 0, none⟩]⟩,
  ⟨0x16001C, [],
    [⟨16, 16, .ro, 0, none⟩, ⟨0, 1, .ro, 0, none⟩]⟩,
  ⟨0x160040, [(0x4, 4)],
    [⟨0, 32, .rw, 0, none⟩]⟩,
  ⟨0x160100, [(0x8, 8)],
    [⟨0, 32, .ro, 0, none⟩]⟩,
  ⟨0x160104, [(0x8, 8)],
    [⟨0, 32, .ro, 0, none⟩]⟩,
  ⟨0x161000, [(0x40, 16)],
    [⟨31, 1, .rw, 0, none⟩, ⟨30, 1, .rw, 0, none⟩, ⟨28, 2, .rw, 0, none⟩, ⟨24, 3, .rw, 0, none⟩, ⟨20, 3, .rw, 0, none⟩, ⟨16, 4, .rw, 0, none⟩, ⟨8, 6, .rw, 0, none⟩]⟩,
  ⟨0x161004, [(0x40, 16)],
    [⟨16, 16, .ro, 0, none⟩, ⟨15, 1, .ro, 0, none⟩, ⟨14, 1, .ro, 0, none⟩, ⟨13, 1, .ro, 0, none⟩, ⟨12, 1, .ro, 0, none⟩, ⟨8, 4, .ro, 0, none⟩, ⟨0, 8, .ro, 0, none⟩]⟩,
  ⟨0x161008, [(0x40, 16)],
    [⟨0, 32, .ro, 0, none⟩]⟩,
  ⟨0x16100C, [(0x40, 16)],
    [⟨0, 32, .ro, 0, none⟩]⟩,
  ⟨0x161010, [(0x40, 16)],
    [⟨0, 32, .ro, 0, none⟩]⟩,
  ⟨0x161014, [(0x40, 16)],
    [⟨0, 32, .rw, 0, none⟩]⟩,
  ⟨0x161018, [(0x40, 16)],
    [⟨0, 32, .rw, 0, none⟩]⟩,
  ⟨0x16101C, [(0x40, 16)],
    [⟨16, 16, .rw, 0, none⟩, ⟨0, 16, .rw, 0, none⟩]⟩,
  ⟨0x161020, [(0x40, 16)],
    [⟨31, 1, .wo, 0, none⟩]⟩]

/-- Descriptors of the MON block, part 1 (R290). -/
def monRegs1 : List RegDesc := [
  ⟨0x161024, [(0x40, 16)],
    [⟨0, 32, .ro, 0, none⟩]⟩,
  ⟨0x161028, [(0x40, 16)],
    [⟨0, 32, .ro, 0, none⟩]⟩,
  ⟨0x16102C, [(0x40, 16)],
    [⟨0, 32, .ro, 0, none⟩]⟩,
  ⟨0x161030, [(0x40, 16)],
    [⟨0, 32, .ro, 0, none⟩]⟩,
  ⟨0x161034, [(0x40, 16)],
    [⟨16, 16, .rc, 0, none⟩, ⟨0, 16, .rc, 0, none⟩]⟩,
  ⟨0x161038, [(0x40, 16)],
    [⟨16, 16, .rw, 0, none⟩, ⟨0, 16, .rw, 0, none⟩]⟩]

/-- Descriptors of the MON block. -/
def monRegs : List RegDesc := monRegs0 ++ monRegs1

/-- Descriptors of the TWB block (R410). -/
def twbRegs : List RegDesc := [
  ⟨0x170000, [],
    [⟨0, 8, .rw, 25, none⟩]⟩,
  ⟨0x170004, [],
    [⟨30, 2, .ro, 0, none⟩, ⟨29, 1, .ro, 0, none⟩, ⟨0, 7, .ro, 0, none⟩]⟩,
  ⟨0x170008, [],
    [⟨0, 32, .rc, 0, none⟩]⟩,
  ⟨0x17000C, [],
    [⟨16, 16, .rc, 0, none⟩, ⟨0, 16, .rc, 0, none⟩]⟩]

/-- Descriptors of the DBG block (R412). -/
def dbgRegs : List RegDesc := [
  ⟨0x180000, [],
    [⟨31, 1, .ro, 0, none⟩, ⟨30, 1, .ro, 0, none⟩, ⟨29, 1, .ro, 0, none⟩, ⟨28, 1, .ro, 0, none⟩, ⟨8, 8, .ro, 2, none⟩]⟩,
  ⟨0x180004, [],
    [⟨0, 32, .ro, 0, none⟩]⟩,
  ⟨0x180008, [],
    [⟨0, 32, .rc, 0, none⟩]⟩]

/-- The register blocks: base, last address (R31), descriptors. -/
def regBlocks : List (Nat × Nat × List RegDesc) := [
  (0x0, 0xFFFF, sysRegs),
  (0x10000, 0x1FFFF, cfgRegs),
  (0x20000, 0x2FFFF, secRegs),
  (0x30000, 0x3FFFF, hstRegs),
  (0x40000, 0x4FFFF, qptRegs),
  (0x50000, 0x5FFFF, cmdRegs),
  (0x60000, 0x6FFFF, evqRegs),
  (0x70000, 0x7FFFF, dmaRegs),
  (0x80000, 0x8FFFF, lffRegs),
  (0x90000, 0xAFFFF, vfeRegs),
  (0xB0000, 0xCFFFF, adcRegs),
  (0xD0000, 0xDFFFF, pxeRegs),
  (0xE0000, 0xEFFFF, shdRegs),
  (0xF0000, 0xFFFFF, lmpRegs),
  (0x100000, 0x10FFFF, indRegs),
  (0x110000, 0x11FFFF, nzlRegs),
  (0x120000, 0x12FFFF, trkRegs),
  (0x130000, 0x13FFFF, fedRegs),
  (0x140000, 0x14FFFF, motRegs),
  (0x150000, 0x15FFFF, posRegs),
  (0x160000, 0x16FFFF, monRegs),
  (0x170000, 0x17FFFF, twbRegs),
  (0x180000, 0x18FFFF, dbgRegs)]

/-- Whether an offset from a family's base is a member's: one index per (stride, count). -/
def dimsMatch : Nat → List (Nat × Nat) → Bool
  | off, [] => off == 0
  | off, (st, n) :: r => if st = 0 then false else decide (off / st < n) && dimsMatch (off % st) r

/-- Whether `a` is the address of a member of a register family. -/
def RegDesc.has (d : RegDesc) (a : Nat) : Bool := decide (d.base ≤ a) && dimsMatch (a - d.base) d.dims

/-- The descriptor of the register at an address, if one stands there. -/
def findReg (a : Nat) : Option RegDesc :=
  match regBlocks.find? (fun b => decide (b.1 ≤ a) && decide (a ≤ b.2.1)) with
  | some b => b.2.2.find? (fun d => d.has a)
  | none => none

/-- The bits of a register word whose fields satisfy `p`. -/
def fieldMask (fs : List FldDesc) (p : FldDesc → Bool) : Nat :=
  fs.foldl (fun m f => if p f then m + (2 ^ f.w - 1) * 2 ^ f.lo else m) 0

/-- The reset word of a family: every field at its reset value. -/
def descReset (d : RegDesc) : Nat := d.flds.foldl (fun n f => n + f.rst * 2 ^ f.lo) 0

/-- The reset value of the register at an address (R7). Some depend on the index: the home role of a slice and the
rotation state of group 64 (R65, R74), the contexts in state 0 (R194), bits of the alive value for
the islands that are no segment's (R12: none is lost at reset; R40: no segment is enabled yet). SYS_ID.REV is the first revision and DBG_IDCODE that of R398. -/
def resetWord (a : Nat) : Word :=
  BitVec.ofNat 32 <|
    match findReg a with
    | none => 0
    | some d =>
      if d.base = Reg.adcSliceStat 0 then
        let n := (a - d.base) / 0x20
        let l := if n < 576 then n % 9 else n - 576
        let spare := if n < 576 then 8 else 2
        (if l = spare then 15 else l) * 2 ^ 16
      else if a = Reg.adcGrpStat 64 then 2 * 2 ^ 20 + 15 * 2 ^ 16
      else if a = Reg.nzlStateCnt 0 then 655360
      else if a = Reg.sysIslandAlive 2 then 2 ^ 12 - 1
      else if a = Reg.sysId then 0x34640110
      else descReset d

end Sys2Proof.Machine
end

