-- ==== Sys2Proof/Machine/State.lean ====
section
/-!
DEFINITION. The state of the block as plain data: the register file, memory, pending shadows, and per unit what the
spec gives it beside its registers; the queue of waiting commands; the state after reset.
-/

namespace Sys2Proof.Machine

/-- Opcode of a RoCEv2 packet the device sends (R332). -/
inductive Bth where
  | writeFirst | writeMiddle | writeLast | writeOnly | readRequest
  deriving DecidableEq, Repr

/-- The headers of a RoCEv2 frame (R328): addresses, VLAN tag (VID, PCP) if one is sent, IPv6 with its flow label or
IPv4 with DF, DSCP and ECN, TTL or hop limit, UDP ports and checksum. -/
structure NetHdr where
  dmac : Nat
  smac : Nat
  vlan : Option (Nat × Nat)
  ipv6 : Bool
  srcIp : Nat
  dstIp : Nat
  dscp : Nat
  ecn : Nat
  flow : Nat
  df : Bool
  ttl : Nat
  udpSrc : Nat
  udpDst : Nat
  udpSum : Nat
  deriving DecidableEq, Repr

/-- What leaves the device. -/
inductive Output where
  /-- A frame on segment control bus `bus` (R59): the bits up to the request's check, as fields. -/
  | scb (bus addr : Nat) (rd : Bool) (reg data check : Nat)
  /-- A frame on lamp bus `bus` (R108). -/
  | lamp (bus : Nat) (bytes : List Byte)
  /-- A RoCEv2 frame from a slot on a port (R328, R332): remote QPN, PSN, AckReq, the RETH (address, key, length) of a
  first or only packet, the payload, the ICRC. -/
  | rdma (port slot : Nat) (net : NetHdr) (op : Bth) (rqpn psn : Nat) (ackReq : Bool) (reth : Option (Nat × Nat × Nat))
      (payload : List Byte) (icrc : BitVec 32)
  /-- An ARP reply or gratuitous ARP (R328, R329): VLAN tag, destination MAC, sender MAC and address, target MAC and
  address. -/
  | arp (port : Nat) (vlan : Option (Nat × Nat)) (reply : Bool) (dmac smac sip tmac tip : Nat)
  /-- A neighbour advertisement (R328, R329): VLAN tag, destination MAC and address, sender MAC, target; solicited or not. -/
  | nadv (port : Nat) (vlan : Option (Nat × Nat)) (dmac dip smac target : Nat) (solicited : Bool)
  /-- Bytes the two-wire target has sent (R395). -/
  | twb (bytes : List Byte)
  /-- ACK (true) or NACK of the address byte and of each byte of a two-wire write phase (R393). -/
  | twbAcks (l : List Bool)
  /-- What a scan has shifted out of TDO: its width and the value captured before (R398, R401). -/
  | tdo (width val : Nat)
  /-- XSPI_RST_N is low for 10 µs (R360 step 1). -/
  | xspiReset
  /-- An instruction the loader sends to the flash (R360, R361). -/
  | xspi (instr : List Nat)
  /-- One burst of a read of the flash (R360, R361): instruction, dummy cycles, 4-byte address, at most 4,096 bytes. -/
  | xspiRead (instr : List Nat) (dummy addr len : Nat)
  /-- The answer to a register read on a path (R27). -/
  | value (p : Path) (addr : Nat) (w : Word)
  /-- A row slot of the indicator strip (R404): the row, ICOL in mA, and the on time in ns of each column lit. -/
  | row (r icol : Nat) (cols : List (Nat × Nat))
  deriving DecidableEq, Repr

/-- Output pins by supply and internal pull (R420). -/
inductive OutGroup where
  | io33 | drain | lvds | xspiDq | xspiCtl | indicator
  deriving DecidableEq, Repr

/-- What drives a group of output pins (R399, R416): the device, the cells of the boundary register, or nothing but the
internal pull, by its level. -/
inductive Drive where
  | device
  | cells (l : List Bool)
  | highZ (pull : Option Bool)
  deriving DecidableEq, Repr

/-- The line sequencer (R41, R42, R239, R241, R434). -/
structure SeqSt where
  /-- The line whose phases run, and how many of its phases have started. -/
  cur : Option Nat
  started : Nat
  /-- Phases of a line of the job, DARK included, and captured colour phases. -/
  phases : Nat
  /-- Phase period in units of 10 ns (R43, R94). -/
  period : Nat
  /-- Number the next trigger's line gets (R241). -/
  next : Nat
  /-- A held trigger: its line number, time and feed position (R241). -/
  held : Option (Nat × Nat × Int)
  /-- Captured lines wait until flush phases end or until a fallback's switch is over. -/
  waitFlush : Bool
  /-- Last lines are numbered; capture has been ended by JOB_STOP, SAFE or a couch. -/
  armed : Bool
  /-- Levels of EVI_0 to EVI_3. -/
  evi : Table Bool
  /-- Device time at which the phase period after the last closing start pulse ends (R241, R434). -/
  closing : Nat
  deriving DecidableEq, Repr

def SeqSt.init : SeqSt :=
  { cur := none, started := 0, phases := 0, period := 0, next := 0, held := none, waitFlush := false,
    armed := false, evi := [], closing := 0 }

/-- A fault the machine could stop with. -/
inductive Fault where
  /-- Raised by no meaning of this model: a stress beyond the ratings of R413, where the spec says the device may be
  damaged. Kept as the closed type that the interface asks for; safe, since nothing raises it. -/
  | beyondRatings
  deriving DecidableEq, Repr

/-- A refusal of the model. -/
inductive Refusal where
  /-- Raised by `exec` alone for a row of the table that has no meaning yet; safe (the run stops by name). -/
  | notModelled (mnemonic : String)
  deriving DecidableEq, Repr

/-- Event severities (R340). -/
inductive Sev where
  | info | warn | fault | safe
  deriving DecidableEq, Repr

/-- A staged event record (R340): everything but PHASE, FLAGS and SEQ, which it gets when it is written. `pay` is the
payload, bytes 22 to 31, as one number with byte 22 lowest. -/
structure Event where
  code : Nat
  sev : Sev
  src : Nat
  time : Nat
  line : Nat
  pay : Nat
  deriving DecidableEq, Repr

/-- A pending shadow (R8, R16): the RWS bits `mask` of the register at `addr` wait with value `val` for a boundary of
class `cls` (of axis `axis` for MB). -/
structure Shadow where
  cls : Cls
  axis : Nat
  addr : Nat
  mask : Nat
  val : Nat
  /-- SAFE has ended a job while it was pending: it stays so until the next JOB_START (R20). -/
  stuck : Bool
  deriving DecidableEq, Repr

/-- State of the SYS block that no register field holds. -/
structure SysSt where
  /-- Device time in ns (R29). -/
  now : Nat
  /-- Local copies of device time held by the other islands, as they were last corrected (R29). -/
  corrected : Nat
  /-- Time of the last accepted TSYNC edge (R30). -/
  tsyncLast : Option Nat
  /-- Lines for which the LB-class hold has been set (R17). -/
  lbHoldLines : Nat
  /-- A snapshot is requested (R25). -/
  snapPend : Bool
  /-- The snapshot store: the register words at the snapshot, sparse. -/
  snap : Table Word
  /-- VIEW of the two-wire and the debug path (R26); the ring's stands in SYS_SNAP_CTRL. -/
  viewTwb : Bool
  viewDbg : Bool
  /-- Latched parts of multi-word reads, keyed by path and address (R27). -/
  latch : Table Word
  /-- Held parts of multi-word writes, keyed by path and address (R28). -/
  held : Table (Option Word)
  /-- External equipment holds SAFE_N low (R35). -/
  extLow : Bool
  /-- The device drives SAFE_N low (R36, R39). -/
  safeNLow : Bool
  /-- The device drives FAULT_N low. -/
  faultNLow : Bool
  /-- The reference clock is out of range; the time it came back (R34). -/
  refOut : Bool
  refBack : Option Nat
  /-- Rails outside their windows; the time the last of them came back (R34, R416). -/
  railsOut : List Rail
  railsBack : Option Nat
  /-- Rails below the threshold of the outputs they supply (R416). -/
  railsLow : List Rail
  /-- The die is above 125 °C and not yet below 115 °C. -/
  hot : Bool
  /-- The SAFE_CLEAR in its 10 µs wait, which holds the ring (R39). -/
  safeClear : Option CmdEntry
  /-- The control island is lost: nothing answers (R12); how it was found, 1 heartbeat, 2 clock. -/
  ctlLost : Bool
  ctlKind : Nat
  deriving DecidableEq, Repr

def SysSt.init : SysSt :=
  { now := 0, corrected := 0, tsyncLast := none, lbHoldLines := 0, snapPend := false, snap := [], viewTwb := false,
    viewDbg := false, latch := [], held := [], extLow := false, safeNLow := false, faultNLow := true, refOut := false,
    refBack := none, railsOut := [], railsBack := none, railsLow := [], hot := false, safeClear := none, ctlLost := false, ctlKind := 0 }

/-- Event staging (R341, R342). -/
structure EvqSt where
  /-- Records raised and not yet sent, in the order raised. -/
  staged : List Event
  /-- Indices of the records whose WRITEs were sent and whose byte 0 is not acknowledged. -/
  flying : List Nat
  /-- Records lost since the last EVQ_LOST. -/
  lost : Nat
  deriving DecidableEq, Repr

def EvqSt.init : EvqSt := { staged := [], flying := [], lost := 0 }

/-- A frame on a segment control bus (R59). -/
structure ScbFrame where
  addr : Nat
  rd : Bool
  reg : Nat
  data : Nat
  /-- A host frame (R62); else the device's own. -/
  host : Bool
  deriving DecidableEq, Repr

/-- One segment control bus: the frame in progress, its repeats and BUSY retries, whether a BUSY wait runs, and the
device's frames that wait. -/
structure ScbBus where
  cur : Option ScbFrame
  repeats : Nat
  busies : Nat
  waiting : Bool
  queue : List ScbFrame
  deriving DecidableEq, Repr

def ScbBus.init : ScbBus := { cur := none, repeats := 0, busies := 0, waiting := false, queue := [] }

/-- What the charge in the segments, or a readout, stands for (R42, R434, R45). -/
inductive Charge where
  /-- Phase `k` of a job's line. -/
  | line (n k : Nat)
  /-- Phase `k` of line `n` of a shading calibration's capture. -/
  | cal (n k : Nat)
  /-- A flush phase (R45). -/
  | flush
  /-- Idle charge (R434). -/
  | idle
  deriving DecidableEq, Repr

/-- A readout begun by a start pulse (R42, R75): the charge it brings, and for each role of the group the slice that converts
it. -/
structure Pulse where
  charge : Charge
  slices : List (Option Nat)
  deriving DecidableEq, Repr

/-- State of the segment inputs that no register field holds. -/
structure VfeSt where
  /-- Control buses 0 to 3. -/
  scb : Table ScbBus
  /-- MODE word last written to a segment (R61). -/
  mode : Table Nat
  /-- Segment clocks running (R45). -/
  clocks : Bool
  /-- The clocks stop once the readout in progress ends (R45). -/
  stopping : Bool
  /-- Flush phases still to run (R45). -/
  flush : Nat
  /-- What the charge now integrating stands for. -/
  charge : Charge
  /-- Readouts begun and not yet complete, per segment, oldest first. -/
  reads : Table (List Pulse)
  /-- Taps whose check of R57 step 6 failed, key 4 s + t. -/
  vbad : Table Bool
  /-- First no-data sample of a tap broken within the readout in progress (R54), key 4 s + t. -/
  cutAt : Table (Option Nat)
  /-- Segments whose island was lost: no-data until the next JOB_START (R12). -/
  lostSeg : Table Bool
  /-- Configured KHZ of a segment in fallback, to return to at training. -/
  khz0 : Table Nat
  /-- Segments waiting for the switch to voltage mode (R54, R55). -/
  toVolt : List Nat
  /-- A segment being switched, whose write of MODE.VM is not acknowledged yet: what the check of its taps will show (R57). -/
  switch : Table (Option (List Bool))
  /-- The common modes in mV that its taps will show in that check (R57, R64). -/
  switchLoop : Table (List Nat)
  /-- Device time at which the readout of the last start pulse begins, per segment (R44, R45). -/
  pulse : Table Nat
  deriving DecidableEq, Repr

def VfeSt.init : VfeSt :=
  { scb := [], mode := [], clocks := false, stopping := false, flush := 0, charge := .idle, reads := [], vbad := [],
    cutAt := [], lostSeg := [], khz0 := [], toVolt := [], switch := [], switchLoop := [], pulse := [] }

/-- One slice group (R74 to R87): what the group keeps beside the registers. The assignment itself stands in
ADC_SLICE_n_STAT.ROLE, the rotation state in ADC_GRP_g_STAT. -/
structure Grp where
  /-- The off-line slice being calibrated, by local number. -/
  cal : Option Nat
  /-- Its calibration has been accepted since it went off-line (R75). -/
  acc : Bool
  /-- Phases since the last step (R75). -/
  since : Nat
  /-- Slices declared faulty and not yet handed over, by local number (R82). -/
  faults : List Nat
  /-- Slices accepted in a retest that take their role back at the next hand-over point (R86). -/
  back : List Nat
  /-- Slices under retest (R86) and slices still in the start-up calibration (R77), by local number. -/
  retest : List Nat
  startup : List Nat
  deriving DecidableEq, Repr

def Grp.init : Grp :=
  { cal := none, acc := false, since := 0, faults := [], back := [], retest := [], startup := [] }

/-- State of the converters that no register field holds. -/
structure AdcSt where
  grp : Table Grp
  /-- First suspect line of the slice's failing run (R90), if one is open. -/
  firstSuspect : Table (Option Nat)
  /-- Sums of the 4 corrected sable samples of the last passed readouts, newest first, key 64 g + 8 phase + role (R79). -/
  means : Table (List Nat)
  /-- The pair's spur is above its level, key 4 g + t (R89). -/
  spurHigh : Table Bool
  deriving DecidableEq, Repr

def AdcSt.init : AdcSt := { grp := [], firstSuspect := [], means := [], spurHigh := [] }

/-- Current code, pulse length, lit time, delivered light, BASE, phase and window (2.5 ns) of one string (R97). -/
structure StrVal where
  i : Nat
  t : Nat
  lit : Nat
  lDel : Nat
  base : Nat
  phase : Nat
  win : Nat
  deriving DecidableEq, Repr

def StrVal.init : StrVal := { i := 0, t := 0, lit := 0, lDel := 0, base := 0, phase := 0, win := 0 }

/-- A string of a zone: values computed at the last LB, last sent, last delivered (their reply came), covered by the last
COMMIT, in force, latest e (R100), latches. -/
structure StrSt where
  want : StrVal
  sent : StrVal
  deliv : StrVal
  comm : StrVal
  force : StrVal
  e : Nat
  tintLimit : Bool
  dimFloor : Bool
  deriving DecidableEq, Repr

def StrSt.init : StrSt :=
  { want := .init, sent := .init, deliv := .init, comm := .init, force := .init, e := 16384, tintLimit := false,
    dimFloor := false }

/-- A zone: consecutive failed attempts, values not yet delivered, what is still to be sent to it (GET_DIAG, CLEAR mask,
CONFIG), derating entered. -/
structure ZoneSt where
  fails : Nat
  need : Bool
  diagDue : Bool
  clearDue : Nat
  configDue : Bool
  derated : Bool
  deriving DecidableEq, Repr

def ZoneSt.init : ZoneSt :=
  { fails := 0, need := false, diagDue := false, clearDue := 0, configDue := false, derated := false }

/-- What a lamp bus is sending (R109). -/
inductive LbOp where
  | ping | config | value | report | commit | diagArm (mask : Nat) | allOff | getDiag | clear (mask : Nat)
  deriving DecidableEq, Repr

/-- A transaction on a lamp bus: the operation, the zone (none for a broadcast), the values of its strings that an XCHG
sends. -/
structure LbReq where
  op : LbOp
  zone : Option Nat
  vals : List StrVal
  deriving DecidableEq, Repr

/-- One lamp bus: the transaction in progress, a failed attempt to repeat here, consecutive failed attempts and
successes, a success of the other bus since the first of them, the round-robin positions, frames due (R113, R114). -/
structure LBus where
  cur : Option LbReq
  retry : List LbReq
  fails : Nat
  succ : Nat
  otherOk : Bool
  rrValue : Nat
  rrReport : Nat
  allOffDue : Nat
  pingDue : List Nat
  deriving DecidableEq, Repr

def LBus.init : LBus :=
  { cur := none, retry := [], fails := 0, succ := 0, otherOk := false, rrValue := 0, rrReport := 0, allOffDue := 0,
    pingDue := [] }

/-- State of the lamp island that no register field holds. -/
structure LmpSt where
  /-- Strobe pairs that are high, by string (R95). -/
  strobe : Table Bool
  /-- The phase whose strobes have still to rise, and the strings raised diagnostically in it (R93, R106). -/
  rise : Option Nat
  diagMask : Nat
  str : Table StrSt
  zone : Table ZoneSt
  bus : Table LBus
  /-- Values have been delivered since the last COMMIT; the COMMIT has been sent and takes force at the next phase 0. -/
  commitDue : Bool
  committed : Bool
  /-- After an ALL_OFF every enabled zone is delivered anew at the next use (R99). -/
  redeliver : Bool
  /-- Delivery of JOB_START or CAL_START under way (R99). -/
  delivering : Bool
  /-- PASS of last-strobe: LAMP_EN falls 10 µs after the last strobe of the job or capture (R96). -/
  offArmed : Bool
  deriving DecidableEq, Repr

def LmpSt.init : LmpSt :=
  { strobe := [], rise := none, diagMask := 0, str := [], zone := [], bus := [], commitDue := false, committed := false,
    redeliver := true, delivering := false, offArmed := false }

/-- The settings of a line, as in force at its LB (R18, R119). -/
structure LineCfg where
  /-- PXE_CTRL and PXE_FMT words. -/
  ctrl : Nat
  fmt : Nat
  bank : Nat
  lin : Nat
  start : Nat
  width : Nat
  /-- Colour phases, exported planes 0 to c − 1. -/
  c : Nat
  /-- Tint factor and dark flag, key 4 zone + phase (R101). -/
  tf : Table Nat
  dark : Table Bool
  /-- Temperature of each segment, when one counts (R123). -/
  tseg : Table (Option Int)
  /-- Offsets dd of the joints (R125). -/
  joints : List Int
  lampId : Nat
  calId : Nat
  /-- The drift gate was open at the LB, and the margin windows that are set: start and width by zone (R163, R164). -/
  gate : Bool
  win : Table (Nat × Nat)
  /-- A line of a PACED job (R248). -/
  paced : Bool
  /-- Device time and feed position at the LB, and the job. -/
  time : Nat
  feed : Int
  job : Nat
  deriving DecidableEq, Repr

def LineCfg.init : LineCfg :=
  { ctrl := 0, fmt := 0, bank := 0, lin := 0, start := 0, width := 0, c := 0, tf := [], dark := [], tseg := [], joints := [],
    lampId := 0, calId := 0, gate := false, win := [], paced := false, time := 0, feed := 0, job := 0 }

/-- A block of the pool (R133). -/
inductive BlkKind where
  | tap (seg tap : Nat)
  | joint (j : Nat)
  deriving DecidableEq, Repr

structure Blk where
  kind : BlkKind
  line : Nat
  phase : Nat
  /-- Control-island cycle in which it became ready (R134). -/
  age : Nat
  /-- Engines it has failed on (R141). -/
  fails : Nat
  deriving DecidableEq, Repr

/-- Output values v16 of consecutive output pixels of a plane, from pixel `x` on (R126). -/
structure PxRun where
  k : Nat
  x : Nat
  vs : List Nat
  deriving DecidableEq, Repr

/-- A committed line as the analysis island reads it (R168): its number, settings and pixels before packing. -/
structure LineImg where
  n : Nat
  cfg : LineCfg
  runs : List PxRun
  /-- Device time of the commit. -/
  com : Nat
  /-- Items of the packet that the reader found poisoned (R291). -/
  bad : List Nat := []
  deriving DecidableEq, Repr

/-- A line in the pool (R133 to R137). An overlap line (R247) is numbered outside the series: 2^48 above the line it
re-captures. -/
structure PLine where
  n : Nat
  cfg : LineCfg
  /-- Blocks not yet done: phase and kind. -/
  left : List (Nat × BlkKind)
  /-- Readouts that have still to reach staging: phase and segment. -/
  due : List (Nat × Nat)
  /-- Staged blocks of an odd line that wait for the even line's (R134). -/
  wait : List Blk
  /-- Start of the reservation this line writes into (R136). -/
  resv : Nat
  suspect : Bool
  /-- Output values written so far (the analysis island, the couch strips and the drift records take them, R168). -/
  runs : List PxRun
  /-- v7 values beside the joints, key 18 (63 phase + joint) + index; absent is NODATA (R133). -/
  edges : Table (Option Int)
  /-- Sum and count of the margin window's pixels, key 4 zone + phase (R163). -/
  drift : Table (Nat × Nat)
  /-- Bytes of FIFO words that wait for the other block that shares the word, by word: place in the word, bytes (R136). -/
  part : Table (Option (Nat × List Byte))
  /-- Time at which the last readout of the last colour phase so far reached staging (R138). -/
  lastStaged : Option Nat
  deriving DecidableEq, Repr

/-- A staging unit in use (R117, R118): the readout it holds, the tap blocks still to be written, the taps' clamps. -/
structure StageUnit where
  seg : Nat
  line : Nat
  phase : Nat
  left : List Nat
  clamp : List Int
  /-- First no-data sample of each of the 8 roles. -/
  nodata : List (Option Nat)
  deriving DecidableEq, Repr

/-- State of the correction pool that no register field holds. -/
structure PxeSt where
  unit : Table (Option StageUnit)
  /-- Sable clamp accumulators, key 16 s + 4 t + k, once a usable readout has set them (R120). -/
  acc : Table (Option Int)
  /-- The 16 group queues. -/
  queue : Table (List Blk)
  /-- The block an engine holds. -/
  hold : Table (Option Blk)
  /-- Lines in the pool, by number. -/
  lines : List PLine
  /-- The odd line of a pair whose even line the pool has dropped (R127). -/
  lostPair : Option Nat
  /-- POOL_SHORT raised (R139). -/
  short : Bool
  /-- Last good temperature of each segment in the job (R123). -/
  tgood : Table (Option Int)
  /-- PXE_CTRL.CLAMP_A in force at the last LB, or at the start of a calibration's capture (R119, R120). -/
  clampA : Nat
  deriving DecidableEq, Repr

def PxeSt.init : PxeSt :=
  { unit := [], acc := [], queue := [], hold := [], lines := [], lostPair := none, short := false, tgood := [],
    clampA := 0 }

/-- Reasons for which an engine leaves its pool once its work is written (R140, R187, R200), key 64 kind + engine. -/
structure EngSt where
  leave : Table (Option Nat)
  deriving DecidableEq, Repr

def EngSt.init : EngSt := { leave := [] }

/-- What a shading calibration does now. -/
inductive CalStep where
  | preparing | flushing | dark | shutter | gain | writing | verify | returning
  deriving DecidableEq, Repr

/-- A shading calibration in progress (R149 to R157). Tap-phases have key 16 s + 4 t + k. -/
structure Cal where
  step : CalStep
  kind : Nat
  n : Nat
  auto : Bool
  src : Bool
  clrdef : Bool
  target : Nat
  trusted : Bool
  /-- Words of SHD_TARGET_n and SHD_LIM_* latched at acceptance (R151): target 0 and 1, dark 0 and 1, gain 0 and 1, bank. -/
  lat : List Nat
  /-- Pass within the kind, lines begun in the capture, those before this pass, next phase to start. -/
  pass : Nat
  lines : Nat
  base : Nat
  phase : Nat
  /-- Counted readouts of the pass, tap-phases excluded from it (R152). -/
  counts : Table Nat
  excl : Table Bool
  /-- Pixel-phases whose dark value failed, key 327,680 k + x; failing, kept, marked, not excluded. -/
  darkFail : Table Bool
  failed : Nat
  kept : Nat
  marked : Nat
  total : Nat
  /-- Latched tint factors (key 4 z + k) and temperatures (R154); segments with a tap-phase not excluded. -/
  tf : Table Nat
  tseg : Table (Option Int)
  tsegSet : Bool
  used : Table Bool
  /-- CAL_ABORT ends the capture after the line in progress (R159). -/
  aborting : Bool
  /-- Outcome once the shutter returns: none is success, else the cause of CAL_FAIL. -/
  outcome : Option Nat
  deriving DecidableEq, Repr

/-- State of the shading block that no register field holds. -/
structure ShdSt where
  cal : Option Cal
  /-- Banks under a check, under a memory test. -/
  check : List Nat
  mbist : List Nat
  /-- DMA transfers and TABLE_LOADs aimed at a bank that have not completed (R147). -/
  users : Table Nat
  /-- DRIFT_HIGH raised, key 4 z + k (R165). -/
  driftHigh : Table Bool
  deriving DecidableEq, Repr

def ShdSt.init : ShdSt := { cal := none, check := [], mbist := [], users := [], driftHigh := [] }

/-- A ladder band (R175 to R177): stream, number, start line, extent, the offset, skew and scale that serve it; chunks
(descriptor, index) not yet ready and not yet applied or skipped; nozzles without a valid observation; GEOM_CLAMP raised;
descriptors that have raised CHUNK_SKIP. -/
structure Band where
  stream : Nat
  num : Nat
  lb : Nat
  ext : Nat
  ox : Int
  sk : Int
  sc : Int
  todo : List (Nat × Nat)
  left : List (Nat × Nat)
  missed : List (Nat × Nat)
  clamped : Bool
  skipped : List Nat
  deriving DecidableEq, Repr

/-- A ready chunk (R185). -/
structure Chunk where
  stream : Nat
  num : Nat
  desc : Nat
  idx : Nat
  age : Nat
  fails : Nat
  deriving DecidableEq, Repr

/-- A band start as streak mapping needs it (R191). -/
structure BandStart where
  /-- It is of the present job. -/
  now : Bool
  lb : Nat
  ext : Nat
  ox : Int
  sk : Int
  sc : Int
  deriving DecidableEq, Repr

/-- A context export (R192): first, count, destination, line and time of its export point, band number, the contexts as
they stood there, the command that waits for CMD_DONE. -/
structure Export where
  first : Nat
  count : Nat
  dst : Nat
  /-- The export point has been reached. -/
  taken : Bool
  line : Nat
  time : Nat
  band : Nat
  data : List Byte
  deriving DecidableEq, Repr

/-- State of the nozzle block that no register field holds. Bands are held oldest first. -/
structure NzlSt where
  bands : List Band
  queue : List Chunk
  /-- The chunk an engine holds. -/
  hold : Table (Option Chunk)
  /-- Host band start lines pending (R175), by stream. -/
  host : Table (Option Nat)
  /-- An EVI edge or a PB that has still to find its LB, by stream; start lines that LOFS puts later. -/
  evi : Table Bool
  pb : Table Bool
  due : Table (List Nat)
  starts : Table (List BandStart)
  /-- Lines read by the analysis island that some band, window or row still needs, newest first; one more than the number
  of the last line it has read or passed over. -/
  hist : List LineImg
  readTo : Nat
  /-- Column profile of the current span: sum and count by pixel; the span; run counts, STREAK bits, quiet spans (R189). -/
  span : Nat
  prof : Table (Nat × Nat)
  run : Table Nat
  streak : Table Bool
  quiet : Table Nat
  /-- Row values of the last lines, contrast of the rows evaluated, rows reported, by output line, newest first (R190). -/
  rows : List (Nat × Int)
  rowK : List (Nat × Int)
  rowRep : List Nat
  /-- The export that runs and the one held. -/
  exp : Option Export
  expHeld : Option Export
  /-- The streak area 0x14E0_0000 to 0x151F_FFFF holds what a job left there, and the words written from outside since
  (R171, R188). -/
  used : Bool
  wrote : Table Bool
  deriving DecidableEq, Repr

def NzlSt.init : NzlSt :=
  { bands := [], queue := [], hold := [], host := [], evi := [], pb := [], due := [], starts := [], hist := [],
    readTo := 0, span := 0, prof := [], run := [], streak := [], quiet := [], rows := [], rowK := [], rowRep := [],
    exp := none, expHeld := none, used := false, wrote := [] }

/-- What triggered a patch (R197): the PB of a pass with the delay in force, the n-th edge of an EVI input, a period. -/
inductive Trig where
  | pb (pass d : Nat)
  | evi (g n : Nat)
  | periodic
  deriving DecidableEq, Repr

/-- A window entry (R195). -/
structure WinEntry where
  x0 : Nat
  kind : Nat
  chan : Nat
  side : Nat
  geom : Bool
  src : Nat
  g : Nat
  qmin : Nat
  lofs : Nat
  exp : Nat
  tmin : Nat
  bad : Bool
  deriving DecidableEq, Repr

/-- A patch of a tracking window (R197): the window's entry when it began, whether the chain starts anew with it (R198), first
output line, index, lines read, still whole, feed position of its first line. -/
structure Patch where
  ent : WinEntry
  anew : Bool
  first : Nat
  k : Nat
  got : Nat
  whole : Bool
  feed : Int
  trig : Trig
  /-- Commit time of the last line taken. -/
  com : Nat
  deriving DecidableEq, Repr

/-- A tracking window (R197, R198): patches whose lines have not all been read, oldest first; index of the next patch;
the previous patch; a skipped comparison restarts the chain at the next patch that is complete; it starts anew with the next
patch to begin; a trigger waiting for its LB; periodic schedule. -/
structure Win where
  caps : List Patch
  next : Nat
  prev : Option Patch
  restart : Bool
  anew : Bool
  wait : Option Trig
  period : Option Nat
  deriving DecidableEq, Repr

def Win.init : Win := { caps := [], next := 0, prev := none, restart := false, anew := true, wait := none, period := none }

/-- Work of the correlator engines (R199, R249). -/
inductive CorrKind where
  | chain (w : Nat) (ref cur : Patch)
  | tick (w : Nat) (cur : Patch)
  | couch (strip : Nat)
  deriving DecidableEq, Repr

structure CorrItem where
  kind : CorrKind
  age : Nat
  fails : Nat
  deriving DecidableEq, Repr

/-- Strip number of a comparison whose couch has gone on without it (R246): its result counts for nothing. -/
def voidStrip : Nat := 8

/-- A comparison of a couch that halts again (R246) is carried to its end by its engine and counts for nothing. -/
def CorrItem.void (i : CorrItem) : CorrItem :=
  match i.kind with
  | .couch _ => { i with kind := .couch voidStrip }
  | .chain _ _ _ | .tick _ _ => i

/-- A comparison of the seam check (R249). -/
def CorrItem.isCouch (i : CorrItem) : Bool :=
  match i.kind with
  | .couch _ => true
  | .chain _ _ _ | .tick _ _ => false

/-- An item taken by an engine, with the patches it has copied (R199). -/
structure CorrHold where
  item : CorrItem
  ref : List Byte
  cur : List Byte
  deriving DecidableEq, Repr

/-- GEOM tick windows of one trigger (R204): windows without a result yet, and per valid window its side (0 none, 1 left, 2
right), position and X0. -/
structure GeoMeas where
  trig : Trig
  first : Nat
  out : List Nat
  res : List (Nat × Nat × Int × Int)
  deriving DecidableEq, Repr

/-- State of feed tracking that no register field holds. -/
structure TrkSt where
  /-- PLACE has been written (R195). -/
  place : Bool
  win : Table Win
  /-- Edges seen on each EVI input. -/
  edges : Table Nat
  queue : List CorrItem
  hold : Table (Option CorrHold)
  geo : List GeoMeas
  /-- acc, sc and sk of R204 as computed; TRK_GEOM_n holds the values in force. -/
  acc : Int
  sk : Int
  sc : Int
  deriving DecidableEq, Repr

def TrkSt.init : TrkSt :=
  { place := false, win := [], edges := [], queue := [], hold := [], geo := [], acc := 0, sk := 0, sc := 0 }

/-- A seam measurement that has not closed (R205): pass, delay, windows without a result, and the valid errors with their
side (0 none, 1 left, 2 right). -/
structure SeamMeas where
  pass : Nat
  d : Nat
  out : List Nat
  res : List (Nat × Int)
  deriving DecidableEq, Repr

/-- State of the seam loop that no register field holds. -/
structure FedSt where
  seams : List SeamMeas
  /-- Ring entries written since the JB (R206), by pass mod 32; pass of the job's first advance. -/
  ring : Table Bool
  firstPass : Option Nat
  /-- The last accepted seam errors, newest first, at most 64 (R216); SEAM_HIGH raised. -/
  es : List Int
  high : Bool
  /-- scl in force (R215); it is held at its limit and reported. -/
  scl : Int
  sclHeld : Bool
  deriving DecidableEq, Repr

def FedSt.init : FedSt :=
  { seams := [], ring := [], firstPass := none, es := [], high := false, scl := 0, sclHeld := false }
/-- Why an axis moves (R220, R242, R245, R246). -/
inductive MoveKind where
  /-- A MOVE of the host or of the shading block. -/
  | move (notify evstop : Bool) (g : Nat)
  /-- The shutter of a shading calibration (R149). -/
  | shutter
  | advance
  /-- Forward without a target: PACED and WEB commanded, and the forward run of a couch. -/
  | forward
  | couchBack
  deriving DecidableEq, Repr

/-- A queued move (R226). -/
structure QMove where
  kind : MoveKind
  tgt : Int
  deriving DecidableEq, Repr

/-- How the move in progress will end (R253). -/
inductive MoveEnd where
  | target | halt
  deriving DecidableEq, Repr

/-- What the profile's goal is (R223). -/
inductive Goal where
  | accel | const | decel
  deriving DecidableEq, Repr

/-- Phase restoration of a feed axis (R232): steps 2, 3 to 4 with the corrective steps left, 5. -/
inductive Restore where
  | seek
  | step (left : Int) (frac : Nat)
  | done
  deriving DecidableEq, Repr

/-- An axis (R222 to R235). `p`, `v`, `a` and the converted settings have 48 fractional bits; axis 1 has no profile of its
own while it follows axis 0. -/
structure Axis where
  p : Int
  v : Int
  a : Int
  vmax : Int
  vst : Int
  acc : Int
  dec : Int
  j : Int
  braking : Bool
  goal : Goal
  /-- The move in progress, its target, how it will end; it waits 100 µs for RUN current (R230). -/
  run : Option MoveKind
  tgt : Int
  fin : MoveEnd
  delay : Bool
  queued : Option QMove
  /-- A queued move starts in the next tick (R226). -/
  startNext : Bool
  /-- Deferred DEC or JERK words (R229), by register address. -/
  defer : Table (Option Nat)
  /-- AXIS_FAULT has been raised for the present fault (R235). -/
  faulted : Bool
  restore : Option Restore
  /-- The encoder read after an uncertain stop waits for a word until this time (R234). -/
  encBy : Option Nat
  /-- Level of DIR_a, high for positive. -/
  dir : Bool
  /-- An MB-class shadow of the axis has been written since the last tick (R228). -/
  wrote : Bool
  /-- Time in ns from the start of the next tick before which no step may come (R221, R224). -/
  wait : Nat
  deriving DecidableEq, Repr

def Axis.init : Axis :=
  { p := 0, v := 0, a := 0, vmax := 0, vst := 0, acc := 0, dec := 0, j := 0, braking := false, goal := .const, run := none,
    tgt := 0, fin := .target, delay := false, queued := none, startNext := false, defer := [], faulted := false,
    restore := none, encBy := none, dir := false, wrote := false, wait := 0 }

/-- An advance that runs (R242 to R244): pass, distance, steps of both axes, positions and F at its start; it has no more
steps to make and waits for its PB. -/
structure Adv where
  pass : Nat
  a : Int
  s0 : Int
  s1 : Int
  p0 : Int
  p1 : Int
  f0 : Int
  settling : Bool
  deriving DecidableEq, Repr

/-- A couch (R246); its step stands in MOT_STAT.COUCH. -/
structure Couch where
  /-- N, the last line started, and Pc. -/
  n : Nat
  pc : Int
  /-- The back distance in microsteps of axis 0, fixed when the pair has come to rest (step 3). -/
  back : Int
  /-- The back move of step 4 is over and its dwell runs. -/
  backDone : Bool
  /-- Captured overlap lines started. -/
  overlap : Nat
  deriving DecidableEq, Repr

/-- The seam check of a couch (R249, R250): line N + 1, output overlap lines complete or dropped, comparisons outstanding
once they are queued, dy of the valid ones, and the verdict (seam-suspect) while line N + 1 has still to start. -/
structure CouchCheck where
  line : Nat
  ended : Nat
  queued : Bool
  out : Nat
  dys : List Int
  verdict : Option Bool
  deriving DecidableEq, Repr

/-- State of the motion island that no register field holds. -/
structure MotSt where
  ax : Table Axis
  /-- F in units of 2^−32 nm (R238); it last changed by an advance without steps. -/
  f : Int
  jump : Bool
  /-- P0 of the job (R239). -/
  p0 : Int
  /-- Remainders of R243. -/
  rem0 : Int
  rem1 : Int
  adv : Option Adv
  held : Option (Nat × Int)
  /-- The ADVANCE command that is held (R242, R346). -/
  heldCmd : Option CmdEntry
  /-- JOB_STOP accepted: the command, while the job ends (R244, R245, R252). -/
  stopping : Option CmdEntry
  couch : Option Couch
  check : Option CouchCheck
  /-- LINE_OVERRUN raised and no line started without overrun since (R241). -/
  overrun : Bool
  /-- Couch store (R248): the output line whose copy is present and free of no-data, key 16 strip + 8 (re-capture) + line
  mod 8. -/
  strip : Table (Option Nat)
  deriving DecidableEq, Repr

def MotSt.init : MotSt :=
  { ax := [], f := 0, jump := false, p0 := 0, rem0 := 0, rem1 := 0, adv := none, held := none, heldCmd := none, stopping := none,
    couch := none, check := none, overrun := false, strip := [] }
/-- An absolute port (R257 to R262). -/
structure AbsPort where
  /-- A frame is in progress (else BUSY is its recovery); the time of its F0; the CFG word it runs with. -/
  frame : Bool
  f0 : Nat
  cfg : Nat
  /-- A word has been valid since reset; w_a of R260, `none` while the jump check is skipped. -/
  has : Bool
  wa : Option Nat
  /-- Words of the frames that have failed with error 3 in a row, newest first. -/
  jumps : List Nat
  /-- Frames failed in a row. -/
  fails : Nat
  warned : Bool
  overrun : Bool
  /-- CFG has been written since the last frame began (R260). -/
  recfg : Bool
  deriving DecidableEq, Repr

def AbsPort.init : AbsPort :=
  { frame := false, f0 := 0, cfg := 0, has := false, wa := none, jumps := [], fails := 0, warned := false, overrun := false,
    recfg := false }

/-- An incremental port (R263 to R266). -/
structure QeiPort where
  /-- Level of the index signal g. -/
  g : Bool
  /-- The next index edge is the reference; previous index count; k; drift of the previous index. -/
  reidx : Bool
  prev : Nat
  k : Nat
  drift : Int
  /-- QEI_ILLEGAL raised since UNC was last cleared. -/
  ill : Bool
  /-- Signed counts of the present window; the window began before an illegal transition. -/
  win : Int
  winBad : Bool
  /-- Sign and time of the last count, if it counts as a predecessor; last period; spd_p. -/
  last : Option (Bool × Nat)
  tp : Nat
  spdp : Int
  deriving DecidableEq, Repr

def QeiPort.init : QeiPort :=
  { g := false, reidx := true, prev := 0, k := 0, drift := 0, ill := false, win := 0, winBad := false, last := none, tp := 0,
    spdp := 0 }

/-- State of the position ports that no register field holds. -/
structure PosSt where
  abs : Table AbsPort
  qei : Table QeiPort
  deriving DecidableEq, Repr

def PosSt.init : PosSt := { abs := [], qei := [] }
/-- A step of a monitor calibration (R279). -/
inductive MonStep where
  | zr (g : Nat)
  | vr (g : Nat)
  | z (n : Nat)
  | v (n : Nat)
  | ia (n : Nat)
  | ib (n : Nat)
  deriving DecidableEq, Repr

/-- What the monitor converter serves (R273, R276, R279, R284). -/
inductive MonWork where
  | regular (e n : Nat)
  | injected (n : Nat) (notify : Bool)
  | cal (st : MonStep) (tries : Nat)
  /-- The die entry: the one that ends a pass, or the one of the 100 ms timer (R276). -/
  | die (closing : Bool)
  deriving DecidableEq, Repr

/-- A conversion in progress (R273): settle periods and samples left, samples taken so far, their sum, an over-range
sample among them, the SETTLE and averaging exponent it began with, a restart at the next boundary (R288). -/
structure MonConv where
  work : MonWork
  dwell : Nat
  settle : Nat
  left : Nat
  sum : Int
  clip : Bool
  n : Nat
  restart : Bool
  deriving DecidableEq, Repr

/-- A monitor channel (R277, R278, R286): consecutive chop periods that passed the window; cause of OPEN; MON_RANGE,
HI and LO limit raised; LOAD due. -/
structure MonChan where
  pass : Nat
  cause : Nat
  range : Bool
  hi : Bool
  lo : Bool
  load : Bool
  /-- Causes of STALE (R277): a change, a calibration step or a LOAD since the last result; its age. -/
  changed : Bool
  aged : Bool
  deriving DecidableEq, Repr

def MonChan.init : MonChan :=
  { pass := 0, cause := 0, range := false, hi := false, lo := false, load := false, changed := false, aged := false }

/-- State of the monitor that no register field holds. -/
structure MonSt where
  conv : Option MonConv
  chan : Table MonChan
  /-- A pass runs with these words of MON_SEQ_CTRL and MON_SEQ_0 to _3; the next entry; a trigger has arrived; overrun
  raised. -/
  inPass : Bool
  use : List Nat
  next : Nat
  trig : Bool
  ovr : Bool
  dieDue : Bool
  inj : List (Nat × Bool)
  /-- Calibration: steps left, a request waits, the first since reset, constants rejected, reference constants rejected in
  it (key g), a regular entry is next by turn. -/
  cal : List MonStep
  calReq : Bool
  calFirst : Bool
  calRej : Nat
  refBad : Table Bool
  turn : Bool
  /-- Per constant: accepted since reset, rejections in a row, calibrations rejected in a row, rejected in this one. -/
  accepted : Table Bool
  rejRow : Table Nat
  rejCals : Table Nat
  rejNow : Table Bool
  /-- Coefficients in use, key 18 n + 3 i + j (R275). -/
  coef : Table Nat
  /-- Level of the pin BLANK; sampling resumes from this time on (R285). -/
  blank : Bool
  resumeAt : Nat
  /-- The sources of the 3-wire channels are exchanged: B at F1, A at F2 (R269). -/
  swap : Bool
  /-- Channels whose settings a write has changed within the chop period: their CFG and CMWIN as the period has them
  (R288). -/
  was : List (Nat × Word × Word)
  deriving DecidableEq, Repr

def MonSt.init : MonSt :=
  { conv := none, chan := [], inPass := false, use := [], next := 0, trig := false, ovr := false, dieDue := false, inj := [],
    cal := [], calReq := false, calFirst := true, calRej := 0, refBad := [], turn := false, accepted := [], rejRow := [],
    rejCals := [], rejNow := [], coef := [], blank := false, resumeAt := 0, swap := false, was := [] }
/-- A reservation in the line FIFO (R298), in ALLOC order: the ALLOC position and length of the whole grant, the lines it
is for, whether a gap's watermark takes its first 4 items, what has become of it. -/
inductive ResvKind where
  /-- Space of a line's packet, still being written. -/
  | line (n : Nat)
  /-- A watermark already written, waiting to commit in its place (R298, R300). -/
  | mark (last : Nat)
  deriving DecidableEq, Repr

structure Resv where
  pos : Nat
  items : Nat
  kind : ResvKind
  /-- The line is complete and handed over (R137). -/
  handed : Bool
  /-- A wait laid on the commit (R250). -/
  wait : Bool
  /-- What the header records beside the pool's fields: FLAGS bits so far. -/
  flags : Nat
  cfg : LineCfg
  drift : Table (Nat × Nat)
  runs : List PxRun
  deriving DecidableEq, Repr

/-- The open gap (R301): first and last missing line, time it opened, feed position of the first, cause mask, and the
format and number of its job. -/
structure Gap where
  fmt : Nat
  job : Nat
  first : Nat
  last : Nat
  time : Nat
  feed : Int
  cause : Nat
  deriving DecidableEq, Repr

/-- An entry of the issue ring (R305). `idx` is the issue index (R336); `wm` the header delivered in place of a packet
whose own header is poisoned (R297). -/
structure Issue where
  pos : Nat
  items : Nat
  line : Nat
  port : Nat
  released : Bool
  idx : Nat
  wm : Option (List Byte)
  /-- Place in the order in which the packets of its port are sent (R306, R307); LFF_POISON has been raised for it (R297). -/
  ord : Nat
  told : Bool
  deriving DecidableEq, Repr

/-- State of the line FIFO that no register field holds. Items themselves are bytes of memory. -/
structure LffSt where
  resv : List Resv
  gap : Option Gap
  /-- FULL was raised for the open gap (R303). -/
  gapFull : Bool
  /-- The next line packet committed carries WM_BEFORE (R301). -/
  wmBefore : Bool
  ring : List Issue
  /-- Parity of a half word is wrong, key 2 item + half (R291). -/
  poison : Table Bool
  /-- Packets committed and not yet read by the analysis island: position and the line (R168, R306). -/
  analysis : List (Nat × LineImg)
  /-- Line number that follows the last delivered (R297). -/
  expect : Nat
  /-- The job's end closes the open gap once 4 items are free (R301). -/
  closeDue : Bool
  /-- What the service reader has still to give of a watermark delivered in place of lost packets (R297, R308). -/
  svc : List Byte
  /-- Of the packet the service reader is in: its line number, poisoned words read so far, and items of its reservation behind
  the last word it takes (R296, R297, R300). -/
  svcLine : Nat
  svcBad : Nat
  svcSkip : Nat
  /-- Place the next packet handed to a port takes (R306). -/
  order : Nat
  deriving DecidableEq, Repr

def LffSt.init : LffSt :=
  { resv := [], gap := none, gapFull := false, wmBefore := false, ring := [], poison := [], analysis := [], expect := 0,
    closeDue := false, svc := [], svcLine := 0, svcBad := 0, svcSkip := 0, order := 0 }

/-- A DMA descriptor (R311). -/
structure Desc where
  /-- The CTRL word: OWN, NOTIFY, SOM, OP, reserved bits. -/
  ctrl : Nat
  count : Nat
  src : Nat
  dst : Nat
  next : Nat
  deriving DecidableEq, Repr

/-- What a channel is used for (R310, R346, R192). -/
inductive DmaUse where
  | none
  | tableLoad (tag : Nat) (flags : Nat)
  | ctxExport
  deriving DecidableEq, Repr

/-- A DMA channel (R315 to R321). Its state, PEND and STOPPED stand in DMA_CH_c_STAT. -/
structure DmaCh where
  /-- The descriptor in progress: its address (0 for the register descriptor) and contents; bytes moved. -/
  cur : Option (Nat × Desc)
  moved : Nat
  /-- Bytes among those moved whose bursts were discarded (R314). -/
  dropped : Nat
  /-- Address of the descriptor to start next, and whether nothing but its start is awaited (no trigger). -/
  nextAt : Option Nat
  go : Bool
  /-- Offset of the first difference of a compare. -/
  miss : Option Nat
  /-- CONFLICT arose after the start: further bursts are discarded (R314). -/
  discard : Bool
  /-- A poisoned word of the source has ended the descriptor (R314). -/
  poison : Bool
  /-- DMA_TRIG_OVR raised and no trigger taken without overrun since (R315). -/
  ovr : Bool
  /-- A trigger has been lost since the last one was taken (R315). -/
  lostTrig : Bool
  /-- Descriptors started since START. -/
  ndesc : Nat
  /-- The descriptor held at its start (R314). -/
  wait : Option Desc
  /-- Banks whose users this descriptor counts among (R147). -/
  banks : List Nat
  use : DmaUse
  deriving DecidableEq, Repr

def DmaCh.init : DmaCh :=
  { cur := none, moved := 0, dropped := 0, nextAt := none, go := false, miss := none, discard := false, poison := false,
    ovr := false, lostTrig := false, ndesc := 0, wait := none, banks := [], use := .none }

/-- State of the DMA block that no register field holds. -/
structure DmaSt where
  ch : Table DmaCh
  /-- Channel last granted, per priority level (R321). -/
  last : Table Nat
  /-- EVO_k is driven active (R320). -/
  evo : Table Bool
  deriving DecidableEq, Repr

def DmaSt.init : DmaSt := { ch := [], last := [], evo := [] }

/-- What an RDMA WRITE message carries (R335, R336, R341, R320). -/
inductive MsgBody where
  /-- `len` payload bytes of packet `idx` from payload byte `off`. -/
  | payload (idx off len : Nat)
  /-- The header of packet `idx`. -/
  | header (idx : Nat)
  /-- The line status: PI, LINE of packet PI − 1, device time of the write. -/
  | status (pi line time : Nat)
  /-- Bytes at an offset of the control region. -/
  | ctl (off : Nat) (data : List Byte)
  /-- Byte 0 of event record `e`, at an offset of the control region. -/
  | ev0 (e off : Nat) (b : Byte)
  /-- Bytes at an offset of remote window `w`. -/
  | win (w off : Nat) (data : List Byte)
  deriving DecidableEq, Repr

/-- An RDMA WRITE message that is not wholly acknowledged, or whose FIFO entry is not released: first PSN, packets. -/
structure Msg where
  psn : Nat
  pkts : Nat
  body : MsgBody
  deriving DecidableEq, Repr

/-- What an outstanding READ asks for (R339, R327). -/
inductive RdKind where
  | credits
  | standby
  | cmds (first n : Nat)
  /-- What channel `c` waits for, at a host address, `n` bytes (R310, R317, R318). -/
  | dma (c a n : Nat)
  deriving DecidableEq, Repr

structure Rd where
  psn : Nat
  kind : RdKind
  deriving DecidableEq, Repr

/-- A queue pair (R331 to R334). -/
structure Qp where
  msgs : List Msg
  reads : List Rd
  /-- READs that wait because 8 are outstanding (R332). -/
  rdWait : List RdKind
  /-- Packets whose line status waits for lower issue indices (R336): index and line. -/
  statusDue : List (Nat × Nat)
  /-- Last PSN acknowledged since the slot entered RTS. -/
  acked : Option Nat
  alpha : Nat
  n : Nat
  /-- Time of the last reaction to a CNP. -/
  react : Option Nat
  deriving DecidableEq, Repr

def Qp.init : Qp := { msgs := [], reads := [], rdWait := [], statusDue := [], acked := none, alpha := 65536, n := 0, react := none }

/-- A port (R325 to R330, R351, R432). -/
structure PortSt where
  /-- The LINK_HOLD timer runs; link training has to run again; the lanes are powered down. -/
  holding : Bool
  train : Bool
  /-- The port went down while the other was not up (R432). -/
  alone : Bool
  /-- Time at which the present pause began; paused time in ns since the last read of PAUSE, without the present pause (R330,
  R354); frames that wait for its end. -/
  pausedAt : Nat
  pausedNs : Nat
  held : List Output
  deriving DecidableEq, Repr

def PortSt.init : PortSt := { holding := false, train := true, alone := false, pausedAt := 0, pausedNs := 0, held := [] }

/-- State of the host port that no register field holds. -/
structure HstSt where
  qp : Table Qp
  port : Table PortSt
  /-- The active port in STANDBY (R327). -/
  active : Nat
  /-- CREDIT_ERR raised and no value accepted since, for CI_LINE and CI_EVENT (R338). -/
  creditErr : Bool
  creditErrEv : Bool
  deriving DecidableEq, Repr

def HstSt.init : HstSt := { qp := [], port := [], active := 0, creditErr := false, creditErrEv := false }

/-- A taken command entry (R344): its opcode, the entry, whether its CHECK failed three times. -/
structure Taken where
  op : Nat
  entry : CmdEntry
  bad : Bool
  deriving DecidableEq, Repr

/-- State of the command ring that no register field holds. -/
structure CmdSt where
  /-- Entries taken and not yet processed, in ring order. -/
  taken : List Taken
  /-- A REG_WRITE has written the reset code to CFG_RESET: no later entry is examined (R347). -/
  stopped : Bool
  /-- SNAPSHOT commands that wait for their snapshot (R346). -/
  snaps : List CmdEntry
  deriving DecidableEq, Repr

def CmdSt.init : CmdSt := { taken := [], stopped := false, snaps := [] }

/-- A resource claim in force (R375, R378): class, index, owner, and whether the image made it. -/
structure Claim where
  cls : Nat
  idx : Nat
  owner : Nat
  fixed : Bool
  deriving DecidableEq, Repr

/-- State of the loader that no register field holds. -/
structure CfgSt where
  /-- A reset has been caused and takes effect in 1 µs: power-on or device (R358). -/
  due : Option Bool
  /-- Reset has taken effect and has not been released. -/
  held : Bool
  /-- VDD_CORE or VDD_IO33 holds the device in power-on reset (R416). -/
  brownout : Bool
  /-- The last reset was a power-on reset (R358, R418). -/
  powerOn : Bool
  /-- The burst that fails and its repeats (R361). -/
  failAt : Option Nat
  repeats : Nat
  /-- Read instruction and dummy cycles of the flash's mode (R360). -/
  readBy : List Nat × Nat
  /-- The load has ended: the XSPI pins are at high impedance (R361). -/
  xspiZ : Bool
  /-- SEQ of the headers of copies A and B as read (R363, R387), and how many bytes of each are to be read. -/
  seqs : List Nat
  lens : List Nat
  /-- Bursts of the flash read in progress that the loader has asked for (R361). -/
  asked : Nat
  /-- The plausible copies still to be verified, in order, the one being read first (R363). -/
  order : List Nat
  /-- Words of the service scratch written since the load, key address / 4 (R368, R403). -/
  scratch : Table Bool
  /-- The entries of the SEGREG section, as segment, register, value (R372). -/
  segreg : List (Nat × Nat × Nat)
  claims : List Claim
  /-- The segments have been brought up (R379 step 6). -/
  segsDone : Bool
  /-- The loader's check of bank B runs, which selects the bank on a pass (R145). -/
  bankCheck : Bool
  deriving DecidableEq, Repr

def CfgSt.init : CfgSt :=
  { due := none, held := false, brownout := false, powerOn := true, failAt := none, repeats := 0, readBy := ([], 0), xspiZ := false,
    seqs := [], lens := [], asked := 0, order := [], scratch := [], segreg := [],
    claims := [], segsDone := false, bankCheck := false }

/-- State of the SEC block that no register field holds. Fuses keep their values through every reset. -/
structure SecSt where
  pkh : List Byte
  /-- The PKH fuses as sensed at the last reset: a new PKH takes effect at the next one (R384). -/
  pkhNow : List Byte
  duk : List Byte
  uid : Nat
  svn : Nat
  dbglock : Bool
  /-- Silicon revision (R33). -/
  rev : Nat
  /-- SEC_FUSE_DATA words. -/
  fuseData : Table Word
  /-- The fuse operation that runs: OP and its data. -/
  burning : Option (Nat × List Word)
  /-- The key store: the plaintext of the QP section (R386). -/
  keys : Option (List Byte)
  /-- A zeroisation waits for the acknowledgement of SAFE_ENTER, or its 50 µs (R386). -/
  zeroDue : Bool
  deriving DecidableEq, Repr

/-- A new bar (R384): no fuse burnt but the device-unique key and serial number, which this model takes as 0. -/
def SecSt.init : SecSt :=
  { pkh := zeros 32, pkhNow := zeros 32, duk := zeros 32, uid := 0, svn := 0, dbglock := false, rev := 0x10, fuseData := [], burning := none,
    keys := none, zeroDue := false }

/-- The two-wire target (R391 to R397, R410). -/
structure TwbSt where
  ptr : Nat
  win : Nat
  lstat : Nat
  /-- Data bytes buffered before a repeated START, with their pointers; bytes not acknowledged (R393). -/
  buf : List (Nat × Byte)
  drop : Nat
  /-- TWB_STAT.STATE as it stands between the words of a read (R410): 0 idle, 2 sending. -/
  state : Nat
  deriving DecidableEq, Repr

def TwbSt.init : TwbSt := { ptr := 0, win := 0, lstat := 0, buf := [], drop := 0, state := 0 }

/-- The debug port (R398 to R401). -/
structure DbgSt where
  /-- The access that runs: address, data, write. -/
  acc : Option (Nat × Word × Bool)
  /-- DBG_REG as it will be captured (R401): DONE, REFUSED, the result of the last read. -/
  done : Bool
  refused : Bool
  data : Word
  /-- What the boundary register drives from its output cells (R398, R399). -/
  cells : List Bool
  deriving DecidableEq, Repr

def DbgSt.init : DbgSt := { acc := none, done := false, refused := false, data := 0, cells := [] }

/-- The indicator strip (R404 to R408). -/
structure IndSt where
  /-- TROW, BLANK, DIM and ICOL in force: the words of IND_CTRL and IND_CUR at the frame's start. -/
  ctrl : Nat
  cur : Nat
  /-- Phase start of each engine. -/
  start : Table Nat
  /-- Level of each LED in this frame. -/
  level : Table Nat
  /-- Next row slot of the frame; eight when it is over. -/
  row : Nat
  /-- The SAFE pattern is in its lit half. -/
  lit : Bool
  deriving DecidableEq, Repr

def IndSt.init : IndSt := { ctrl := 0x807D14FF, cur := 10, start := [], level := [], row := 8, lit := false }

/-- The state of the block. -/
structure State where
  /-- The register file: every register the spec's tables name, sparse over `resetWord`. -/
  regs : Table Word
  /-- On-chip memory (R32), byte by byte, sparse over 0 (R358: reset clears it). -/
  mem : List Host.Cell
  /-- Pending shadows of RWS fields (R8, R16). -/
  pend : List Shadow
  sys : SysSt
  evq : EvqSt
  seq : SeqSt
  vfe : VfeSt
  adc : AdcSt
  lmp : LmpSt
  pxe : PxeSt
  eng : EngSt
  shd : ShdSt
  nzl : NzlSt
  trk : TrkSt
  fed : FedSt
  mot : MotSt
  pos : PosSt
  mon : MonSt
  lff : LffSt
  dma : DmaSt
  hst : HstSt
  cmd : CmdSt
  cfg : CfgSt
  sec : SecSt
  twb : TwbSt
  dbg : DbgSt
  ind : IndSt
  /-- What the device has sent through its pins and ports, newest first (the model's own record). -/
  sent : List Output
  /-- Free values taken so far (the model's own counter). -/
  fresh : Nat
  /-- Commands that wait, first in first out (the model's own queue). -/
  pending : List Instr
  deriving DecidableEq, Repr

/-- Bytes of memory that nothing has written read 0 (R358). -/
def memDefault (_ : Nat) : Byte := 0

/-- The canonical form of the memory: addresses strictly rising, no listed byte equal to what an unlisted one reads. -/
abbrev Memory.wf (m : List Host.Cell) : Prop := Table.Wf memDefault m

/-- The canonical form of the register file. -/
abbrev Regs.wf (r : Table Word) : Prop := Table.Wf resetWord r

/-- The machine right after reset (R7, R358): every register at its reset value, memory clear, nothing pending. -/
def State.reset : State :=
  { regs := [], mem := [], pend := [],
    sys := .init, evq := .init, seq := .init, vfe := .init, adc := .init, lmp := .init, pxe := .init, eng := .init, shd := .init, nzl := .init, trk := .init, fed := .init, mot := .init, pos := .init, mon := .init, lff := .init, dma := .init, hst := .init, cmd := .init, cfg := .init, sec := .init, twb := .init, dbg := .init, ind := .init,
    sent := [], fresh := 0, pending := [] }

end Sys2Proof.Machine
end

