-- ==== Sys2Proof/Machine/Ops.lean ====
section
/-!
DEFINITION. The named operations over the register file, the memory, time, pending shadows and what leaves the device.
-/

namespace Sys2Proof.Machine

/-- The word of the register at an address, as it stands in the register file. -/
def State.rget (s : State) (a : Nat) : Word := tget resetWord s.regs a

/-- Put a word into the register file. -/
def State.rput (s : State) (a : Nat) (w : Word) : State := { s with regs := tput resetWord s.regs a w }

/-- The value of a field. -/
def State.fget (s : State) (f : Fld) : Nat := bitsAt (s.rget f.addr).toNat f.lo f.w

/-- Fields of a register word by the word. -/
def fld (w : Nat) (f : Fld) : Nat := bitsAt w f.lo f.w

/-- The value of a signed field. -/
def State.fgetI (s : State) (f : Fld) : Int := toInt f.w (s.fget f)

/-- Whether a one-bit field is 1. -/
def State.flag (s : State) (f : Fld) : Bool := s.fget f == 1

/-- Set a field to the low bits of a value. -/
def State.fput (s : State) (f : Fld) (v : Nat) : State :=
  s.rput f.addr (BitVec.ofNat 32 (putBits (s.rget f.addr).toNat f.lo f.w v))

/-- Set a signed field. -/
def State.fputI (s : State) (f : Fld) (v : Int) : State := s.fput f (ofInt f.w v)

/-- Set a one-bit field. -/
def State.fputB (s : State) (f : Fld) (b : Bool) : State := s.fput f (b2n b)

/-- A saturating count in a field. -/
def State.bump (s : State) (f : Fld) (k : Nat) : State := s.fput f (satAdd f.w (s.fget f) k)

/-- The value held in two consecutive words, low word first (R27). -/
def State.wget (s : State) (a : Nat) : Nat := (s.rget a).toNat + 2 ^ 32 * (s.rget (a + 4)).toNat

/-- Put a value into two consecutive words. -/
def State.wput (s : State) (a v : Nat) : State :=
  (s.rput a (BitVec.ofNat 32 v)).rput (a + 4) (BitVec.ofNat 32 (v / 2 ^ 32))

/-- A 48-bit signed value in two words: the high word shows bits 47:32, sign bits above. -/
def State.wput48 (s : State) (a : Nat) (v : Int) : State := s.wput a (ofInt 48 v)

/-- The signed 48-bit value held in two words. -/
def State.wget48 (s : State) (a : Nat) : Int := toInt 48 (s.wget a)

/-- One byte of on-chip memory. -/
def State.byte (s : State) (a : Nat) : Byte := tget memDefault s.mem a

/-- `n` bytes of on-chip memory from an address. -/
def State.bytes (s : State) (a : Nat) : Nat → List Byte
  | 0 => []
  | n + 1 => s.byte a :: s.bytes (a + 1) n

/-- Store bytes from an address on. -/
def State.store (s : State) (a : Nat) (bs : List Byte) : State := { s with mem := tputs memDefault s.mem a bs }

/-- The little-endian number of `n` bytes at an address (R3). -/
def State.ld (s : State) (a n : Nat) : Nat := leNat (s.bytes a n)

/-- The signed little-endian number of `n` bytes at an address. -/
def State.ldI (s : State) (a n : Nat) : Int := toInt (8 * n) (s.ld a n)

/-- Store the low `n` bytes of a number, little-endian. -/
def State.st (s : State) (a n v : Nat) : State := s.store a (leBytes n v)

/-- Store `n` zero bytes. -/
def State.clear (s : State) (a n : Nat) : State :=
  { s with mem := s.mem.filter (fun c => decide (c.1 < a) || decide (a + n ≤ c.1)) }

/-- A time stamp (R29): device time with an error of at most 8 ns that the model leaves free. Takes one free value. -/
def State.stamp (s : State) : Nat × State :=
  (s.sys.now + (Config.stampError s.fresh).val - 8, { s with fresh := s.fresh + 1 })

/-- A job runs (R33). -/
def State.running (s : State) : Bool := s.flag Reg.sysState_run

/-- The device is in SAFE (R33). -/
def State.isSafe (s : State) : Bool := s.flag Reg.sysState_safe

/-- Instructions that take the pins from the device (R398). -/
def pinDriving (ir : Nat) : Bool := ir == 0 || ir == 3 || ir == 4

/-- Such an instruction is carried out only in SAFE or before an image is loaded (R399). -/
def State.pinsOpen (s : State) : Bool := s.isSafe || !s.flag Reg.sysState_loaded

/-- The instruction by which the debug port acts (R398 to R400): a pin-driving one outside R399, and DBG_REG while DBGLOCK is
1, act as BYPASS. -/
def State.irActs (s : State) : Nat :=
  let ir := s.fget Reg.dbgStat_ir
  if (pinDriving ir && !s.pinsOpen) || (ir == 0x10 && s.sec.dbglock) then 0xFF else ir

/-- Supply of a group of outputs (R415, R420). -/
def OutGroup.rail : OutGroup → Rail
  | .io33 | .drain => .io33
  | .lvds => .io18
  | .xspiDq | .xspiCtl => .xspi
  | .indicator => .ind

/-- Internal pull of a group of outputs (R420): down, or none. -/
def OutGroup.pull : OutGroup → Option Bool
  | .io33 | .xspiDq => some false
  | .drain | .lvds | .xspiCtl | .indicator => none

/-- What drives a group of output pins: an output whose supply is below its threshold is at high impedance with its pull (R416),
a pin-driving instruction takes the pins from the device (R399), and the loader leaves the flash's pins when it ends (R361). -/
def State.drive (s : State) (g : OutGroup) : Drive :=
  if s.sys.railsLow.contains g.rail then .highZ g.pull
  else if s.irActs = 4 then .highZ g.pull
  else if pinDriving s.irActs then .cells s.dbg.cells
  else if (g = .xspiDq ∨ g = .xspiCtl) ∧ s.cfg.xspiZ = true then .highZ g.pull
  else .device

/-- The pins through which an output leaves the device; the host lanes and the answers to register reads are none of them. -/
def Output.group : Output → Option OutGroup
  | .scb .. | .lamp .. => some .io33
  | .twb _ | .twbAcks _ => some .drain
  | .xspiReset | .xspi _ | .xspiRead .. => some .xspiCtl
  | .row .. => some .indicator
  | .rdma .. | .arp .. | .nadv .. | .value .. | .tdo .. => none

/-- Something leaves the device, unless its pins are not driven by the device. -/
def State.out (s : State) (o : Output) : State :=
  { s with sent := if o.group.all (fun g => s.drive g == .device) then o :: s.sent else s.sent }

/-- Regime of the running job: 1 PACED, 2 PASS, 3 WEB, 0 none (R33). -/
def State.regime (s : State) : Nat := s.fget Reg.sysState_regime

/-- Number of the last LB (R33). -/
def State.lastLb (s : State) : Nat := s.wget Reg.sysLine0 % 2 ^ 48

/-- Segment `k` is enabled by the image (R40). -/
def State.segEn (s : State) (k : Nat) : Bool := bitAt (s.wget Reg.vfeSegEn0) k

/-- Segment `k` answered its identification (R63). -/
def State.segPresent (s : State) (k : Nat) : Bool := bitAt (s.wget Reg.vfeSegPresent0) k

/-- Island `i` is not lost (R12). -/
def State.alive (s : State) (i : Nat) : Bool := bitAt (s.rget (Reg.sysIslandAlive (i / 32))).toNat (i % 32)

/-- Set or clear an island's bit in SYS_ISLAND_ALIVE_n. -/
def State.setAlive (s : State) (i : Nat) (b : Bool) : State :=
  let a := Reg.sysIslandAlive (i / 32)
  s.rput a (BitVec.ofNat 32 (putBit (s.rget a).toNat (i % 32) b))

/-- Replace the bits of `mask` in `old` by those of `v`. -/
def blend (old mask v : Nat) : Nat := (old &&& ((2 ^ 32 - 1) ^^^ (mask % 2 ^ 32))) ||| (v &&& mask % 2 ^ 32)

/-- The word a register will hold once its pending shadows commit. -/
def State.shadowed (s : State) (a : Nat) : Nat :=
  (s.pend.filter (fun p => p.addr == a)).foldl (fun w p => blend w p.mask p.val) (s.rget a).toNat

/-- A shadow of a register's fields of one class. -/
def Shadow.at (p : Shadow) (cls : Cls) (a : Nat) : Bool := p.addr == a && p.cls == cls

/-- Enter a value into the shadow of a register's fields of one class; the last value written stays (R16). -/
def State.shadow (s : State) (cls : Cls) (axis a mask v : Nat) : State :=
  if s.pend.any (fun p => p.at cls a) then
    { s with
      pend := s.pend.map (fun p =>
        if p.at cls a then { p with mask := p.mask ||| mask, val := blend p.val mask v, stuck := false } else p) }
  else
    { s with pend := s.pend ++ [{ cls := cls, axis := axis, addr := a, mask := mask, val := v &&& mask, stuck := false }] }

/-- A shadow belongs to a boundary of the given class (and axis, for MB). One that was pending when SAFE ended a job belongs
to none before the next JOB_START (R20). -/
def Shadow.isOf (p : Shadow) (c : Cls) (axis : Nat) : Bool := p.cls == c && (c != .mb || p.axis == axis) && !p.stuck

/-- A boundary's commit of one class (R16): every pending shadow of the class takes force, together. -/
def State.commit (s : State) (c : Cls) (axis : Nat) : State :=
  let take := s.pend.filter (fun p => p.isOf c axis)
  let s := { s with pend := s.pend.filter (fun p => !p.isOf c axis) }
  take.foldl (fun s p => s.rput p.addr (BitVec.ofNat 32 (blend (s.rget p.addr).toNat p.mask p.val))) s

/-- SYS_COMMIT_HOLD holds the class (R17). -/
def State.holds (s : State) (c : Cls) (axis : Nat) : Bool :=
  match c with
  | .lb => s.flag Reg.sysCommitHold_lb
  | .pb => s.flag Reg.sysCommitHold_pb
  | .jb => s.flag Reg.sysCommitHold_jb
  | .mb => bitAt (s.fget Reg.sysCommitHold_mb) axis

/-- A boundary of a class commits, unless the class is held (R16, R17). -/
def State.boundary (s : State) (c : Cls) (axis : Nat) : State := if s.holds c axis then s else s.commit c axis

/-- Apply an operation for each number of a list, in order. -/
def State.each (s : State) (l : List Nat) (f : Nat → State → State) : State := l.foldl (fun s k => f k s) s

end Sys2Proof.Machine
end

