-- ==== Sys2Proof/Machine/Flags.lean ====
section
/-!
DEFINITION. Event records and their staging (R340 to R342, R348 to R350), the reason codes of refusals (R349), and the
latched bits of SAFE causes (R34).
-/

namespace Sys2Proof.Machine

/-- A payload field: `n` bytes of value `v` at byte `o` (22 to 31) of the record (R340). -/
def pf (o n v : Nat) : Nat := v % 256 ^ n * 256 ^ (o - 22)

/-- A signed payload field. -/
def pfI (o n : Nat) (v : Int) : Nat := pf o n (ofInt (8 * n) v)

/-- Line field of a record when nothing else is said (R340): the last LB in a job, all ones outside. -/
def lineNone : Nat := 2 ^ 48 - 1

def State.evLine (s : State) : Nat := if s.running then s.lastLb else lineNone

/-- Places of the staging area that are taken: a record holds its place until its byte 0 is acknowledged (R342). -/
def EvqSt.taken (q : EvqSt) : Nat := q.staged.length + q.flying.length

/-- Places a record of a severity may be put into (R342). -/
def Sev.room : Sev → Nat
  | .info => 16128
  | .warn => 16128
  | .fault => 16368
  | .safe => 16384

/-- A record finds no place: it is counted, and the next record written carries LOST (R342). -/
def State.loseEvent (s : State) : State :=
  (({ s with evq := { s.evq with lost := s.evq.lost + 1 } }).bump Reg.evqCntLost_val 1).fput Reg.evqStat_lost 1

/-- Stage a record (R342): an INFO event of a filtered group is suppressed, a record without a place is discarded. While the
control island is lost no event can be written (R12). -/
def State.stage (s : State) (e : Event) : State :=
  if s.sys.ctlLost then s
  else if e.sev = .info && bitAt (s.fget Reg.evqCtrl_filter) (e.code / 2 ^ 12) then s
  else if s.evq.taken < e.sev.room then { s with evq := { s.evq with staged := s.evq.staged ++ [e] } }
  else s.loseEvent

/-- Raise an event whose line field is given (R340). -/
def State.raiseAt (s : State) (code : Nat) (sev : Sev) (src line pay : Nat) : State :=
  s.stamp.2.stage { code := code, sev := sev, src := src, time := s.stamp.1, line := line, pay := pay }

/-- Raise an event (R340). -/
def State.raise (s : State) (code : Nat) (sev : Sev) (src pay : Nat) : State :=
  s.raiseAt code sev src s.evLine pay

/-- Raise an event whose line field holds the last LB, in a job or not (R217). -/
def State.raiseLb (s : State) (code : Nat) (sev : Sev) (src pay : Nat) : State := s.raiseAt code sev src s.lastLb pay

/-- Code of an access path as the source of REG_REFUSED and CONFLICT (R350). The debug port has none: its refusals raise
no event (R401). -/
def pathNum : Path → Nat
  | .ring => 0
  | .twb => 1
  | .dbg => 2

/-- A refused register or memory write (R349): REG_REFUSED with the reason, and CONFLICT as well for reason 4. A refusal
through the debug port shows in its access register only (R401). -/
def State.regRefused (s : State) (p : Path) (a : Nat) (v : Word) (reason : Nat) : State :=
  if p = .dbg then { s with dbg := { s.dbg with refused := true } }
  else
    let s := s.raise 0x0006 .warn (pathNum p) (pf 22 1 reason + pf 24 4 a + pf 28 4 v.toNat)
    if reason = 4 then s.raise 0x0007 .warn (pathNum p) (pf 22 1 1 + pf 24 4 a) else s

/-- SAFE causes (R34). -/
inductive Cause where
  | image | claim | debug | ext | force | island | clock | supply | therm | ports | motion | lampbus
  deriving DecidableEq, Repr

/-- The bit of a cause in SYS_SAFE_CAUSE and SYS_SAFE_ACTIVE (R34). -/
def Cause.bit : Cause → Nat
  | .image => 0
  | .claim => 1
  | .debug => 2
  | .ext => 3
  | .force => 4
  | .island => 5
  | .clock => 6
  | .supply => 7
  | .therm => 8
  | .ports => 9
  | .motion => 10
  | .lampbus => 11

/-- Latch a cause and mark it present (R34). -/
def State.latchCause (s : State) (c : Cause) : State :=
  let s := s.fput Reg.sysSafeCause_val (putBit (s.fget Reg.sysSafeCause_val) c.bit true)
  s.fput Reg.sysSafeActive_val (putBit (s.fget Reg.sysSafeActive_val) c.bit true)

/-- The condition of a cause is no longer present (R34). -/
def State.clearActive (s : State) (c : Cause) : State :=
  s.fput Reg.sysSafeActive_val (putBit (s.fget Reg.sysSafeActive_val) c.bit false)

/-- The condition of a cause is present. -/
def State.active (s : State) (c : Cause) : Bool := bitAt (s.fget Reg.sysSafeActive_val) c.bit

end Sys2Proof.Machine
end

