-- ==== Sys2Proof/Machine/ClaimOps.lean ====
section
/-!
DEFINITION. Resource claims (R375, R376, R378): who owns which pin, channel, axis and position port, and what the settings
need.
-/

namespace Sys2Proof.Machine

/-- Owner of a resource (R375): axes 0 and 1 belong to the feed once an image is in force. -/
def State.owner (s : State) (cls idx : Nat) : Nat :=
  match s.cfg.claims.find? (fun c => c.cls == cls && c.idx == idx) with
  | some c => c.owner
  | none => 0

/-- What the value of a register needs (R376), as class, index, owner. -/
def needsOf (a w : Nat) : List (Nat × Nat × Nat) :=
  if a = Reg.shdDriftCtrl then (if fld w Reg.shdDriftCtrl_gate ≠ 0 then [(1, fld w Reg.shdDriftCtrl_evi, 4)] else [])
  else if a = Reg.motCtrl then (if fld w Reg.motCtrl_lsrc = 1 then [(1, fld w Reg.motCtrl_levi, 2)] else [])
  else if a = Reg.monSeqCtrl then (if fld w Reg.monSeqCtrl_tsrc = 2 then [(1, fld w Reg.monSeqCtrl_evi, 7)] else [])
  else if a = Reg.nzlCtrl then [(3, fld w Reg.nzlCtrl_expch, 10)]
  else
    match (List.range 4).find? (fun b => Reg.nzlBandCtrl b == a) with
    | some b =>
      if fld w (Reg.nzlBandCtrl_src b) = 2 then [(1, fld w (Reg.nzlBandCtrl_evi b), 5)] else []
    | none =>
      match (List.range 32).find? (fun c => Reg.dmaChCfg c == a) with
      | some c =>
        if fld w (Reg.dmaChCfg_cmode c) = 1 ∧ fld w (Reg.dmaChCfg_evo_en c) = 1 then [(2, fld w (Reg.dmaChCfg_evo c), 8)]
        else []
      | none => []

/-- The registers that R376 names, in address order. -/
def claimRegs : List Nat :=
  (List.range 32).map Reg.dmaChCfg ++ [Reg.shdDriftCtrl, Reg.nzlCtrl] ++ (List.range 4).map Reg.nzlBandCtrl ++
    [Reg.motCtrl, Reg.monSeqCtrl]

/-- What the settings need, in force or pending. -/
def State.settingNeeds (s : State) : List (Nat × Nat × Nat) :=
  claimRegs.flatMap (fun a => needsOf a (s.rget a).toNat ++ needsOf a (s.shadowed a))

/-- A setting's need is met by nobody else's ownership (R378). -/
def State.mayUse (s : State) (n : Nat × Nat × Nat) : Bool :=
  s.owner n.1 n.2.1 == 0 || s.owner n.1 n.2.1 == n.2.2

/-- A register write would use a resource of another owner (R378). -/
def State.claimRefused (s : State) (a w : Nat) : Bool := (needsOf a w).any (fun n => !s.mayUse n)

/-- After a setting has changed (R378): unclaimed resources it needs are claimed, run-time claims that no setting needs are
released; the host's own claims of DMA channels stay. -/
def State.reclaim (s : State) : State :=
  let needs := s.settingNeeds
  let keep := s.cfg.claims.filter (fun c => c.fixed || c.owner == 1 || needs.contains (c.cls, c.idx, c.owner))
  let claims := needs.foldl (fun l n =>
    if l.any (fun c => c.cls == n.1 && c.idx == n.2.1) then l
    else l ++ [{ cls := n.1, idx := n.2.1, owner := n.2.2, fixed := false }]) keep
  { s with cfg := { s.cfg with claims := claims } }

/-- A boundary's commit, after which the claims follow the settings (R16, R378). -/
def State.boundaryClaims (s : State) (c : Cls) : State := (s.boundary c 0).reclaim

/-- The host claims a DMA channel that has no owner (R315, R378). -/
def State.claimChannel (s : State) (c : Nat) : State :=
  if s.owner 3 c = 0 then
    { s with cfg := { s.cfg with claims := s.cfg.claims ++ [{ cls := 3, idx := c, owner := 1, fixed := false }] } }
  else s

/-- CFG_CLAIM_PIN, _AXIS, _POS and _DMA_w (R388). -/
def State.claimWord (s : State) (a : Nat) : Nat :=
  let nib (l : List (Nat × Nat)) : Nat := l.foldl (fun n e => n + e.1 * 2 ^ e.2) 0
  if a = Reg.cfgClaimPin then
    nib ((List.range 4).map (fun g => (s.owner 1 g, 4 * g)) ++ (List.range 4).map (fun k => (s.owner 2 k, 16 + 4 * k)))
  else if a = Reg.cfgClaimAxis then nib ((List.range 8).map (fun x => (s.owner 4 x, 4 * x)))
  else if a = Reg.cfgClaimPos then
    nib ((List.range 4).map (fun n => (s.owner 5 n, 4 * n)) ++ (List.range 4).map (fun n => (s.owner 6 n, 16 + 4 * n)))
  else
    let w := (a - Reg.cfgClaimDma 0) / 4
    nib ((List.range 8).map (fun c => (s.owner 3 (8 * w + c), 4 * c)))

end Sys2Proof.Machine
end

