-- ==== Sys2Proof/Machine/Crc.lean ====
section
/-!
DEFINITION. The cyclic redundancy checks of the device's buses and structures: CRC-8 (R59), CRC-6 (R258), CRC-16 (R108),
CRC-32C (R295, R343, R363).
-/

namespace Sys2Proof.Machine

/-- The low `w` bits of `n`, highest first. -/
def bitsMsb : Nat → Nat → List Bool
  | 0, _ => []
  | w + 1, n => bitAt n w :: bitsMsb w n

/-- One step of a CRC of `w` bits, most significant bit first, with the polynomial's low bits `poly`. -/
def crcStep (w poly r : Nat) (b : Bool) : Nat :=
  let top := bitAt r (w - 1) != b
  let r := r * 2 % 2 ^ w
  if top then r ^^^ poly else r

/-- CRC of a bit string, most significant bit first. -/
def crcBits (w poly init : Nat) (bs : List Bool) : Nat := bs.foldl (crcStep w poly) init

/-- CRC-8, polynomial x^8 + x^2 + x + 1, initial value 0 (R59). -/
def crc8 (bs : List Bool) : Nat := crcBits 8 0x07 0 bs

/-- CRC-16, polynomial 0x1021, initial value 0xFFFF (R108). -/
def crc16 (bs : List Byte) : Nat :=
  bs.foldl (fun r b => crcBits 16 0x1021 r (bitsMsb 8 b.toNat)) 0xFFFF

/-- One bit of the reflected CRC-32C. -/
def crc32cBit (r : Nat) : Nat := if r % 2 = 1 then r / 2 ^^^ 0x82F63B78 else r / 2

/-- One byte of the reflected CRC-32C. -/
def crc32cByte (r : Nat) (b : Byte) : Nat :=
  let r := r ^^^ b.toNat
  crc32cBit (crc32cBit (crc32cBit (crc32cBit (crc32cBit (crc32cBit (crc32cBit (crc32cBit r)))))))

/-- CRC-32C (Castagnoli): reflected, initial value and final exclusive-or all ones. -/
def crc32c (bs : List Byte) : Nat := bs.foldl crc32cByte 0xFFFFFFFF ^^^ 0xFFFFFFFF

end Sys2Proof.Machine
end

