-- ==== Sys2Proof/Machine/VfeOps.lean ====
section
/-!
DEFINITION. Shared operations of the segments and video inputs (chapter 2): required phase period, the segment control
bus, training, no-data taps, start pulses and readouts.
-/

namespace Sys2Proof.Machine

/-- 1200 dpi binned in force (R41). -/
def State.binned (s : State) : Bool := s.flag Reg.pxeFmt_bin

/-- Readout clocks (R41). -/
def State.nRead (s : State) : Nat := if s.binned then 652 else 1292

/-- Required phase period of segment `k` at `khz`, in 10 ns (R43). -/
def State.reqAt (s : State) (k khz : Nat) : Nat :=
  ceilDiv ((s.fget (Reg.vfeSegTiming_sp_w k) + s.fget (Reg.vfeSegTiming_xfer k) + s.nRead +
    s.fget (Reg.vfeSegTiming_guard k) + 1) * 100000) khz

/-- Required phase period of segment `k`, in 10 ns (R43). -/
def State.req (s : State) (k : Nat) : Nat := s.reqAt k (s.fget (Reg.vfeSegClk_khz k))

/-- The enabled segments. -/
def State.enabledSegs (s : State) : List Nat := (List.range 64).filter s.segEn

/-- Largest required period over the enabled segments (R43). -/
def State.reqMax (s : State) : Nat := s.enabledSegs.foldl (fun m k => max m (s.req k)) 0

/-- Segment `k` delivers video: enabled, identified, its island not lost (R12, R40, R60). -/
def State.segLive (s : State) (k : Nat) : Bool :=
  s.segEn k && s.segPresent k && s.alive k && !tget (fun _ => false) s.vfe.lostSeg k

/-- Segment `k` is in voltage mode (R55). -/
def State.inVolt (s : State) (k : Nat) : Bool := s.fget (Reg.vfeSegStat_state k) == 3

/-- Every sample of the tap is no-data (R51, R54, R55, R57). In voltage mode only the switch's own check and later breaks
count: a tap marked in current mode delivers data there, also when a later JOB_START finds the segment still in voltage mode
with FBK = 0b00 (DESIGN CHOICE, log entry 48: R55 gives that case only for a segment in current mode). -/
def State.tapDead (s : State) (k t : Nat) : Bool :=
  !s.segLive k ||
    (if s.inVolt k then tget (fun _ => false) s.vfe.vbad (4 * k + t)
     else decide (2 ≤ s.fget (Reg.vfeTapTrain_result k t)))

/-- Taps marked FAIL or BROKEN, as the value of VFE_TAP_BAD_n (R64). -/
def State.tapBad (s : State) (i : Nat) : Bool := decide (2 ≤ s.fget (Reg.vfeTapTrain_result (i / 4) (i % 4)))

/-- Bits of the frame that its check covers: address, direction, register, and the data of a write (R59). -/
def ScbFrame.bits (f : ScbFrame) : List Bool :=
  bitsMsb 5 f.addr ++ [f.rd] ++ bitsMsb 8 f.reg ++ (if f.rd then [] else bitsMsb 16 f.data)

/-- Put a frame on the bus (R59); a broadcast write gets no status and ends with the frame. -/
def State.scbStart (s : State) (b : Nat) (f : ScbFrame) : State :=
  let s := s.out (.scb b f.addr f.rd f.reg f.data (crc8 f.bits))
  let bus := tget (fun _ => ScbBus.init) s.vfe.scb b
  if f.addr = 31 then
    if f.host then s.fput (Reg.vfeScbStat_done b) 1 else s
  else
    ({ s with
      vfe := { s.vfe with
        scb := tput (fun _ => ScbBus.init) s.vfe.scb b { bus with cur := some f, waiting := false } } }).fput
      (Reg.vfeScbStat_busy b) 1

/-- The bus is free: the device's next waiting frame starts (R62); broadcasts in front of it go out at once. -/
def State.scbNext (s : State) (b : Nat) : List ScbFrame → State
  | [] =>
    ({ s with vfe := { s.vfe with scb := tput (fun _ => ScbBus.init) s.vfe.scb b ScbBus.init } }).fput
      (Reg.vfeScbStat_busy b) 0
  | f :: r =>
    let s := { s with
      vfe := { s.vfe with scb := tput (fun _ => ScbBus.init) s.vfe.scb b { ScbBus.init with queue := r } } }
    if f.addr = 31 then (s.scbStart b f).scbNext b r else s.scbStart b f

/-- A frame of the device's own is sent, or waits for the frame in progress (R62). -/
def State.scbOwn (s : State) (b : Nat) (f : ScbFrame) : State :=
  let bus := tget (fun _ => ScbBus.init) s.vfe.scb b
  if bus.cur.isSome then
    { s with
      vfe := { s.vfe with scb := tput (fun _ => ScbBus.init) s.vfe.scb b { bus with queue := bus.queue ++ [f] } } }
  else s.scbStart b f

/-- A write of the segment's MODE register by the device (R61): TEST, BIN, VM. -/
def State.segMode (s : State) (k test : Nat) (bin vm : Bool) : State :=
  let v := test * 16 + b2n bin * 2 + b2n vm
  ({ s with vfe := { s.vfe with mode := tput (fun _ => 1) s.vfe.mode k v } }).scbOwn (k / 16)
    { addr := k % 16, rd := false, reg := 3, data := v, host := false }

/-- What the check of a segment's taps will show once its write of MODE.VM is acknowledged (R57). -/
def State.switching (s : State) (k : Nat) : Option (List Bool) := tget (fun _ => none) s.vfe.switch k

/-- The device's own write of a MODE register (R57, R61). -/
def ScbFrame.forSwitch (f : ScbFrame) : Bool := !f.host && !f.rd && f.reg == 3

/-- A segment is treated as one that did not answer identification (R60, R63). -/
def State.segAbsent (s : State) (k : Nat) : State :=
  let s := s.wput Reg.vfeSegPresent0 (putBit (s.wget Reg.vfeSegPresent0) k false)
  if s.segEn k then s.fput (Reg.vfeSegStat_state k) 1 else s

/-- A frame's repeats are exhausted (R60): SCB_FAIL, and the segment counts as one that did not answer. -/
def State.scbGiveUp (s : State) (b : Nat) (f : ScbFrame) (status : Nat) : State :=
  let k := 16 * b + f.addr
  let s := s.fput (Reg.vfeSegStat_scb_fail k) 1
  (s.raise 0x5005 .fault k (pf 22 1 f.reg + pf 23 1 status)).segAbsent k

/-- The frame in progress ends; a host frame shows DONE, and ERR when it ended in error (R60, R62). -/
def State.scbEnd (s : State) (b : Nat) (f : ScbFrame) (err : Bool) (rest : List ScbFrame) : State :=
  let s := if f.host then s.fput (Reg.vfeScbStat_done b) 1 else s
  let s := if f.host && err then s.fput (Reg.vfeScbStat_err b) 1 else s
  s.scbNext b rest

/-- Repeat the frame (R60), at most 3 times. -/
def State.scbRepeat (s : State) (b : Nat) (bus : ScbBus) (f : ScbFrame) (status : Nat) : State :=
  if bus.repeats < 3 then
    let s := { s with
      vfe := { s.vfe with
        scb := tput (fun _ => ScbBus.init) s.vfe.scb b { bus with repeats := bus.repeats + 1 } } }
    (s.fput (Reg.vfeScbStat_tries b) (bus.repeats + 1)).scbStart b f
  else (s.scbGiveUp b f status).scbEnd b f true bus.queue

/-- The device's reaction to a reply (R60). `good` says that the check of a read's reply is correct. -/
def State.scbReply (s : State) (b status data : Nat) (good : Bool) : State :=
  let bus := tget (fun _ => ScbBus.init) s.vfe.scb b
  match bus.cur with
  | none => s
  | some f =>
    if bus.waiting then s
    else
      let s := (s.fput (Reg.vfeScbStat_st b) status).fput (Reg.vfeScbStat_tries b) bus.repeats
      if status = 0b1010 ∧ (!f.rd || good) = true then
        let s := if f.rd then s.fput (Reg.vfeScbData_data b) data else s
        s.scbEnd b f false bus.queue
      else if status = 0b0110 then
        let s := s.raise 0x5006 .warn (16 * b + f.addr) (pf 22 1 f.reg + pf 23 1 status)
        let s := if f.forSwitch && (s.switching (16 * b + f.addr)).isSome then s.segAbsent (16 * b + f.addr) else s
        s.scbEnd b f true bus.queue
      else if status = 0b0011 then
        if bus.busies < 100 then
          { s with
            vfe := { s.vfe with
              scb := tput (fun _ => ScbBus.init) s.vfe.scb b { bus with busies := bus.busies + 1, waiting := true } } }
        else (s.scbGiveUp b f status).scbEnd b f true bus.queue
      else s.scbRepeat b bus f status

/-- A run of consecutive points at or above 400 per mille: first and last index, the widest one, the first of equals. -/
def widestEye (l : List Nat) : Option (Nat × Nat) :=
  let fin (acc : Option (Nat × Nat) × Option Nat) (i : Nat) : Option (Nat × Nat) :=
    match acc.2 with
    | none => acc.1
    | some a =>
      match acc.1 with
      | none => some (a, i - 1)
      | some (x, y) => if y - x < i - 1 - a then some (a, i - 1) else some (x, y)
  let r := l.foldl (fun (st : (Option (Nat × Nat) × Option Nat) × Nat) h =>
    if 400 ≤ h then ((st.1.1, some (st.1.2.getD st.2)), st.2 + 1)
    else ((fin st.1 st.2, none), st.2 + 1)) ((none, none), 0)
  fin r.1 r.2

/-- `n` bits of the register of x^7 + x^6 + 1 from its content `r` on (R51): the stage x^7 is sent (DEDUCED, log entry 49). -/
def prbsFrom : Nat → Nat → List Bool
  | 0, _ => []
  | n + 1, r => bitAt r 6 :: prbsFrom n (r * 2 % 128 + b2n (bitAt r 6 != bitAt r 5))

/-- The bits of the two readouts of a training point (R50, R51): each readout starts with the seed at clock 12. -/
def prbsBits : List Bool := prbsFrom 1280 127 ++ prbsFrom 1280 127

/-- Eye height of a point in per mille (R51): the lowest sample of the 1 bits less the highest of the 0 bits, over the
difference of the mean levels, rounded down (DESIGN CHOICE, log entry 49); 0 when negative or when a level is missing. -/
def eyeHeight (samples : List Nat) : Nat :=
  let z := samples.zip prbsBits
  let hi := (z.filter (·.2)).map (·.1)
  let lo := (z.filter (fun x => !x.2)).map (·.1)
  match hi, lo with
  | a :: _, b :: _ =>
    let least := hi.foldl min a
    let most := lo.foldl max b
    let d := hi.foldl (· + ·) 0 * lo.length - lo.foldl (· + ·) 0 * hi.length
    if least ≤ most ∨ d = 0 then 0 else (least - most) * 1000 * hi.length * lo.length / d
  | _, _ => 0

/-- Result of one tap's training (R50, R51): EQ and DLY in 1/64 clock when an eye was found, height, width, pass. -/
structure Trained where
  eq : Nat
  dly : Option Nat
  h : Nat
  w : Nat
  pass : Bool
  deriving DecidableEq, Repr

/-- A sweep's heights with the points outside the DLY range of 0 to 511/64 counted 0 (R50). -/
def inRange (start step : Int) (l : List Nat) : List Nat :=
  (List.range l.length).map (fun (i : Nat) =>
    let d := start + step * (i : Int)
    if 0 ≤ d ∧ d ≤ 511 then l.getD i 0 else 0)

/-- Evaluate the sweeps of one tap (R50, R51). A sweep without an eye fails the tap: after the coarse and the fine sweeps EQ
is 8, after the final one the EQ chosen; DLY stays, and height and width show 0 (DESIGN CHOICE, log entry 50: the spec gives no
values for a tap without an eye). -/
def trainTap (t : TapTrain) : Trained :=
  let coarse := t.coarse.map eyeHeight
  match widestEye (coarse.take 64) with
  | none => { eq := 8, dly := none, h := 0, w := 0, pass := false }
  | some (a, b) =>
    let start : Int := 4 * ((a + b : Nat) : Int) - 64
    let eyes := (List.range 16).map (fun e => widestEye (inRange start 4 (((t.fine.getD e []).take 32).map eyeHeight)))
    let best := (List.range 16).foldl (fun (m : Option (Nat × Nat × Nat)) e =>
      match eyes.getD e none with
      | none => m
      | some (x, y) =>
        match m with
        | none => some (e, x, y)
        | some (e', x', y') => if y' - x' < y - x then some (e, x, y) else some (e', x', y')) none
    match best with
    | none => { eq := 8, dly := none, h := 0, w := 0, pass := false }
    | some (e, x, y) =>
      let fs : Int := start + 2 * ((x + y : Nat) : Int) - 32
      let l := inRange fs 1 ((t.final.take 64).map eyeHeight)
      match widestEye l with
      | none => { eq := e, dly := none, h := 0, w := 0, pass := false }
      | some (p, q) =>
        let d := (fs + ((p + q) / 2 : Nat)).toNat
        let h := l.getD ((p + q) / 2) 0
        { eq := e, dly := some d, h := h, w := q - p, pass := decide (400 ≤ h ∧ 22 ≤ q - p) }

/-- VFE_TAP_s_t_LOOP shows a tap's lower leg over the last readout (R64): its mean loop current in µA, in voltage mode its common
mode in mV. -/
def State.showLoop (s : State) (k t ua : Nat) : State := s.fput (Reg.vfeTapLoop_loop_ua k t) ua

/-- The same of the taps of a segment, from tap 0 on. -/
def State.showLoops (s : State) (k : Nat) (l : List Nat) : State :=
  s.each (List.range (min 4 l.length)) (fun t s => s.showLoop k t (l.getD t 0))

/-- One tap's training result takes force (R50, R51, R55). -/
def State.setTrained (s : State) (t : TapTrain) : State :=
  let r := trainTap t
  let k := t.seg.val
  let n := t.tap.val
  let s := (s.showLoop k n t.loopUa).fput (Reg.vfeTapRx_eq k n) r.eq
  let s := match r.dly with
    | some d => (s.fput (Reg.vfeTapRx_dly_clk k n) (d / 64)).fput (Reg.vfeTapRx_dly_frac k n) (d % 64)
    | none => s
  let s := (s.fput (Reg.vfeTapTrain_eye_h k n) r.h).fput (Reg.vfeTapTrain_eye_w k n) r.w
  if r.pass then s.fput (Reg.vfeTapTrain_result k n) 1
  else
    (s.fput (Reg.vfeTapTrain_result k n) 2).raise 0x5002 .fault (4 * k + n) (pf 24 2 r.h + pf 26 1 r.w)

/-- Training begins (R50): segments in current mode at their configured KHZ, PRBS-7. A fallback ends here (R57). The configured
KHZ of a segment in fallback is the one before it, also when the host has written KHZ meanwhile (DESIGN CHOICE, log entry 90). -/
def State.trainBegin (s : State) : State :=
  let s := s.fput Reg.vfeStat_busy 1
  let s := { s with vfe := { s.vfe with vbad := [], toVolt := [], switch := [], switchLoop := [] } }
  s.each (s.enabledSegs.filter s.segPresent) (fun k s =>
    let s := match tget (fun _ => 0) s.vfe.khz0 k with
      | 0 => s
      | khz => s.fput (Reg.vfeSegClk_khz k) khz
    let s := { s with vfe := { s.vfe with khz0 := tput (fun _ => 0) s.vfe.khz0 k 0 } }
    ((s.fput (Reg.vfeSegStat_fallback k) 0).fput (Reg.vfeSegStat_state k) 2).segMode k 2 false false)

/-- Training ends (R50, R51). Only taps of enabled, present segments take part. -/
def State.trainEnd (s : State) (taps : List TapTrain) : State :=
  let live := taps.filter (fun t => s.segEn t.seg.val && s.segPresent t.seg.val)
  let s := live.foldl State.setTrained s
  let failed := (live.filter (fun t => !(trainTap t).pass)).length
  let s := s.each (s.enabledSegs.filter s.segPresent) (fun k s => s.segMode k 0 s.binned false)
  ((s.fput Reg.vfeStat_busy 0).fput Reg.vfeStat_done 1).raise 0x5001 .info 0 (pf 22 1 (min failed 255))

/-- Working slices of a group; the spare's local number equals it (R65). -/
def spareOf (g : Nat) : Nat := if g = 64 then 2 else 8

/-- Physical number of local slice `l` of group `g` (R65). -/
def sliceNo (g l : Nat) : Nat := 9 * g + l

/-- Role a slice serves, 15 when off-line (R91). -/
def State.roleOf (s : State) (g l : Nat) : Nat := s.fget (Reg.adcSliceStat_role (sliceNo g l))

/-- Local number of the slice that serves a role, `none` for a lost role (R66). -/
def State.serving (s : State) (g r : Nat) : Option Nat :=
  (List.range (spareOf g + 1)).find? (fun l => s.roleOf g l == r)

/-- The assignment of a group: for every role the slice serving it. -/
def State.assignment (s : State) (g : Nat) : List (Option Nat) := (List.range (spareOf g)).map (s.serving g)

/-- Time from a start pulse to the first clock of its readout, in ns (R44). -/
def State.readDelay (s : State) (k : Nat) : Nat :=
  (s.fget (Reg.vfeSegTiming_sp_w k) + s.fget (Reg.vfeSegTiming_xfer k)) * 1000000 / s.fget (Reg.vfeSegClk_khz k)

/-- A start pulse (R42): every live segment whose clocks run begins the readout of the charge integrated so far, under the
assignment that now stands (R75); `next` is what it integrates from now on. -/
def State.startPulse (s : State) (next : Charge) : State :=
  let s :=
    if s.vfe.clocks then
      s.each ((List.range 64).filter s.segLive) (fun k s =>
        { s with
          vfe := { s.vfe with
            reads := tput (fun _ => []) s.vfe.reads k (tget (fun _ => []) s.vfe.reads k ++
              [{ charge := s.vfe.charge, slices := s.assignment k }])
            pulse := tput (fun _ => 0) s.vfe.pulse k (s.sys.now + s.readDelay k) } })
    else s
  { s with vfe := { s.vfe with charge := next } }

/-- Start pulses whose readout has not begun are abandoned without it when the clocks are to stop (R45). -/
def State.abandonPulses (s : State) : State :=
  s.each (List.range 64) (fun k s =>
    if s.sys.now < tget (fun _ => 0) s.vfe.pulse k then
      { s with
        vfe := { s.vfe with
          reads := tput (fun _ => []) s.vfe.reads k (tget (fun _ => []) s.vfe.reads k).dropLast
          pulse := tput (fun _ => 0) s.vfe.pulse k 0 } }
    else s)

/-- The segment clocks stop after the readouts whose start pulses have been given (R45, R36, R434). -/
def State.stopClocks (s : State) : State :=
  if s.vfe.reads = [] then { s with vfe := { s.vfe with clocks := false, stopping := false, charge := .idle } }
  else { s with vfe := { s.vfe with stopping := true } }

/-- A readout has ended: the clocks stop when that was awaited and none is left (R45). -/
def State.readEnded (s : State) : State :=
  if s.vfe.stopping && s.vfe.reads == [] then
    { s with vfe := { s.vfe with clocks := false, stopping := false, charge := .idle } }
  else s

/-- A leg's loop current in µA lies outside the segment's window, in voltage mode its common mode in mV outside 0.2 V to 1.0 V
(R53). -/
def State.loopOutside (s : State) (k ua : Nat) : Bool :=
  if s.inVolt k then decide (ua < 200) || decide (1000 < ua)
  else decide (ua < s.fget (Reg.vfeSegLoopwin_lo k)) || decide (s.fget (Reg.vfeSegLoopwin_hi k) < ua)

/-- A tap's loop is declared broken (R53). Of a tap that was no-data already, no sample of the readout in progress comes back
(R55). -/
def State.markBroken (s : State) (k t : Nat) (leg : Bool) (ua sample : Nat) : State :=
  let s := { s with
    vfe := { s.vfe with
      cutAt := if tget (fun _ => []) s.vfe.reads k = [] ∨ s.tapDead k t = true then s.vfe.cutAt
        else tput (fun _ => none) s.vfe.cutAt (4 * k + t) (some sample)
      vbad := if s.inVolt k then tput (fun _ => false) s.vfe.vbad (4 * k + t) true else s.vfe.vbad } }
  let s := s.fput (Reg.vfeTapTrain_result k t) 3
  let s := s.bump (Reg.vfeTapLoop_breaks k t) 1
  let s := s.fput (Reg.vfeTapLoop_loop_ua k t) ua
  s.raise 0x5003 .fault (4 * k + t) (pf 22 1 (b2n leg) + pf 24 2 ua)

end Sys2Proof.Machine
end

