-- ==== Sys2Proof/Machine/AdcOps.lean ====
section
/-!
DEFINITION. Shared operations of the pipeline converters (chapter 3): slice correction, calibration results, in-service
checks, declaration of a faulty slice, hand-over points, quality figures.
-/

namespace Sys2Proof.Machine

/-- Group and local number of slice `n` (R65). -/
def groupOf (n : Nat) : Nat := n / 9
def localOf (n : Nat) : Nat := n % 9

def State.grp (s : State) (g : Nat) : Grp := tget (fun _ => Grp.init) s.adc.grp g

def State.setGrp (s : State) (g : Nat) (x : Grp) : State :=
  { s with adc := { s.adc with grp := tput (fun _ => Grp.init) s.adc.grp g x } }

def State.setRole (s : State) (g l r : Nat) : State := s.fput (Reg.adcSliceStat_role (sliceNo g l)) r

/-- A slice is declared faulty (R91). -/
def State.isFaulty (s : State) (g l : Nat) : Bool := s.fget (Reg.adcSliceStat_state (sliceNo g l)) == 1

/-- The converter correction of a raw code, in 1/4 LSB (R68). -/
def correct (ofs gain : Int) (c : Nat) : Nat :=
  let t : Int := (c : Int) * 16 - ofs
  let u : Int := t * (1048576 + gain)
  (clampI 0 65535 ((u + 2097152).fdiv 4194304)).toNat

/-- The corrected value of a raw code through slice `n`. -/
def State.correctBy (s : State) (n c : Nat) : Nat :=
  correct (s.fgetI (Reg.adcSliceOfs_ofs n)) (s.fgetI (Reg.adcSliceGain_gain n)) c

/-- What a calibration computes (R71): new values, residuals in the registers' units, and whether the residuals break
the verification limits of R72. -/
structure CalRes where
  ofs : Int
  gain : Int
  skew : Int
  resOfs : Int
  resGain : Int
  resSkew : Int
  verBad : Bool
  gainOpen : Bool
  deriving DecidableEq, Repr

/-- The arithmetic of R71 on the sample sums, taken exactly: m1 and m2 are not rounded to 1/16 LSB first (DESIGN CHOICE, log
entry 51). A gain that has no value (both levels read alike) counts as out of
range. -/
def calCompute (m : CalMeas) (skewOld : Int) : CalRes :=
  let n : Int := 4096 * 14336
  let d : Int := (m.l2 : Int) - m.l1
  let e : Int := (m.r2 : Int) - m.r1
  let n2 : Int := 8192 * 14336
  let ro : Int := (m.r1 : Int) * 14336 - e * 1024
  { ofs := divAway (16 * ((m.l1 : Int) * 14336 - d * 1024)) n
    gain := if d = 0 then 0 else if d < 0 then divAway (1048576 * (d - n)) (-d) else divAway (1048576 * (n - d)) d
    skew := skewOld - divAway (2 * ((m.ramp : Int) - 8192 * 16384)) 16384
    resOfs := divAway (16 * ro) n2
    resGain := divAway (1000000 * (e - n2)) n2
    resSkew := divAway (10 * ((m.rr : Int) - 8192 * 8192)) 8192
    verBad := decide (ro.natAbs > n2.natAbs) || decide ((e - n2).natAbs * 10000 > n2.natAbs) ||
      decide (((m.rr : Int) - 8192 * 8192).natAbs > 8192)
    gainOpen := decide (d = 0) }

/-- Value fits a signed field of `w` bits. -/
def fitsI (w : Nat) (v : Int) : Bool := decide (-(2 ^ (w - 1) : Nat) ≤ v ∧ v < (2 ^ (w - 1) : Nat))

/-- The checks of R72 as the mask of CAL_REJECT byte 22; the step checks apply in rotation only. -/
def State.calChecks (s : State) (n : Nat) (r : CalRes) (steps : Bool) : Nat :=
  let far (a b : Int) (lim : Nat) := steps && decide ((a - b).natAbs > lim)
  b2n (far r.ofs (s.fgetI (Reg.adcSliceOfs_ofs n)) 1024) +
  2 * b2n (far r.gain (s.fgetI (Reg.adcSliceGain_gain n)) 5243) +
  4 * b2n (far r.skew (s.fgetI (Reg.adcSliceSkew_skew n)) 8) +
  8 * b2n (r.gainOpen || !(fitsI 16 r.ofs && fitsI 16 r.gain && fitsI 10 r.skew)) +
  16 * b2n r.verBad

/-- Line whose readout the next start pulse begins: that of the charge now integrating (R42), none outside a job. -/
def State.nextReadLine (s : State) : Nat :=
  match s.vfe.charge with
  | .line n _ => if s.running then n else lineNone
  | _ => if s.running then s.seq.next else lineNone

/-- The line that an event of a group names for the next hand-over (R90): group 64 converts no line (DESIGN CHOICE, log entry
54). -/
def State.groupLine (s : State) (g : Nat) : Nat := if g = 64 then lineNone else s.nextReadLine

/-- MODE of a group from its slices (R81, R84, R91). -/
def State.groupMode (s : State) (g : Nat) : Nat :=
  if (List.range (spareOf g)).any (fun r => (s.serving g r).isNone) then 2
  else if (List.range (spareOf g + 1)).any (s.isFaulty g) then 1
  else 0

/-- Show a group's mode; a powered-down group stays so (R78). -/
def State.showMode (s : State) (g : Nat) : State :=
  if s.fget (Reg.adcGrpStat_mode g) = 3 then s else s.fput (Reg.adcGrpStat_mode g) (s.groupMode g)

/-- 10^k as used by the logarithms below. -/
def pow10 (k : Nat) : Nat := 10 ^ k

/-- Largest `v` in `lo` … `lo + 2^n − 1` with `10^(2v − 1) ≤ (num / den)^200`: 100 times the decimal logarithm of a
ratio, rounded to nearest, by bisection. -/
def log100Search (num den : Nat) : Nat → Int → Int
  | 0, lo => lo
  | n + 1, lo =>
    let mid := lo + (2 ^ n : Nat)
    let e := 2 * mid - 1
    let ok := if 0 ≤ e then decide (pow10 e.toNat * den ≤ num) else decide (den ≤ num * pow10 (-e).toNat)
    if ok then log100Search num den n mid else log100Search num den n lo

/-- 20 log10 of the square root of `num / den`, in 0.1 dB, rounded, not below −150.0 dB (R88). -/
def decibel (num den : Nat) : Int :=
  if num = 0 then -1500 else max (-1500) (log100Search (num ^ 200) (den ^ 200) 12 (-2048))

/-- π scaled by 10^40. -/
def pi40 : Nat := 31415926535897932384626433832795028841972

/-- Interleave spur in 0.1 dB (R88) from the differences of the residuals in the registers' units (1/16 LSB, ppm,
0.05 ps) and the pixel clock in kHz. -/
def spurOf (dofs dgain dskew : Int) (khz : Nat) : Int :=
  let o := decibel (dofs.natAbs ^ 2) (262144 ^ 2)
  -- (dg / 2)^2 + (pi f dt)^2 with dg = dgain 10^-6, f = khz 10^3 / 4, dt = dskew 5 10^-14; over (10^60)^2
  let a := dgain.natAbs * 5 * 10 ^ 53
  let b := pi40 * khz * dskew.natAbs * 125 * 10 ^ 7
  let i := decibel (a ^ 2 + b ^ 2) ((10 ^ 60) ^ 2)
  max o i

/-- Recompute a pair's figures (R88) and raise SPUR_HIGH or SPUR_CLEAR (R89). What R88 leaves open the model settles (DESIGN
CHOICE, log entry 92): halves of the mean residuals round away from zero, f_pix of group 64's pair is 25 MHz, and the figures
stay as they were while a role of the pair is lost. -/
def State.updateSpur (s : State) (g t : Nat) : State :=
  match s.serving g (2 * t), s.serving g (2 * t + 1) with
  | some a, some b =>
    let x := sliceNo g a
    let y := sliceNo g b
    let ox := s.fgetI (Reg.adcSliceRes_offset x)
    let oy := s.fgetI (Reg.adcSliceRes_offset y)
    let gx := s.fgetI (Reg.adcSliceRes_gain x)
    let gy := s.fgetI (Reg.adcSliceRes_gain y)
    let khz := if g = 64 then 25000 else s.fget (Reg.vfeSegClk_khz g)
    let v := spurOf (ox - oy) (gx - gy)
      (s.fgetI (Reg.adcSliceResSkew_skew x) - s.fgetI (Reg.adcSliceResSkew_skew y)) khz
    let s := s.fputI (Reg.adcGrpPairQ0_res_ofs g t) (divAway (ox + oy) 2)
    let s := s.fputI (Reg.adcGrpPairQ0_spur g t) v
    let s := s.fputI (Reg.adcGrpPairQ1_res_gain g t) (divAway (gx + gy) 2)
    let lim := s.fget Reg.adcCtrl_spur_lim
    let high := tget (fun _ => false) s.adc.spurHigh (4 * g + t)
    if lim = 0 then s
    else if !high && decide (v > -(10 * (lim : Int))) then
      let s := { s with adc := { s.adc with spurHigh := tput (fun _ => false) s.adc.spurHigh (4 * g + t) true } }
      s.raise 0x6005 .warn g (pf 22 1 t + pfI 24 2 v)
    else if high && decide (v ≤ -(10 * (lim : Int)) - 30) then
      let s := { s with adc := { s.adc with spurHigh := tput (fun _ => false) s.adc.spurHigh (4 * g + t) false } }
      s.raise 0x6006 .info g (pf 22 1 t + pfI 24 2 v)
    else s
  | _, _ => s

/-- Recompute the pairs of a group whose serving slices changed between two states (R88). -/
def State.updateSpurs (s : State) (g : Nat) (before : List (Option Nat)) : State :=
  s.each ((List.range (spareOf g / 2)).filter (fun t =>
    before.getD (2 * t) none != s.serving g (2 * t) || before.getD (2 * t + 1) none != s.serving g (2 * t + 1)))
    (fun t s => s.updateSpur g t)

/-- The spare of a group can take a role: not faulty, not substituting, and no declared slice waits for it (R84). -/
def State.spareUsable (s : State) (g : Nat) : Bool :=
  !s.isFaulty g (spareOf g) && s.fget (Reg.adcGrpStat_sub g) == 15 &&
    (s.grp g).faults.all (fun l => l == spareOf g)

/-- A slice is declared faulty (R73, R80): SLICE_FAULTY, and its hand-over waits for the next hand-over point; a slice
that is off-line is settled at once, where the spare that serves its role may keep it (R81 case 3): a spare that is faulty or
that another declared slice gets may not. An off-line spare has no role: byte 23 is 0xFF; and the line field names the line of
the next hand-over point also when no substitute takes over (DESIGN CHOICE, log entry 91). -/
def State.declare (s : State) (g l cause first : Nat) : State :=
  let n := sliceNo g l
  let w := spareOf g
  let role := s.roleOf g l
  let usable := s.spareUsable g
  let stays := l != w && role == 15 && usable && (s.serving g l).isSome
  let taker :=
    if l = w then (if role = 15 then 255 else if s.isFaulty g role then 255 else role)
    else if role = 15 then (if stays then w else 255)
    else if usable then w else 255
  let s := s.fput (Reg.adcSliceStat_state n) 1
  let s := s.raiseAt 0x6002 .fault n (s.groupLine g) (pf 22 1 cause + pf 23 1 taker + pf 24 6 first)
  let G := s.grp g
  let G := { G with cal := if G.cal = some l then none else G.cal, acc := if G.cal = some l then false else G.acc }
  if role = 15 then
    let s := s.setGrp g G
    let s := if stays then s.fput (Reg.adcGrpStat_sub g) l else s
    s.showMode g
  else s.setGrp g { G with faults := (G.faults ++ [l]).mergeSort (fun a b => decide (a ≤ b)) }

/-- Hand over the role of one declared slice (R81, R84, R85). The slice whose role the spare leaves takes it back, unless it has
been declared faulty meanwhile: its role is then lost (R84). -/
def State.handFault (s : State) (g l : Nat) : State :=
  let w := spareOf g
  let role := s.roleOf g l
  let spareRole := s.roleOf g w
  let noCal (s : State) : State := s.setGrp g { s.grp g with cal := none, acc := false }
  if l = w then
    let s := (s.setRole g w 15).fput (Reg.adcGrpStat_state g) w
    if role = 15 then s.showMode g
    else if s.isFaulty g role then
      ((s.fput (Reg.adcGrpStat_sub g) 15).raise 0x6003 .fault (sliceNo g w) (pf 22 1 role + pf 24 6 (s.groupLine g))).showMode g
    else (noCal (s.setRole g role role)).showMode g
  else if !s.isFaulty g w && s.fget (Reg.adcGrpStat_sub g) == 15 then
    let s :=
      if spareRole = 15 then s
      else if s.isFaulty g spareRole then
        s.raise 0x6003 .fault (sliceNo g spareRole) (pf 22 1 spareRole + pf 24 6 (s.groupLine g))
      else s.setRole g spareRole spareRole
    let s := ((s.setRole g l 15).setRole g w role).fput (Reg.adcGrpStat_sub g) l
    (noCal s).showMode g
  else
    let s := s.setRole g l 15
    (s.raise 0x6003 .fault (sliceNo g l) (pf 22 1 role + pf 24 6 (s.groupLine g))).showMode g

/-- A retested slice takes its role back (R86). A group whose spare is then off-line stands in state 8, and calibrates it
unless it is faulty. -/
def State.handBack (s : State) (g l : Nat) : State :=
  let w := spareOf g
  let s :=
    if l = w then s
    else if s.fget (Reg.adcGrpStat_sub g) = l then
      ((s.setRole g w 15).setRole g l l).fput (Reg.adcGrpStat_sub g) 15
    else s.setRole g l l
  let s := s.showMode g
  if s.roleOf g w ≠ 15 then s
  else
    (s.fput (Reg.adcGrpStat_state g) w).setGrp g
      { s.grp g with cal := if s.isFaulty g w then none else some w, acc := false }

/-- Return a group to state 8 (2 in group 64): every working slice serves its home role (R74, R87). -/
def State.toHome (s : State) (g : Nat) : State :=
  let w := spareOf g
  let k := s.roleOf g w
  let s := if k = 15 ∨ s.isFaulty g k then s else (s.setRole g w 15).setRole g k k
  s.fput (Reg.adcGrpStat_state g) w

/-- Move a rotating group to a state (R74, R87): the spare serves role `k`, or is off-line for the last state. -/
def State.toState (s : State) (g k : Nat) : State :=
  let w := spareOf g
  let s := s.toHome g
  let s := if k = w then s else ((s.setRole g k 15).setRole g w k).fput (Reg.adcGrpStat_state g) k
  let s := s.bump (Reg.adcGrpStat_steps g) 1
  s.setGrp g { s.grp g with cal := some k, acc := false, since := 0 }

/-- A group rotates: its spare and all its slices are sound, it is not powered down (R74, R78). -/
def State.rotates (s : State) (g : Nat) : Bool :=
  s.fget (Reg.adcGrpStat_mode g) == 0 && (List.range (spareOf g + 1)).all (fun l => !s.isFaulty g l)

/-- State the next step leads to (R74, R87). -/
def State.nextState (s : State) (g : Nat) : Nat :=
  let k := s.fget (Reg.adcGrpStat_state g)
  if s.flag (Reg.adcGrpCtrl_park_en g) then s.fget (Reg.adcGrpCtrl_park g)
  else if k = spareOf g then 0 else k + 1

/-- A hand-over point of a group (R75, R81, R84, R86, R87); none during its start-up calibration (R77). `due` says
that the phases (or the time) since the last step
allow one. -/
def State.handOver (s : State) (g : Nat) (due : Bool) : State :=
  if s.fget (Reg.adcGrpStat_mode g) = 3 ∨ (s.grp g).startup ≠ [] then s
  else
    let before := s.assignment g
    let faults := (s.grp g).faults
    let back := (s.grp g).back
    let s := s.setGrp g { s.grp g with faults := [], back := [] }
    let s := s.each faults (fun l s => s.handFault g l)
    let s := s.each back (fun l s => s.handBack g l)
    let s :=
      if s.flag Reg.adcCtrl_freeze then
        if s.rotates g then (s.toHome g).setGrp g { s.grp g with cal := none, acc := false } else s
      else if s.rotates g && (s.grp g).acc && due then
        if s.flag (Reg.adcGrpCtrl_park_en g) && s.fget (Reg.adcGrpStat_state g) == s.fget (Reg.adcGrpCtrl_park g) then
          s.setGrp g { s.grp g with acc := false, since := 0 }
        else s.toState g (s.nextState g)
      else if s.rotates g && (s.grp g).cal.isNone then
        s.setGrp g { s.grp g with cal := some (s.fget (Reg.adcGrpStat_state g)), acc := false }
      else s
    s.updateSpurs g before

/-- A phase-start request as the hand-over point of every group of an enabled segment, present or not (R75); a powered-down
group has none (R78). `phase` is false for the closing start pulse, which does not count as a phase (R434). -/
def State.handOverSegs (s : State) (phase : Bool) : State :=
  s.each s.enabledSegs (fun g s =>
    let G := s.grp g
    let s := if phase then s.setGrp g { G with since := G.since + 1 } else s
    s.handOver g (decide (max 1 (s.fget Reg.adcRot_min) ≤ (s.grp g).since)))

/-- The start-up calibration of a group (R77): every slice from 0. -/
def State.groupStartup (s : State) (g : Nat) : State :=
  let w := spareOf g
  let s := s.each (List.range (w + 1)) (fun l s =>
    let n := sliceNo g l
    let s := ((s.fput (Reg.adcSliceOfs_ofs n) 0).fput (Reg.adcSliceGain_gain n) 0).fput (Reg.adcSliceSkew_skew n) 0
    let s := (s.fput (Reg.adcSliceStat_state n) 0).fput (Reg.adcSliceStat_fails n) 0
    s.setRole g l (if l = w then 15 else l))
  let s := (s.fput (Reg.adcGrpStat_mode g) 0).fput (Reg.adcGrpStat_state g) w
  let s := s.fput (Reg.adcGrpStat_sub g) 15
  s.setGrp g { Grp.init with startup := List.range (w + 1) }

/-- A group is powered down (R78, R40). -/
def State.groupDown (s : State) (g : Nat) : State :=
  let s := s.fput (Reg.adcGrpStat_mode g) 3
  let s := s.each (List.range (spareOf g + 1)) (fun l s => s.fput (Reg.adcSliceStat_state (sliceNo g l)) 2)
  s.setGrp g Grp.init

/-- A slice has left a group's start-up calibration (R77): when it was the last, rotation starts in state 8 unless a slice is
faulty, and START_DONE shows once no group calibrates any more. -/
def State.startupLeave (s : State) (g l : Nat) : State :=
  let G := s.grp g
  let left := G.startup.filter (· != l)
  let s := s.setGrp g { G with startup := left, cal := if left = [] ∧ s.rotates g = true then some (spareOf g) else none }
  if left = [] ∧ (List.range 65).all (fun h => (s.grp h).startup == []) then s.fput Reg.adcStat_start_done 1 else s

/-- A calibration result is accepted (R72, R73, R86). Of a slice accepted in a retest, RUN stays as it stood (DESIGN CHOICE, log
entry 52), and ROLE_RESTORED of a spare, which has no role, carries 15 (DESIGN CHOICE, log entry 53). -/
def State.calAccept (s : State) (g l : Nat) (r : CalRes) : State :=
  let n := sliceNo g l
  let s := s.fputI (Reg.adcSliceOfs_ofs n) r.ofs
  let s := s.fputI (Reg.adcSliceGain_gain n) r.gain
  let s := s.fputI (Reg.adcSliceSkew_skew n) r.skew
  let s := s.fputI (Reg.adcSliceRes_offset n) r.resOfs
  let s := s.fputI (Reg.adcSliceRes_gain n) r.resGain
  let s := s.fputI (Reg.adcSliceResSkew_skew n) r.resSkew
  let s := (s.fput (Reg.adcSliceStat_fails n) 0).fput (Reg.adcSliceStat_last n) 0
  let G := s.grp g
  let s :=
    if G.startup.contains l then s.startupLeave g l
    else if G.retest.contains l then
      let s := s.fput (Reg.adcSliceStat_state n) 0
      let s := s.setGrp g { G with retest := G.retest.filter (· != l), back := G.back ++ [l] }
      s.raise 0x6004 .info n (pf 22 1 (if l = spareOf g then 15 else l) + pf 24 6 (s.groupLine g))
    else s.setGrp g { G with acc := true }
  let role := s.roleOf g l
  if role = 15 then s else s.updateSpur g (role / 2)

/-- A calibration result is rejected (R72, R73): the old values stay, the same slice is calibrated again, the third
consecutive rejection declares it faulty. A retest ends with it, and no second SLICE_FAULTY is raised (DESIGN CHOICE, log
entry 53). -/
def State.calReject (s : State) (g l : Nat) (r : CalRes) (mask : Nat) : State :=
  let n := sliceNo g l
  let fails := s.fget (Reg.adcSliceStat_fails n) + 1
  let sat (a b : Int) : Int := satInt 16 (a - b)
  let pay := pf 22 1 mask + pf 23 1 fails + pfI 24 2 (sat r.ofs (s.fgetI (Reg.adcSliceOfs_ofs n))) +
    pfI 26 2 (sat r.gain (s.fgetI (Reg.adcSliceGain_gain n))) + pfI 28 2 (sat r.skew (s.fgetI (Reg.adcSliceSkew_skew n)))
  let s := ((s.fput (Reg.adcSliceStat_fails n) fails).fput (Reg.adcSliceStat_last n) mask).bump
    (Reg.adcSliceCnt_rejects n) 1
  let s := s.raise 0x6001 .warn n pay
  if fails < 3 then s
  else
    let G := s.grp g
    if G.retest.contains l then s.setGrp g { G with retest := G.retest.filter (· != l) }
    else if G.startup.contains l then
      let before := s.assignment g
      let s := s.declare g l 1 lineNone
      let s := s.each (s.grp g).faults (fun l s => s.handFault g l)
      ((s.setGrp g { s.grp g with faults := [] }).startupLeave g l).updateSpurs g before
    else s.declare g l 1 lineNone

/-- One role's part of a readout after its checks (R79, R83): raw verdict, whether samples are suspect and from which of
the role's samples on. -/
structure RoleRead where
  slice : Option Nat
  sable : List Nat
  suspectFrom : Option Nat
  sableSuspect : Bool
  fail : Nat
  deriving DecidableEq, Repr

/-- Every second element from the first. -/
def evens {α : Type} : List α → List α
  | [] => []
  | [a] => [a]
  | a :: _ :: r => a :: evens r

/-- Every second element from the second. -/
def odds {α : Type} (l : List α) : List α := evens (l.drop 1)

def spanOf (l : List Nat) : Nat :=
  match l with
  | [] => 0
  | a :: r => r.foldl max a - r.foldl min a

/-- The sable-jump check (R79) on 256 times the distances in LSB of the role and its partner. Without a running mean, or with
the partner role lost, there is no check (DESIGN CHOICE for the lost partner, log entry 52). -/
def sableJump (lim : Nat) (diff partnerDiff : Option Nat) : Bool :=
  match diff, partnerDiff with
  | some d, some p => lim != 0 && decide (256 * lim < d) && decide (2 * p ≤ 256 * lim)
  | _, _ => false

/-- The stuck check (R79) on the active samples of the role and its partner. -/
def stuckSlice (act partnerAct : List Nat) : Bool :=
  decide (64 ≤ act.length) && spanOf (act.take 64) == 0 && decide (4 < spanOf (partnerAct.take 64))

/-- Cause of a failing readout (R79): 0 passes, 2 ERR, 3 sable jump, 4 stuck; of several, the first in this order is
reported (DESIGN CHOICE, log entry 52). -/
def readVerdict (err jump stuck : Bool) : Nat := if err then 2 else if jump then 3 else if stuck then 4 else 0

/-- Key of a role's running mean for a phase. -/
def meanKey (g k role : Nat) : Nat := 64 * g + 8 * k + role

/-- 256 times the distance in LSB of a sable sum from the running mean, once 16 readouts have passed (R79). -/
def State.meanDiff (s : State) (key sum : Nat) : Option Nat :=
  let l := tget (fun _ => []) s.adc.means key
  if l.length < 16 then none else some (((16 * sum : Nat) : Int) - (l.foldl (· + ·) 0 : Nat)).natAbs

/-- A role's readout passed: it enters the running mean and ends the run (R79, R80). -/
def State.readPass (s : State) (g l key sum : Nat) : State :=
  let n := sliceNo g l
  let s := s.fput (Reg.adcSliceStat_run n) 0
  let m := (sum :: tget (fun _ => []) s.adc.means key).take 16
  { s with
    adc := { s.adc with
      means := tput (fun _ => []) s.adc.means key m
      firstSuspect := tput (fun _ => none) s.adc.firstSuspect n none } }

/-- A role's readout failed (R80): counted; the third in a row declares the slice faulty. -/
def State.readFail (s : State) (g l cause line : Nat) : State :=
  let n := sliceNo g l
  let s := s.bump (Reg.adcSliceCnt_isc n) 1
  let run := min 3 (s.fget (Reg.adcSliceStat_run n) + 1)
  let s := s.fput (Reg.adcSliceStat_run n) run
  let first := match tget (fun _ => none) s.adc.firstSuspect n with
    | some x => x
    | none => line
  let s := { s with adc := { s.adc with firstSuspect := tput (fun _ => none) s.adc.firstSuspect n (some first) } }
  if run = 3 && !s.isFaulty g l then s.declare g l cause first else s

/-- One role of a tap's readout before its checks (R79): the slice that serves it, its corrected sable samples, their distance
from the running mean, its active samples, its first erroring clock. -/
structure RoleIn where
  key : Nat
  slice : Option Nat
  sable : List Nat
  diff : Option Nat
  act : List Nat
  err : Option Nat
  deriving DecidableEq, Repr

/-- Role `q` (0 even, 1 odd) of tap `t` in a readout of phase `k`, converted by a slice. -/
def State.roleIn (s : State) (g t k q : Nat) (slice : Option Nat) (r : TapRead) : RoleIn :=
  let role := 2 * t + q
  let half (l : List Nat) : List Nat := if q = 0 then evens l else odds l
  let key := meanKey g k role
  match slice with
  | some l =>
    let sab := (half r.sable).map (s.correctBy (sliceNo g l))
    { key := key, slice := some l, sable := sab, diff := s.meanDiff key (sab.foldl (· + ·) 0), act := half r.active
      err := if q = 0 then r.errEven else r.errOdd }
  | none => { key := key, slice := none, sable := (half r.sable).map (fun _ => 0), diff := none, act := half r.active, err := none }

/-- What a role delivers (R83): a faulty slice's samples are suspect up to its hand-over, those of a failing readout from the
erroring sample on for ERR alone, else all; all of them too when the failing run began in an earlier readout. -/
def State.roleOut (s : State) (g : Nat) (x : RoleIn) (jump stuck : Bool) : RoleRead :=
  let v := readVerdict x.err.isSome jump stuck
  match x.slice with
  | none => { slice := none, sable := x.sable, suspectFrom := none, sableSuspect := false, fail := v }
  | some l =>
    let whole := s.isFaulty g l || (v != 0 && (jump || stuck || s.fget (Reg.adcSliceStat_run (sliceNo g l)) != 0))
    { slice := some l, sable := x.sable
      suspectFrom := if whole then some 0 else x.err.map (fun c => (c - 12) / 2)
      sableSuspect := s.isFaulty g l || jump || x.err.any (fun c => decide (c < 12)), fail := v }

/-- The readout's verdict on a role takes effect (R79, R80). -/
def State.roleCount (s : State) (g line : Nat) (x : RoleIn) (v : Nat) : State :=
  match x.slice with
  | none => s
  | some l => if v = 0 then s.readPass g l x.key (x.sable.foldl (· + ·) 0) else s.readFail g l v line

/-- The two roles of one tap's readout of phase `k` (R79 to R83), converted by the slices of its pulse: what enters the counts,
and what each delivers. -/
def State.checkTap (s : State) (g t k : Nat) (slices : List (Option Nat)) (r : TapRead) : List (RoleIn × RoleRead) :=
  let lim := s.fget Reg.adcCtrl_sable_lim
  let a := s.roleIn g t k 0 (slices.getD (2 * t) none) r
  let b := s.roleIn g t k 1 (slices.getD (2 * t + 1) none) r
  [ (a, s.roleOut g a (sableJump lim a.diff b.diff) (stuckSlice a.act b.act))
  , (b, s.roleOut g b (sableJump lim b.diff a.diff) (stuckSlice b.act a.act)) ]

/-- The verdicts of a readout take effect together (R79, R80); of slices declared in it the spare comes first, so that no other
is promised it (R84, R85). -/
def State.countRoles (s : State) (g line : Nat) (l : List (RoleIn × RoleRead)) : State :=
  let spare (x : RoleIn × RoleRead) : Bool := x.1.slice == some (spareOf g)
  (l.filter spare ++ l.filter (fun x => !spare x)).foldl (fun s x => s.roleCount g line x.1 x.2.fail) s

end Sys2Proof.Machine
end

