-- ==== Sys2Proof/Machine/Float64.lean ====
section
/-!
DEFINITION. IEEE 754 binary64 arithmetic as R275 needs it: finite values as m × 2^e, every operation rounded to nearest,
ties to even. A value that is not finite stays so through every later operation of R275, so all of them are one.
-/

namespace Sys2Proof.Machine

/-- A binary64 value: m × 2^e, or not finite. -/
inductive F64 where
  | fin (m e : Int)
  | bad
  deriving DecidableEq, Repr

/-- Divide by 2^k, to nearest, ties to even. -/
def shrEven (m : Int) (k : Nat) : Int :=
  let q := m.fdiv (2 ^ k : Nat)
  let r := m - q * (2 ^ k : Nat)
  let h : Int := (2 ^ k : Nat)
  if 2 * r < h then q else if h < 2 * r then q + 1 else if q % 2 = 0 then q else q + 1

/-- Round m × 2^e to binary64. -/
def F64.round (m e : Int) : F64 :=
  if m = 0 then .fin 0 0
  else
    let bits : Int := (Nat.log2 m.natAbs : Int) + 1
    let e' := max (e + bits - 53) (-1074)
    if e' ≤ e then (if 1024 < e + bits then .bad else .fin m e)
    else
      let m' := shrEven m (e' - e).toNat
      if 1024 < e' + (Nat.log2 m'.natAbs : Int) + 1 then .bad else .fin m' e'

/-- Sum of two dyadic numbers, exact. -/
def addExact (m1 e1 m2 e2 : Int) : Int × Int :=
  let e := min e1 e2
  (m1 * (2 ^ (e1 - e).toNat : Nat) + m2 * (2 ^ (e2 - e).toNat : Nat), e)

def F64.add : F64 → F64 → F64
  | .fin a b, .fin c d => let x := addExact a b c d; F64.round x.1 x.2
  | _, _ => .bad

def F64.mul : F64 → F64 → F64
  | .fin a b, .fin c d => F64.round (a * c) (b + d)
  | _, _ => .bad

/-- Quotient of two integers. -/
def F64.divInt (a b : Int) : F64 :=
  if b = 0 then .bad
  else
    let k : Nat := 120
    let n : Nat := a.natAbs * 2 ^ k
    let q : Nat := n / b.natAbs
    let m : Int := 2 * q + (if n % b.natAbs = 0 then 0 else 1)
    F64.round (if (0 ≤ a) = (0 ≤ b) then m else -m) (-(k : Int) - 1)

/-- A binary32 word. -/
def F64.ofF32 (w : Nat) : F64 :=
  let ex : Nat := w / 2 ^ 23 % 256
  let f : Int := (w % 2 ^ 23 : Nat)
  let sg : Int := if w / 2 ^ 31 % 2 = 1 then -1 else 1
  if ex = 255 then .bad
  else if ex = 0 then .fin (sg * f) (-149)
  else .fin (sg * (f + 2 ^ 23)) ((ex : Int) - 150)

/-- Terms of 2·atanh z in units of 2^−200, z in the same units. -/
def atanhSum (z2 : Int) : Nat → Int → Int → Int → Int
  | 0, _, _, s => s
  | n + 1, p, k, s => atanhSum z2 n ((p * z2).fdiv (2 ^ 200)) (k + 2) (s + p.fdiv k)

/-- Natural logarithm of num/den, 1 ≤ num/den < 2, in units of 2^−200. -/
def lnSmall (num den : Int) : Int :=
  let z := ((num - den) * 2 ^ 200).fdiv (num + den)
  2 * atanhSum ((z * z).fdiv (2 ^ 200)) 70 z 1 0

/-- Natural logarithm of a positive value within 1 ulp (R275): one of the two values that enclose it, by the free choice; an
exact value is itself. -/
def F64.ln : F64 → F64
  | .fin m e =>
    if m ≤ 0 then .bad
    else
      let k := Nat.log2 m.natAbs
      let l := (e + k) * lnSmall 2 1 + lnSmall m (2 ^ k : Nat)
      if l = 0 then .fin 0 0
      else
        let sh := Nat.log2 l.natAbs - 52
        let up : Int := if Config.lnError (BitVec.ofInt 64 (m + e * 2 ^ 53)) then 1 else 0
        F64.round (l.fdiv (2 ^ sh : Nat) + up) ((sh : Int) - 200)
  | .bad => .bad

/-- 10 t to the nearest integer, half away from zero, saturated (R275). -/
def F64.tenths (t : F64) : Option Int :=
  match F64.mul (.fin 10 0) t with
  | .fin m e =>
    let r : Int := if 0 ≤ e then m * (2 ^ e.toNat : Nat) else divAway m (2 ^ (-e).toNat : Nat)
    match t with
    | .fin _ _ => some (clampI (-32767) 32767 r)
    | .bad => none
  | .bad => match t with
    | .fin m _ => some (if 0 ≤ m then 32767 else -32767)
    | .bad => none

end Sys2Proof.Machine
end

