-- ==== Sys2Proof/Machine/LmpOps.lean ====
section
/-!
DEFINITION. Shared operations of exposure and lamps (chapter 4): colours and windows, levels and hybrid dimming, tint
factors, derating, the lamp bus.
-/

namespace Sys2Proof.Machine

/-- Strings a colour code lights (R92). -/
def colourStrings (c : Nat) : List Nat :=
  match c with
  | 0 => [0]
  | 1 => [1]
  | 2 => [2]
  | 3 => [3]
  | 4 => [0, 1, 2]
  | _ => []

/-- Colour code of phase `k`. -/
def State.colour (s : State) (k : Nat) : Nat := s.fget (Reg.lmpPhaseCfg_colour k)

/-- The last phase of the job is the dark-reference slot (R92). -/
def State.hasDark (s : State) : Bool := decide (0 < s.seq.phases) && s.colour (s.seq.phases - 1) == 5

/-- Number of colour phases of the job. -/
def State.colourPhases (s : State) : Nat := if s.hasDark then s.seq.phases - 1 else s.seq.phases

/-- The phase that lights a string in the job. -/
def State.phaseOf (s : State) (c : Nat) : Option Nat :=
  (List.range s.colourPhases).find? (fun k => (colourStrings (s.colour k)).contains c)

/-- Window of a phase in units of 2.5 ns (R97). -/
def State.w4 (s : State) (k : Nat) : Nat := 4 * s.fget (Reg.lmpPhaseWin_width k)

def strKey (z c : Nat) : Nat := 4 * z + c

def State.str (s : State) (z c : Nat) : StrSt := tget (fun _ => StrSt.init) s.lmp.str (strKey z c)

def State.setStr (s : State) (z c : Nat) (x : StrSt) : State :=
  { s with lmp := { s.lmp with str := tput (fun _ => StrSt.init) s.lmp.str (strKey z c) x } }

def State.zone (s : State) (z : Nat) : ZoneSt := tget (fun _ => ZoneSt.init) s.lmp.zone z

def State.setZone (s : State) (z : Nat) (x : ZoneSt) : State :=
  { s with lmp := { s.lmp with zone := tput (fun _ => ZoneSt.init) s.lmp.zone z x } }

def State.lbus (s : State) (b : Nat) : LBus := tget (fun _ => LBus.init) s.lmp.bus b

def State.setLbus (s : State) (b : Nat) (x : LBus) : State :=
  { s with lmp := { s.lmp with bus := tput (fun _ => LBus.init) s.lmp.bus b x } }

/-- A driver is fitted in the zone. -/
def State.zoneEn (s : State) (z : Nat) : Bool := s.flag (Reg.lmpZoneCfg_en z)

def State.enabledZones (s : State) : List Nat := (List.range 64).filter s.zoneEn

/-- STATE of a zone: 1 answering, 2 NO_REPLY, 3 ABSENT. -/
def State.zoneState (s : State) (z : Nat) : Nat := s.fget (Reg.lmpZoneStat_state z)

/-- A bus is UP. -/
def State.busUp (s : State) (b : Nat) : Bool := s.fget (Reg.lmpBusStat_state b) == 1

/-- STAGE code of a string in the latest STATUS (R111). -/
def State.stageOf (s : State) (z c : Nat) : Nat := bitsAt (s.fget (Reg.lmpZoneStat_stage z)) (2 * c) 2

/-- The stage that drives a string (R103, R104): its own, or the first surviving one after it. -/
def State.hostStage (s : State) (z c : Nat) : Option Nat :=
  match s.stageOf z c with
  | 0 => some c
  | 1 => [(c + 1) % 4, (c + 2) % 4, (c + 3) % 4].find? (fun h => s.stageOf z h == 0)
  | _ => none

/-- Current code, pulse length and window pulse of one string (R97), before the chain and the floor. -/
def levelOf (base f d w4 : Nat) : Nat × Nat :=
  let l := min (min ((base * f + 8192) / 2 ^ 14) 65535) d
  if l = 0 then (0, 0)
  else if 6554 ≤ l then (l, 0xFFFFFF)
  else (6554, (w4 * l + 3277) / 6554)

/-- Pulse in the window of a pulse length code. -/
def pulseIn (w4 t : Nat) : Nat := if t = 0xFFFFFF then w4 else t

/-- Lit time (R97). -/
def litOf (tw i ic : Nat) : Nat := if ic = 0 then 0 else tw * i / ic

/-- Pulse offset within the window (R97). -/
def pulseOffset (w4 t : Nat) : Nat := (w4 - pulseIn w4 t) / 2

/-- Values of one string with its chain current (R97), with the floor of R98 when `floor` holds. -/
def strValue (base i t k w4 ic : Nat) (floor : Bool) : StrVal :=
  let lit := litOf (pulseIn w4 t) i ic
  let t := if floor && decide (0 < lit ∧ lit < 800) then min w4 (ceilDiv (800 * ic) i) else t
  let tw := pulseIn w4 t
  { i := i, t := t, lit := litOf tw i ic, lDel := if w4 = 0 then 0 else (i * tw + w4 / 2) / w4, base := base, phase := k
    win := w4 }

/-- Monitor result as lamps and pool use it: T, VALID, OPEN of a channel. -/
def State.monT (s : State) (n : Nat) : Int × Bool × Bool :=
  (s.fgetI (Reg.monChRes_t n), s.flag (Reg.monChRes_valid n), s.flag (Reg.monChRes_open n))

/-- Derating cap (R102). -/
def derate (t : Int) (open' valid : Bool) (knee : Int) (span dmin : Nat) : Nat :=
  if open' || !valid then dmin
  else if t ≤ knee then 65535
  else if knee + span ≤ t then dmin
  else ((65535 - (((65535 - dmin : Nat) : Int) * (t - knee)) / span).toNat) ||| 0xFF

/-- At an LB each zone's derating cap is set (R102). -/
def State.derateZone (s : State) (z : Nat) : State :=
  let n := s.fget (Reg.lmpZoneCfg_mon z)
  let m := s.monT n
  let d := derate m.1 m.2.2 m.2.1 (s.fgetI Reg.lmpDerate0_knee) (s.fget Reg.lmpDerate0_span) (s.fget Reg.lmpDerate1_dmin)
  let s := (s.fputI (Reg.lmpZoneTemp_t z) m.1).fput (Reg.lmpZoneTemp_d z) d
  let on := decide (d < 65535)
  let Z := s.zone z
  if on = Z.derated then s
  else (s.setZone z { Z with derated := on }).raise 0x900B .info z (pf 22 1 255 + pf 23 1 (b2n on) + pf 24 2 d)

/-- Levels of a zone at an LB (R97, R98): new wanted values, and a delivery when they differ from those last sent (R99), the
lit times that follow from the stages among them. -/
def State.zoneLevels (s : State) (z : Nat) : State :=
  let d := s.fget (Reg.lmpZoneTemp_d z)
  let raw (c : Nat) : Option (Nat × Nat × Nat × Nat) :=
    match s.phaseOf c with
    | none => none
    | some k =>
      let base := s.fget (Reg.lmpZoneStrLvl_base z c)
      let v := levelOf base (s.fget (Reg.lmpZoneStrStat_f z c)) d (s.w4 k)
      some (k, base, v.1, v.2)
  let ic (c k i : Nat) : Nat :=
    match s.hostStage z c with
    | none => i
    | some h =>
      (List.range 4).foldl (fun m c' =>
        match raw c' with
        | some (k', _, i', _) => if k' = k ∧ s.hostStage z c' = some h then max m i' else m
        | none => m) 0
  let s := s.each (List.range 4) (fun c s =>
    match raw c with
    | none => s.setStr z c { s.str z c with want := .init }
    | some (k, base, i, t) =>
      let x := ic c k i
      let S := s.str z c
      let lit := litOf (pulseIn (s.w4 k) t) i x
      let low := !s.hasDark && decide (0 < lit ∧ lit < 800)
      let s := s.setStr z c { S with
        want := strValue base i t k (s.w4 k) x (!s.hasDark), dimFloor := S.dimFloor || low }
      if low && !S.dimFloor then s.raise 0x900A .warn z (pf 22 1 c + pf 24 3 t) else s)
  let differs := (List.range 4).any (fun c =>
    let S := s.str z c
    S.want.i != S.sent.i || S.want.t != S.sent.t || S.want.lit != S.sent.lit)
  let Z := s.zone z
  s.setZone z { Z with need := Z.need || differs }

/-- The chain current ic at which a string is lit by the values in force (R97, R104): the largest i of the strings lit in the
same phase that the latest STATUS has on the same stage. -/
def State.icForce (s : State) (z c : Nat) : Nat :=
  let v := (s.str z c).force
  match s.hostStage z c with
  | none => v.i
  | some h =>
    (List.range 4).foldl (fun m c' =>
      let x := (s.str z c').force
      if x.phase = v.phase ∧ s.hostStage z c' = some h then max m x.i else m) 0

/-- The lit time in force of a string (R97, R104). -/
def State.litForce (s : State) (z c : Nat) : Nat :=
  let v := (s.str z c).force
  litOf (pulseIn v.win v.t) v.i (s.icForce z c)

/-- Delivered values covered by the last COMMIT take force (R99, R112); the lamp state id increments when that changes a
level (R18): a string's i or t, or the BASE from which they were computed. -/
def State.lampForce (s : State) : State :=
  if s.lmp.committed then
    let new := s.enabledZones.any (fun z => (List.range 4).any (fun c =>
      let S := s.str z c
      S.force.i != S.comm.i || S.force.t != S.comm.t || S.force.base != S.comm.base))
    let s := s.each s.enabledZones (fun z s => s.each (List.range 4) (fun c s =>
      let S := s.str z c
      s.setStr z c { S with force := S.comm }))
    let s : State := { s with lmp := { s.lmp with committed := false } }
    if new then s.fput Reg.sysSetId_lamp (s.fget Reg.sysSetId_lamp + 1) else s
  else s

/-- Tint factor and dark flag of a zone and colour phase (R101). A zone in which no driver is fitted has no values in force. -/
def State.tint (s : State) (z k : Nat) : Nat × Bool :=
  let cs := colourStrings (s.colour k)
  let num := if s.zoneEn z then cs.foldl (fun a c => a + (s.str z c).force.base) 0 else 0
  let den := cs.foldl (fun a c =>
    let S := s.str z c
    a + (if s.stageOf z c ≥ 2 then 0 else S.force.lDel * S.e) / 2 ^ 14) 0
  let absent := s.zoneState z == 3
  let failed := cs ≠ [] && cs.all (fun c => s.stageOf z c == 2)
  let flag := absent || failed
  if num = 0 then (16384, flag)
  else if den = 0 then (16384, true)
  else (clampN 8192 32768 ((num * 16384 + den / 2) / den), flag)

/-- The tint factors of a zone go to the pool and into LMP_ZONE_z_TINTF (R101). While a zone is NO_REPLY they hold their
last values. -/
def State.tintZone (s : State) (z : Nat) : State :=
  if s.zoneState z = 2 then s
  else s.each (List.range s.colourPhases) (fun k s =>
    let t := s.tint z k
    let a := if k < 2 then Reg.lmpZoneTintf0 z else Reg.lmpZoneTintf1 z
    let s := s.fput ⟨a, 16 * (k % 2), 16⟩ t.1
    s.fput (Reg.lmpZoneStat_dark z) (putBit (s.fget (Reg.lmpZoneStat_dark z)) k t.2))

/-- Tint factor of a zone and phase as the pool has it. -/
def State.tintOf (s : State) (z k : Nat) : Nat :=
  s.fget ⟨if k < 2 then Reg.lmpZoneTintf0 z else Reg.lmpZoneTintf1 z, 16 * (k % 2), 16⟩

/-- The lamp island's work at an LB (R97 to R102): caps and tint factors of every zone, levels of those with a driver. -/
def State.lampLb (s : State) : State :=
  s.lampForce.each (List.range 64) (fun z s =>
    let s := s.derateZone z
    (if s.zoneEn z then s.zoneLevels z else s).tintZone z)

/-- Bytes of a lamp-bus frame (R108). -/
def lampFrame (addr op : Nat) (pay : List Byte) : List Byte :=
  let b := [BitVec.ofNat 8 addr, BitVec.ofNat 8 op, BitVec.ofNat 8 pay.length] ++ pay
  b ++ leBytes 2 (crc16 b)

/-- Opcode of a lamp-bus operation (R109). -/
def LbOp.code : LbOp → Nat
  | .ping => 1
  | .config => 2
  | .value => 3
  | .report => 3
  | .commit => 4
  | .diagArm _ => 5
  | .allOff => 6
  | .getDiag => 7
  | .clear _ => 8

/-- Request payload (R109); `vals` are the values that an XCHG sends. -/
def State.lbPayload (s : State) (op : LbOp) (vals : List StrVal) : List Byte :=
  match op with
  | .config =>
    (List.range 4).flatMap (fun c =>
      match s.phaseOf c with
      | some k => leBytes 3 (s.w4 k)
      | none => leBytes 3 0)
  | .value => vals.flatMap (fun v => leBytes 2 v.i ++ leBytes 3 v.t)
  | .diagArm m => [BitVec.ofNat 8 m]
  | .clear m => [BitVec.ofNat 8 m]
  | _ => []

/-- Send a broadcast on a bus; it has no reply (R110). -/
def State.lbBroadcast (s : State) (b : Nat) (op : LbOp) : State :=
  s.out (.lamp b (lampFrame 0x7F op.code (s.lbPayload op [])))

/-- Start a transaction with a zone. -/
def State.lbStart (s : State) (b : Nat) (q : LbReq) : State :=
  let z := q.zone.getD 0
  let s := s.out (.lamp b (lampFrame z q.op.code (s.lbPayload q.op q.vals)))
  let s := s.fput (Reg.lmpZoneStat_bus z) b
  s.setLbus b { s.lbus b with cur := some q }

/-- The request of an operation that sends no values. -/
def LbReq.plain (op : LbOp) (z : Nat) : LbReq := { op := op, zone := some z, vals := [] }

/-- An XCHG that delivers a zone's values of the last LB (R99). -/
def State.lbValues (s : State) (b z : Nat) : State :=
  let s := s.setZone z { s.zone z with need := false }
  let s := s.each (List.range 4) (fun c s => s.setStr z c { s.str z c with sent := (s.str z c).want })
  s.lbStart b { op := .value, zone := some z, vals := (List.range 4).map (fun c => (s.str z c).sent) }

/-- ALL_OFF goes out on a bus at once (R114), in SAFE on a disabled one too (R36, R382). -/
def State.allOffOn (s : State) (b : Nat) : State := s.lbBroadcast b .allOff

/-- An XCHG under way when ALL_OFF goes out delivers nothing that counts (R99). -/
def LbReq.voided (q : LbReq) : LbReq := { q with vals := q.vals.map (fun _ => .init) }

/-- After an ALL_OFF every driver's values are 0 and no earlier delivery counts (R99, R112). -/
def State.allOffDone (s : State) : State :=
  { s with
    lmp := { s.lmp with
      str := s.lmp.str.map (fun e =>
        (e.1, { e.2 with want := .init, sent := .init, deliv := .init, comm := .init, force := .init }))
        |>.filter (fun e => e.2 != StrSt.init)
      bus := s.lmp.bus.map (fun e => (e.1, { e.2 with
        cur := e.2.cur.map LbReq.voided, retry := e.2.retry.map LbReq.voided }))
      commitDue := false
      committed := false
      delivering := false
      redeliver := true } }

/-- Zones a bus serves: those whose home it is, and all when the other bus is not UP (R107, R113). -/
def State.serves (s : State) (b z : Nat) : Bool := z % 2 == b || !s.busUp (1 - b)

/-- The first zone at or after a position, going round, that satisfies `p`. -/
def roundRobin (pos : Nat) (p : Nat → Bool) : Option Nat := ((List.range 64).map (fun i => (pos + i) % 64)).find? p

/-- A job's lines or a capture run, so reports are asked for (R114). -/
def State.reporting (s : State) : Bool :=
  s.flag Reg.lmpStat_lamp_en && !s.lmp.delivering &&
    (s.seq.cur.isSome || (match s.shd.cal with
      | some c => c.step == .gain || c.step == .verify
      | none => false))

/-- The frames of the delivery that precedes the flush phases (R114). -/
def LbOp.delivers : LbOp → Bool
  | .config | .value => true
  | _ => false

/-- No exposure window is open or about to open, so CONFIG may be sent (R112). -/
def State.noWindow (s : State) : Bool := s.lmp.strobe == [] && s.lmp.rise.isNone

/-- A transaction may start now: CONFIG outside exposure windows (R112), and in the delivery before the flush phases nothing
but what it carries (R114). -/
def State.lbMay (s : State) (op : LbOp) : Bool :=
  (op != .config || s.noWindow) && (!s.lmp.delivering || op.delivers)

/-- Values may be delivered: in a shading calibration only in its one delivery (R151). -/
def State.valuesMay (s : State) : Bool := s.shd.cal.isNone || s.lmp.delivering

/-- What a bus that is UP sends next of its third and fourth priority, CONFIG first: values, then reports (R114). -/
def State.lbRegular (s : State) (b : Nat) : Option State :=
  if !s.busUp b then none
  else
    let B := s.lbus b
    ((if s.lbMay .config then (List.range 64).find? (fun z => s.serves b z && (s.zone z).configDue) else none).map (fun z =>
      (s.setZone z { s.zone z with configDue := false }).lbStart b (.plain .config z)))
    <|> ((if s.valuesMay then roundRobin B.rrValue (fun z => s.serves b z && s.zoneState z == 1 && (s.zone z).need)
          else none).map (fun z => (s.setLbus b { B with rrValue := (z + 1) % 64 }).lbValues b z))
    <|> ((if s.reporting then roundRobin B.rrReport (fun z => s.serves b z && s.zoneState z == 1) else none).map (fun z =>
      (s.setLbus b { B with rrReport := (z + 1) % 64 }).lbStart b (.plain .report z)))

/-- The lowest priority of a bus (R114): PING, GET_DIAG and CLEAR. -/
def State.lbService (s : State) (b : Nat) : State :=
  let B := s.lbus b
  if s.lmp.delivering then s
  else match B.pingDue with
    | z :: r => (s.setLbus b { B with pingDue := r }).lbStart b (.plain .ping z)
    | [] =>
      let zone (p : Nat → Bool) : Option Nat := if s.busUp b then (List.range 64).find? (fun z => s.serves b z && p z) else none
      match zone (fun z => s.zoneState z == 1 && (s.zone z).diagDue), zone (fun z => (s.zone z).clearDue != 0) with
      | some z, _ => (s.setZone z { s.zone z with diagDue := false }).lbStart b (.plain .getDiag z)
      | none, some z =>
        (s.setZone z { s.zone z with clearDue := 0 }).lbStart b (.plain (.clear (s.zone z).clearDue) z)
      | none, none => s

/-- A free lamp bus starts its next transaction by priority (R113, R114); a bus that is DOWN repeats nothing while the other is
UP. -/
def State.lbNext (s : State) (b : Nat) : State :=
  let B := s.lbus b
  if B.cur.isSome || s.fget (Reg.lmpBusStat_state b) == 0 then s
  else if 0 < B.allOffDue then (s.lbBroadcast b .allOff).setLbus b { B with allOffDue := B.allOffDue - 1 }
  else
    match B.retry.find? (fun q => (s.busUp b || !s.busUp (1 - b)) && s.lbMay q.op) with
    | some q => (s.setLbus b { B with retry := B.retry.erase q }).lbStart b q
    | none => (s.lbRegular b).getD (s.lbService b)

/-- A COMMIT on every bus that is up (R99): what it covers takes force at the next phase 0. -/
def State.lampCommit (s : State) : State :=
  let s := s.each ((List.range 2).filter s.busUp) (fun b s => s.lbBroadcast b .commit)
  let s := s.each s.enabledZones (fun z s => s.each (List.range 4) (fun c s =>
    let S := s.str z c
    s.setStr z c { S with comm := S.deliv }))
  { s with lmp := { s.lmp with commitDue := false, committed := true } }

/-- The delivery before the flush phases ends with a COMMIT once no zone has anything left to be sent (R99, R114). -/
def State.deliveryCheck (s : State) : State :=
  let busy := (List.range 2).any (fun b => (s.lbus b).cur.isSome || (s.lbus b).retry.any (fun q => q.op.delivers))
  let left := s.enabledZones.any (fun z => s.zoneState z == 1 && ((s.zone z).need || (s.zone z).configDue))
  if s.lmp.delivering && !busy && !left then
    ({ s with lmp := { s.lmp with delivering := false, redeliver := false } } : State).lampCommit
  else s

/-- A delivery at JOB_START, CAL_START or after ZONE_RESTORED begins (R99): CONFIG, then the values of every enabled
zone. -/
def State.lampDeliver (s : State) : State :=
  let s := { s with lmp := { s.lmp with delivering := true } }
  let s := s.each s.enabledZones (fun z s => (s.derateZone z).zoneLevels z)
  let s := s.each (s.enabledZones.filter (fun z => s.zoneState z == 1)) (fun z s =>
    s.setZone z { s.zone z with need := true, configDue := true })
  s.deliveryCheck

/-- LAMP_EN is driven. -/
def State.setLampEn (s : State) (b : Bool) : State := s.fputB Reg.lmpStat_lamp_en b

/-- A successful transaction on a bus with a zone (R113, R34). After an ALL_OFF the redelivery of a restored zone delivers
every zone (R99); in SAFE, and in a shading calibration, which delivers once (R151), it waits for the next use of the lamps. -/
def State.lbSuccess (s : State) (b z : Nat) : State :=
  let B := s.lbus b
  let s := s.setLbus b { B with cur := none, fails := 0, succ := B.succ + 1, otherOk := false }
  let O := s.lbus (1 - b)
  let s := if 0 < O.fails then s.setLbus (1 - b) { O with otherOk := true } else s
  let s :=
    if s.fget (Reg.lmpBusStat_state b) = 2 ∧ 16 ≤ B.succ + 1 then
      (s.fput (Reg.lmpBusStat_state b) 1).raise 0x9008 .info b (pf 22 1 255)
    else s
  let s := s.clearActive .lampbus
  let st := s.zoneState z
  let s := s.setZone z { s.zone z with fails := 0 }
  if st = 2 ∨ st = 3 then
    let s := s.setZone z { s.zone z with diagDue := true, need := true, configDue := true }
    let s := (s.fput (Reg.lmpZoneStat_state z) 1).raise 0x9005 .info z (pf 22 1 255)
    if s.lmp.redeliver && !s.isSafe && s.shd.cal.isNone then s.lampDeliver else s
  else s.fput (Reg.lmpZoneStat_state z) 1

/-- The repeats that wait on a bus go to the other one when that is UP (R113). -/
def State.moveRetries (s : State) (b : Nat) : State :=
  let O := s.lbus (1 - b)
  if s.busUp (1 - b) then
    (s.setLbus (1 - b) { O with retry := O.retry ++ (s.lbus b).retry }).setLbus b { s.lbus b with retry := [] }
  else s

/-- A failed attempt (R113): repeated, up to four attempts in a row. The PINGs of a NO_REPLY zone are not repeated: they come
every 10 ms. -/
def State.lbFail (s : State) (b : Nat) (q : LbReq) : State :=
  let z := q.zone.getD 0
  let B := s.lbus b
  let s := s.setLbus b { B with cur := none, fails := B.fails + 1, succ := 0, otherOk := B.otherOk && B.fails != 0 }
  let s :=
    if s.busUp b && decide (16 ≤ B.fails + 1) && B.otherOk then
      ((s.fput (Reg.lmpBusStat_state b) 2).raise 0x9007 .warn b (pf 22 1 255)).moveRetries b
    else s
  let st := s.zoneState z
  if st = 2 then s
  else
    let Z := s.zone z
    let n := Z.fails + 1
    let s := s.setZone z { Z with fails := n }
    if n < 4 then
      let b' := if s.busUp (1 - b) then 1 - b else b
      let B' := s.lbus b'
      s.setLbus b' { B' with retry := q :: B'.retry }
    else
      let s := s.setZone z { s.zone z with fails := 0, need := false, configDue := false }
      if st = 3 then s
      else if st = 0 then (s.fput (Reg.lmpZoneStat_state z) 3).raise 0x9006 .fault z (pf 22 1 255)
      else (s.fput (Reg.lmpZoneStat_state z) 2).raise 0x9004 .fault z (pf 22 1 255)

/-- STATUS of a reply (R103, R105, R111). -/
def State.lbStatus (s : State) (z st : Nat) : State :=
  let ot := bitAt st 15
  let s := if ot && !s.flag (Reg.lmpZoneStat_overtemp z) then s.raise 0x900C .warn z (pf 22 1 255) else s
  let s := s.fputB (Reg.lmpZoneStat_overtemp z) ot
  let old := s.fget (Reg.lmpZoneStat_stage z)
  let s := s.fput (Reg.lmpZoneStat_stage z) (st % 256)
  let s := s.each (List.range 4) (fun c s =>
    let a := bitsAt old (2 * c) 2
    let n := s.stageOf z c
    if a = n then s
    else if n = 1 then s.raise 0x9002 .warn z (pf 22 1 c + pf 23 1 ((s.hostStage z c).getD 255))
    else if n = 2 then s.raise 0x9003 .fault z (pf 22 1 c)
    else s)
  if bitAt st 13 then s.setZone z { s.zone z with diagDue := true } else s

/-- A string's F lies inside its limits again, so that its next clamp is reported (R100): after a reset of F to a value that the
limits allow, or with limits that F does not touch. -/
def State.tintInside (s : State) (reset : Bool) : State :=
  let lo := s.fget Reg.lmpTintLim_fmin
  let hi := s.fget Reg.lmpTintLim_fmax
  s.each (List.range 256) (fun i s =>
    let z := i / 4
    let c := i % 4
    let f := s.fget (Reg.lmpZoneStrStat_f z c)
    if lo < f ∧ f < hi ∨ reset = true ∧ lo ≤ f ∧ f ≤ hi then s.setStr z c { s.str z c with tintLimit := false } else s)

/-- The tint loop's update from one string's report (R100): i_at is the chain current of the values in force. -/
def State.tintUpdate (s : State) (z c q n : Nat) : State :=
  let s := s.fput (Reg.lmpZoneStrStat_n z c) n
  let S := s.str z c
  let full := s.fget (Reg.lmpZoneStrRef_ref z c) * s.icForce z c
  if n = 0 ∨ full = 0 then s
  else
    let e := (q * 65535 * 16384 + full / 2) / full
    if e < 8192 ∨ 32767 < e then s.bump (Reg.lmpZoneStrStat_rej z c) 1
    else
      let s := s.setStr z c { S with e := e }
      if !s.flag Reg.lmpTint_en then s
      else
        let ft : Int := ((268435456 + e / 2) / e : Nat)
        let f : Int := s.fget (Reg.lmpZoneStrStat_f z c)
        let f1 := f + (ft - f).fdiv (2 ^ s.fget Reg.lmpTint_k : Nat)
        let lo : Int := s.fget Reg.lmpTintLim_fmin
        let hi : Int := s.fget Reg.lmpTintLim_fmax
        let f2 := min (max f1 lo) hi
        let hit := decide (f1 ≠ f2)
        let s := s.fputI (Reg.lmpZoneStrStat_f z c) f2
        let s := s.setStr z c { s.str z c with tintLimit := hit }
        if hit && !S.tintLimit then s.raise 0x9009 .warn z (pf 22 1 c + pfI 24 2 f2) else s

/-- The open-lamp map of GET_DIAG (R105): each lamp that the map held before did not show raises LAMP_OPEN; one that it showed
already raises none, also when a CLEAR came in between (DESIGN CHOICE, log entry 93). -/
def State.lampMap (s : State) (z m : Nat) : State :=
  let old := s.wget (Reg.lmpZoneLamps0 z)
  let s := s.wput (Reg.lmpZoneLamps0 z) m
  s.each ((List.range 64).filter (fun i => bitAt m i && !bitAt old i)) (fun i s =>
    s.raise 0x9001 .warn z (pf 22 1 (i / 16) + pf 23 1 (i % 16)))

/-- The tint reports of an XCHG reply (R100, R109). -/
def State.lbReports (s : State) (z : Nat) (fr : List Byte) : State :=
  s.each (List.range 4) (fun c s => s.tintUpdate z c (leAt fr (5 + 3 * c) 2) (leAt fr (7 + 3 * c) 1))

/-- The reply to a value XCHG: what it sent is delivered, and a COMMIT is due (R99). Values older than those last sent, which a
repeat has brought after them, are followed by a new delivery. -/
def State.lbDelivered (s : State) (z : Nat) (vals : List StrVal) : State :=
  let old := (List.range 4).any (fun c => (s.str z c).sent != vals.getD c .init)
  let s : State := { s with lmp := { s.lmp with commitDue := true } }
  let s := s.each (List.range 4) (fun c s => s.setStr z c { s.str z c with deliv := vals.getD c .init })
  s.setZone z { s.zone z with need := (s.zone z).need || old }

/-- A zone driver's reply frame (R110, R113): a bad CRC, LEN_ERR or OP_ERR is a failed attempt. The reports are of pulses before
the reply, so they are taken with the stages of the STATUS before it (DESIGN CHOICE, log entry 55). -/
def State.lbReply (s : State) (b : Nat) (fr : List Byte) : State :=
  match (s.lbus b).cur with
  | none => s
  | some q =>
    let z := q.zone.getD 0
    let len := leAt fr 2 1
    let body := fr.take (3 + len)
    let ok := decide (fr.length = 5 + len) && leAt fr (3 + len) 2 == crc16 body && leAt fr 0 1 == 0x80 + z &&
      leAt fr 1 1 == q.op.code
    if !ok then (s.bump (Reg.lmpBusErr_badcrc b) 1).lbFail b q |>.deliveryCheck
    else
      let st := leAt fr 3 2
      if bitAt st 12 || bitAt st 11 then (s.lbFail b q).deliveryCheck
      else
        let s := s.lbSuccess b z
        let s :=
          match q.op with
          | .value => (s.lbDelivered z q.vals).lbReports z fr
          | .report => s.lbReports z fr
          | .getDiag => s.lampMap z (leAt fr 5 8)
          | _ => s
        (s.lbStatus z st).deliveryCheck

/-- 4 µs after a request with no reply (R110, R113). -/
def State.lbNoReply (s : State) (b : Nat) : State :=
  match (s.lbus b).cur with
  | none => s
  | some q => ((s.bump (Reg.lmpBusErr_noreply b) 1).lbFail b q).deliveryCheck

/-- SAFE entry drives each bus at once (R114, R36): frames in progress are abandoned, ALL_OFF is sent twice. -/
def State.lampSafe (s : State) : State :=
  let s := s.setLampEn false
  let s := { s with lmp := { s.lmp with strobe := [], rise := none, diagMask := 0, offArmed := false } }
  let s := s.each (List.range 2) (fun b s =>
    ((s.setLbus b { s.lbus b with cur := none, retry := [], allOffDue := 0 }).allOffOn b).allOffOn b)
  s.allOffDone

/-- The smallest LEAD of the enabled segments (R94), in 10 ns. -/
def State.leadMin (s : State) : Nat :=
  let worst := s.enabledSegs.foldl (fun m k =>
    let khz := s.fget (Reg.vfeSegClk_khz k)
    max m (if khz = 0 then 0 else ceilDiv ((5 + s.fget (Reg.vfeSegTiming_sp_w k)) * 1000000 + 40 * khz) (10 * khz))) 4
  worst

/-- WIDTH that the window rules use (R94): that of a DARK phase is the diagnostic strobe's. -/
def State.widthOf (s : State) (k : Nat) : Nat := if s.colour k = 5 then 220 else s.fget (Reg.lmpPhaseWin_width k)

end Sys2Proof.Machine
end

