-- ==== Sys2Proof/Machine/FifoOps.lean ====
section
/-!
DEFINITION. Shared operations of the line FIFO (chapter 12): pointers, headers, reservations, gaps and watermarks,
commit, release.
-/

namespace Sys2Proof.Machine

/-- Items of the FIFO (R291). -/
def fifoItems : Nat := 3145728

/-- A pointer advanced (R292). -/
def fAdv (p k : Nat) : Nat := (p + k) % 6291456

/-- Items from `q` up to `p` (R292). -/
def fDist (p q : Nat) : Nat := (p + 6291456 - q) % 6291456

/-- Byte address of an item (R292). -/
def fAddr (p : Nat) : Nat := 0x10000000 + 16 * (p % fifoItems)

def State.alloc (s : State) : Nat := s.fget Reg.lffPtrAlloc_val
def State.commitPtr (s : State) : Nat := s.fget Reg.lffPtrCommit_val
def State.issuePtr (s : State) : Nat := s.fget Reg.lffPtrIssue_val
def State.freePtr (s : State) : Nat := s.fget Reg.lffPtrFree_val

/-- Items between FREE and ALLOC (R292). -/
def State.fill (s : State) : Nat := fDist s.alloc s.freePtr

def State.freeItems (s : State) : Nat := fifoItems - s.fill

/-- Item `i` lies among the `n` items from item `p` on. -/
def inItems (p n i : Nat) : Bool := decide ((i % fifoItems + fifoItems - p % fifoItems) % fifoItems < n)

/-- Half words of the FIFO whose parity has failed (R291), key 2 × item + half. -/
def State.flip (s : State) (l : List (BitVec 23)) : State :=
  { s with
    lff := { s.lff with
      poison := (l.filter (fun k => decide (k.toNat < 2 * fifoItems))).foldl
        (fun t k => tput (fun _ => false) t k.toNat true) s.lff.poison } }

/-- The writer of items makes their parity right (R291). -/
def State.fClean (s : State) (p n : Nat) : State :=
  { s with lff := { s.lff with poison := s.lff.poison.filter (fun e => !inItems p n (e.1 / 2)) } }

/-- Store bytes into the ring from an item on; a packet that reaches the end continues at the start (R294). -/
def State.fStore (s : State) (p : Nat) (bs : List Byte) : State :=
  let s := s.fClean p (bs.length / 16)
  let a := fAddr p
  let room := 0x10000000 + 16 * fifoItems - a
  let s := s.store a (bs.take room)
  s.store 0x10000000 (bs.drop room)

/-- Bytes of the ring from an item on. -/
def State.fLoad (s : State) (p n : Nat) : List Byte :=
  let a := fAddr p
  let room := 0x10000000 + 16 * fifoItems - a
  s.bytes a (min n room) ++ s.bytes 0x10000000 (n - min n room)

/-- Fields of a packet header (R295). -/
structure Header where
  kind : Nat
  format : Nat
  flags : Nat
  len : Nat
  job : Nat
  line : Nat
  phases : Nat
  sets : Nat
  time : Nat
  feed : Int
  dstart : Nat
  dwidth : Nat
  lampId : Nat
  calId : Nat
  poison : Nat
  last : Nat
  cause : Nat
  deriving DecidableEq, Repr

/-- The 64 bytes of a header, CRC included (R295). -/
def Header.bytes (h : Header) : List Byte :=
  let b := leBytes 1 h.kind ++ leBytes 1 h.format ++ leBytes 2 h.flags ++ leBytes 2 h.len ++ leBytes 2 h.job ++
    leBytes 6 h.line ++ leBytes 1 h.phases ++ leBytes 1 h.sets ++ leBytes 8 h.time ++ leBytes 6 (ofInt 48 h.feed) ++
    leBytes 2 0 ++ leBytes 4 h.dstart ++ leBytes 4 h.dwidth ++ leBytes 2 h.lampId ++ leBytes 2 h.calId ++
    leBytes 4 h.poison ++ leBytes 6 h.last ++ leBytes 1 h.cause ++ leBytes 1 0 ++ leBytes 1 h.kind ++ leBytes 1 0 ++
    leBytes 2 h.len
  b ++ leBytes 4 (crc32c b)

/-- A watermark's header (R295). -/
def wmHeader (fmt len job first : Nat) (time : Nat) (feed : Int) (last cause : Nat) : Header :=
  { kind := 0x57, format := fmt, flags := 0, len := len, job := job, line := first, phases := 0, sets := 0, time := time,
    feed := feed, dstart := 0, dwidth := 0, lampId := 0, calId := 0, poison := 0, last := last, cause := cause }

/-- FORMAT byte of PXE_FMT (R295): bit 0 PACK, bit 1 BIN. -/
def State.format (s : State) : Nat := (s.rget Reg.pxeFmt).toNat % 4

/-- ABOVE in the cycle of a release, clear at or below LOW (R304). -/
def State.fillShrank (s : State) : State :=
  if s.fill ≤ s.fget Reg.lffMarks_low * 4096 then s.fput Reg.lffStat_above 0 else s

/-- ABOVE and the largest fill in the cycle of a reservation (R304). -/
def State.fillGrew (s : State) : State :=
  let s := s.fput Reg.lffFillMax_fill (max (s.fget Reg.lffFillMax_fill) s.fill)
  if s.fill > s.fget Reg.lffMarks_high * 4096 then s.fput Reg.lffStat_above 1 else s.fillShrank

/-- A line dropped without a reservation opens a gap or extends the open one (R301, R303). -/
def State.gapDrop (s : State) (n time : Nat) (feed : Int) (cause : Nat) : State :=
  let full := bitAt cause 0
  let s := if full then s.bump Reg.lffCntDrop_val 1 else s
  match s.lff.gap with
  | some g =>
    { s with lff := { s.lff with gap := some { g with last := n, cause := g.cause ||| cause } } }
  | none =>
    let s := { s with
      lff := { s.lff with
        gap := some { fmt := s.format, job := s.fget Reg.sysState_job, first := n, last := n, time := time, feed := feed,
                      cause := cause }
        gapFull := full } }
    if full then s.raiseAt 0x4001 .warn 0 n 0 else s

/-- Write the watermark of the open gap at an item (R295, R301) and close the gap. -/
def State.gapClose (s : State) (g : Gap) (p : Nat) : State :=
  let s := s.fStore p (wmHeader g.fmt 1 g.job g.first g.time g.feed g.last g.cause).bytes
  let s := s.bump Reg.lffCntWmark_val 1
  let s := if s.lff.gapFull then s.raiseAt 0x4002 .info 0 g.first (pf 24 6 g.last) else s
  { s with
    lff := { s.lff with
      gap := none, gapFull := false, closeDue := false
      resv := s.lff.resv ++ [{ pos := p, items := 4, kind := .mark g.last, handed := true, wait := false, flags := 0,
                               cfg := LineCfg.init, drift := [], runs := [] }] } }

/-- Every watermark that is next in order commits (R300, R301). -/
def State.commitMarks (s : State) : List Resv → State
  | [] => s
  | r :: rest =>
    match r.kind with
    | .mark last =>
      let s := s.fput Reg.lffPtrCommit_val (fAdv r.pos r.items)
      let s := s.wput Reg.lffLastCommit0 last
      State.commitMarks { s with lff := { s.lff with resv := rest, wmBefore := true } } rest
    | .line _ => s

/-- Ask for a line's reservation of `items` (header and payload); the answer is its position (R293, R298). -/
def State.reserve (s : State) (n items : Nat) (cfg : LineCfg) : Option Nat × State :=
  let extra := if s.lff.gap.isSome then 4 else 0
  if items + extra + 4 ≤ s.freeItems then
    let p := s.alloc
    let s := match s.lff.gap with
      | some g => s.gapClose g p
      | none => s
    let q := fAdv p extra
    let s := s.fput Reg.lffPtrAlloc_val (fAdv q items)
    let s : State := { s with
      lff := { s.lff with
        resv := s.lff.resv ++ [{ pos := q, items := items, kind := .line n, handed := false, wait := false, flags := 0,
                                 cfg := cfg, drift := [], runs := [] }] } }
    (some q, s.fillGrew.commitMarks s.lff.resv)
  else (none, s.gapDrop n cfg.time cfg.feed 1)

/-- A line dropped after its reservation was granted is rewound (R300); ABOVE is not evaluated then (R304). -/
def State.rewindLine (s : State) (n cause : Nat) : State :=
  match s.lff.resv.find? (fun r => r.kind == .line n) with
  | none => s
  | some r =>
    let newest := s.lff.resv.getLast? == some r
    let items := if newest then 4 else r.items
    let s := s.fStore r.pos (wmHeader r.cfg.fmt (items / 4) r.cfg.job n s.sys.now r.cfg.feed n cause).bytes
    let s := s.bump Reg.lffCntWmark_val 1
    let s := if newest then s.fput Reg.lffPtrAlloc_val (fAdv r.pos 4) else s
    let s := if bitAt cause 0 then s.bump Reg.lffCntDrop_val 1 else s
    let resv := s.lff.resv.map (fun q =>
      if q.kind = .line n then { q with kind := .mark n, items := items, handed := true, wait := false } else q)
    State.commitMarks { s with lff := { s.lff with resv := resv } } resv

/-- The header a line packet gets at its commit (R132, R295). -/
def Resv.header (r : Resv) (n : Nat) (wm : Bool) : Header :=
  { kind := 0x4C, format := r.cfg.fmt, flags := r.flags ||| b2n wm, len := r.items / 4, job := r.cfg.job, line := n,
    phases := 2 ^ r.cfg.c - 1, sets := r.cfg.bank + 2 * r.cfg.lin, time := r.cfg.time, feed := r.cfg.feed,
    dstart := r.cfg.start, dwidth := r.cfg.width, lampId := r.cfg.lampId, calId := r.cfg.calId, poison := 0, last := 0,
    cause := 0 }

/-- The next line to commit: first in order, handed over, with no wait laid on it (R299). -/
def State.nextCommit (s : State) : Option (Nat × Resv) :=
  match s.lff.resv with
  | r :: _ =>
    match r.kind with
    | .line n => if r.handed && !r.wait then some (n, r) else none
    | .mark _ => none
  | [] => none

/-- Commit a line (R299): header words, COMMIT to the packet's end, the watermarks behind it. -/
def State.commitLine (s : State) (n : Nat) (r : Resv) : State :=
  let s := s.fStore r.pos (r.header n s.lff.wmBefore).bytes
  let s := s.fput Reg.lffPtrCommit_val (fAdv r.pos r.items)
  let s := s.wput Reg.lffLastCommit0 n
  let rest := s.lff.resv.drop 1
  State.commitMarks { s with
    lff := { s.lff with
      resv := rest, wmBefore := false
      analysis := s.lff.analysis ++ [(r.pos, { n := n, cfg := r.cfg, runs := r.runs, com := s.sys.now })] } } rest

/-- Where FREE may stand (R306): the oldest entry not released, or ISSUE; never beyond a line that the analysis island
has not read. -/
def State.freeTarget (s : State) : Nat :=
  let t := match s.lff.ring.find? (fun e => !e.released) with
    | some e => e.pos
    | none => s.issuePtr
  match s.lff.analysis with
  | (p, _) :: _ => if fDist t s.freePtr ≤ fDist p s.freePtr then t else p
  | [] => t

/-- FREE advances (R306); entries released and behind it leave the issue ring. -/
def State.advanceFree (s : State) : State :=
  let s := { s with lff := { s.lff with ring := s.lff.ring.dropWhile (fun e => e.released) } }
  (s.fput Reg.lffPtrFree_val s.freeTarget).fillShrank

end Sys2Proof.Machine
end

