-- ==== Sys2Proof/Machine/Pixel.lean ====
section
/-!
DEFINITION. The pixel chain (R119 to R127) as plain arithmetic: `none` is the marker NODATA.
-/

namespace Sys2Proof.Machine

/-- A result of the chain saturates (R119). -/
def sat23 (x : Int) : Int := clampI (-4194304) 4194303 x

/-- Arithmetic shift right with halves towards +∞ (R119). -/
def rshr (x : Int) (n : Nat) : Int := (x + (2 ^ (n - 1) : Nat)).fdiv (2 ^ n : Nat)

/-- floor((2a + w) / (2w)) (R119). -/
def rdiv (a w : Int) : Int := (2 * a + w).fdiv (2 * w)

/-- A shading entry (R129). -/
structure ShdEntry where
  dark : Int
  gain : Nat
  slope : Int
  flags : Nat
  deriving DecidableEq, Repr

/-- Base of a shading bank (R32). -/
def bankBase (b : Nat) : Nat := 0x13000000 + 0x800000 * b

/-- Address of a bank's entry for pixel `x`, plane `k` (R129). -/
def entryAddr (b k x : Nat) : Nat := bankBase b + 6 * (327680 * k + x)

/-- The entry of a bank (R129). -/
def State.entry (s : State) (b k x : Nat) : ShdEntry :=
  let a := entryAddr b k x
  { dark := s.ldI a 2, gain := s.ld (a + 2) 2, slope := s.ldI (a + 4) 1, flags := s.ld (a + 5) 1 }

/-- Reference temperature of a segment in a bank, `none` when it has none (R123, R129). -/
def State.tref (s : State) (b k : Nat) : Option Int :=
  let v := s.ld (bankBase b + 0x780010 + 2 * k) 2
  if v = 0x8000 then none else some (toInt 16 v)

/-- Temperature difference used for a segment (R121, R123). -/
def State.dtOf (s : State) (b k : Nat) (tseg : Option Int) : Int :=
  match tseg, s.tref b k with
  | some t, some r => clampI (-1000) 1000 (t - r)
  | _, _ => 0

/-- Entry `i` of the linearity table of segment `s`, phase `k`, set `l` (R130). -/
def State.linT (s : State) (l seg k i : Nat) : Nat :=
  s.ld (0x15600000 + 0x80000 * l + 2 * (1024 * (4 * seg + k) + i)) 2

/-- The linearity function (R122). -/
def State.lin (s : State) (l seg k : Nat) (x : Int) : Int :=
  if x < 0 then x + 4 * (s.linT l seg k 0 : Nat)
  else
    let i := min (x.toNat / 256) 1023
    let f := x - 256 * (i : Int)
    let t : Int := (s.linT l seg k i : Nat)
    let hi : Int :=
      if i = 1023 then 2 * (s.linT l seg k 1023 : Nat) - (s.linT l seg k 1022 : Nat) else (s.linT l seg k (i + 1) : Nat)
    4 * t + (4 * (hi - t) * f + 128).fdiv 256

/-- The table steps of the chain (R121): v6 from a sample, `none` for NODATA. -/
def State.v6 (s : State) (c : LineCfg) (seg k x : Nat) (clamp : Int) (y : Option Nat) : Option Int :=
  match y with
  | none => none
  | some y =>
    if tget (fun _ => false) c.dark (4 * seg + k) then none
    else
      let e := s.entry c.bank k x
      let x1 := sat23 (4 * (y : Int) - (if bitAt c.ctrl 0 then clamp else 0))
      let x2 := sat23 (x1 - e.dark)
      let x3 := if bitAt c.ctrl 1 then sat23 (s.lin c.lin seg k x2) else x2
      let x4 := sat23 (rshr (x3 * (e.gain : Int)) 14)
      let x5 :=
        if bitAt c.ctrl 2 then
          sat23 (rshr (x4 * (1048576 + e.slope * s.dtOf c.bank seg (tget (fun _ => none) c.tseg seg))) 20)
        else x4
      let x6 := if bitAt c.ctrl 3 then sat23 (rshr (x5 * (tget (fun _ => 16384) c.tf (4 * seg + k) : Nat)) 14) else x5
      some x6

/-- Defect replacement (R124). -/
def replace (en : Bool) (repl : Nat) (v l r : Option Int) : Option Int :=
  if !en || repl == 0 || v.isNone then v
  else if repl = 1 then (if l.isSome then l else r)
  else if repl = 2 then (if r.isSome then r else l)
  else
    match l, r with
    | some a, some b => some ((a + b + 1).fdiv 2)
    | some a, none => some a
    | none, b => b

/-- Output `i` of a joint window from its 18 source values, first v[−1] (R125). -/
def jointAt (v : List (Option Int)) (dd : Int) (i : Nat) : Option Int :=
  let q : Int := 2048 * i + dd * (2 * i + 1)
  let at' (n : Int) : Option Int := v.getD (n + 1).toNat none
  let pick (f w : Int) (a b : Option Int) : Option Int :=
    if f = 0 then a
    else match a, b with
      | some a, some b => some (sat23 (a + rdiv ((b - a) * f) w))
      | _, _ => none
  if q < 14336 then pick (q - 2048 * q.fdiv 2048) 2048 (at' (q.fdiv 2048)) (at' (q.fdiv 2048 + 1))
  else if q < 16384 + 32 * dd then pick (q - 14336) (2048 + 32 * dd) (at' 7) (at' 8)
  else
    let r := q - 32 * dd
    pick (r - 2048 * r.fdiv 2048) 2048 (at' (r.fdiv 2048)) (at' (r.fdiv 2048 + 1))

/-- The 16-bit output value (R126). -/
def v16Of (v : Option Int) : Nat :=
  match v with
  | none => 0xFFFF
  | some v => (clampI 0 0xFFF0 ((v + 2).fdiv 4)).toNat

/-- Average of the two captured lines of a binned pixel (R126). -/
def pairAvg (a b : Nat) : Nat := if a = 0xFFFF ∨ b = 0xFFFF then 0xFFFF else (a + b + 1) / 2

/-- The 12-bit output value (R126). -/
def v12Of (v : Nat) : Nat := if v = 0xFFFF then 4095 else min ((v + 8) / 16) 4094

/-- Bytes of consecutive output pixels (R132); packed pixels come in pairs. -/
def pixelBytes (pack : Bool) : List Nat → List Byte
  | [] => []
  | [a] => if pack then leBytes 2 (v12Of a) else leBytes 2 a
  | a :: b :: r =>
    (if pack then leBytes 3 (v12Of a + 4096 * v12Of b) else leBytes 2 a ++ leBytes 2 b) ++ pixelBytes pack r

/-- Bytes of a plane (R132). -/
def LineCfg.plane (c : LineCfg) : Nat := if bitAt c.fmt 0 then 3 * c.width / 2 else 2 * c.width

/-- Items of a line's packet: header and payload (R132, R294). -/
def LineCfg.items (c : LineCfg) : Nat := 4 + c.c * c.plane / 16

end Sys2Proof.Machine
end

