-- ==== Sys2Proof/Machine/MonOps.lean ====
section
/-!
DEFINITION. Shared operations of the monitor front end (chapter 11): samples, conversions, temperatures, results,
calibration, the sequence, blanking and wire breaks.
-/

namespace Sys2Proof.Machine

def State.chan (s : State) (n : Nat) : MonChan := tget (fun _ => MonChan.init) s.mon.chan n

def State.setChan (s : State) (n : Nat) (x : MonChan) : State :=
  { s with mon := { s.mon with chan := tput (fun _ => MonChan.init) s.mon.chan n x } }

def State.setConv (s : State) (c : Option MonConv) : State := { s with mon := { s.mon with conv := c } }

def State.monEn (s : State) (n : Nat) : Bool := s.flag (Reg.monChCfg_en n)

/-- Excitation current in µA (R270). -/
def excUa (e : Nat) : Nat := [0, 10, 25, 50, 100, 250, 500, 1000].getD e 0

/-- Reference gain for a channel's source (R279). -/
def State.refGain (s : State) (n : Nat) : Nat :=
  let nv := excUa (s.fget (Reg.monChCfg_exc n)) * (s.rget Reg.monRref).toNat
  (List.range 8).foldl (fun m g => if nv * 2 ^ g ≤ 10 ^ 9 then g else m) 0

/-- VCAL of a gain, nV (R279). -/
def vcal (g : Nat) : Nat := 1000000000 / 2 ^ g

/-- Keys of the calibration constants. -/
def MonStep.key : MonStep → Nat
  | .zr g => g
  | .vr g => 8 + g
  | .z n => 16 + n
  | .v n => 32 + n
  | .ia n => 48 + n
  | .ib n => 64 + n

/-- Step code, source and gain of a calibration event (R289). -/
def State.stepEvent (s : State) : MonStep → Nat × Nat × Nat
  | .zr g => (5, 16, g)
  | .vr g => (6, 16, g)
  | .z n => (1, n, s.fget (Reg.monChCfg_gain n))
  | .v n => (2, n, s.fget (Reg.monChCfg_gain n))
  | .ia n => (3, n, s.refGain n)
  | .ib n => (4, n, s.refGain n)

/-- The steps of a calibration (R279). -/
def State.calSteps (s : State) : List MonStep :=
  let chs := (List.range 16).filter s.monEn
  let exc (n : Nat) : Bool := s.fget (Reg.monChCfg_exc n) != 0
  let gs := (List.range 8).filter (fun g => chs.any (fun n => exc n && s.refGain n == g))
  gs.map .zr ++ gs.map .vr ++ chs.flatMap (fun n =>
    [.z n, .v n] ++ (if exc n then [.ia n] ++ (if s.fget (Reg.monChCfg_form n) = 1 then [.ib n] else []) else []))

/-- Register that holds a constant. -/
def MonStep.reg : MonStep → Nat
  | .zr g => Reg.monRefZ g
  | .vr g => Reg.monRefKv g
  | .z n => Reg.monChCalZ n
  | .v n => Reg.monChCalKv n
  | .ia n => Reg.monChCalKia n
  | .ib n => Reg.monChCalKib n

/-- The new constant of a step from its average (R279); `none` for a denominator that is not positive. -/
def State.stepValue (s : State) (st : MonStep) (a : Int) : Option Int :=
  let kv (g : Nat) (z : Int) : Option Int :=
    if a - z ≤ 0 then none else some (rdiv ((vcal g * 65536 : Nat) : Int) (a - z))
  let ki (n : Nat) : Option Int :=
    let g := s.refGain n
    let vr := rdiv ((a - (s.rget (Reg.monRefZ g)).toInt) * ((s.rget (Reg.monRefKv g)).toNat : Int)) 65536
    let rref := (s.rget Reg.monRref).toNat
    if rref = 0 then none else some (rdiv (vr * 10 ^ 6) rref)
  match st with
  | .zr _ => some a
  | .z _ => some a
  | .vr g => kv g (s.rget (Reg.monRefZ g)).toInt
  | .v n => kv (s.fget (Reg.monChCfg_gain n)) (s.rget (Reg.monChCalZ n)).toInt
  | .ia n => ki n
  | .ib n => ki n

/-- The check of a new constant (R280): by the limits of a first calibration while none has been accepted. -/
def State.stepOk (s : State) (st : MonStep) (v : Int) : Bool :=
  let old : Int := match st with
    | .zr _ => (s.rget st.reg).toInt
    | .z _ => (s.rget st.reg).toInt
    | _ => (s.rget st.reg).toNat
  let first := !tget (fun _ => false) s.mon.accepted st.key
  let near (nom : Int) (pct : Int) : Bool := decide (((v - nom).natAbs : Int) * 100 ≤ pct * nom)
  let small : Bool := decide (((v - old).natAbs : Int) * 1000 ≤ 5 * old)
  let kvNear (g : Nat) : Bool := decide (((8 * v - 5 * (vcal g : Int)).natAbs : Int) * 100 ≤ 2 * (5 * (vcal g : Int)))
  match st with
  | .zr _ => if first then decide (v.natAbs ≤ 1024) else decide ((v - old).natAbs ≤ 256)
  | .z _ => if first then decide (v.natAbs ≤ 1024) else decide ((v - old).natAbs ≤ 256)
  | .vr g => if first then kvNear g else small
  | .v n => if first then kvNear (s.fget (Reg.monChCfg_gain n)) else small
  | .ia n => if first then near ((excUa (s.fget (Reg.monChCfg_exc n)) * 10 ^ 6 : Nat) : Int) 3 else small
  | .ib n => if first then near ((excUa (s.fget (Reg.monChCfg_exc n)) * 10 ^ 6 : Nat) : Int) 3 else small

/-- Roles of group 64 that are served. -/
def State.monRoles (s : State) : Nat := ((List.range 2).filter (fun r => (s.serving 64 r).isSome)).length

/-- STALE is the or of its causes (R277). -/
def State.showStale (s : State) (n : Nat) : State :=
  s.fputB (Reg.monChRes_stale n) ((s.chan n).changed || (s.chan n).aged || s.flag (Reg.monChRes_open n))

/-- A cause of STALE that lasts until the next result (R277). -/
def State.markStale (s : State) (n : Nat) : State :=
  (s.setChan n { s.chan n with changed := true }).showStale n

/-- MON_CH_n_CFG and MON_CH_n_CMWIN of a channel in the chop period that runs (R288). -/
def State.monHeld (s : State) (n : Nat) : Word × Word :=
  match s.mon.was.find? (fun x => x.1 == n) with
  | some x => x.2
  | none => (s.rget (Reg.monChCfg n), s.rget (Reg.monChCmwin n))

/-- A field of MON_CH_n_CFG as the chop period that runs has it (R288). -/
def State.cfgHeld (s : State) (n : Nat) (f : Fld) : Nat := fld (s.monHeld n).1.toNat f

/-- The source at terminal F1 (`second = false`) or F2 of a channel (R269): A, B (`true`) or none. A calibration step routes
its source through R_REF (R279). -/
def State.sourceAt (s : State) (n : Nat) (second : Bool) : Option Bool :=
  let diverted (b : Bool) : Bool := match s.mon.conv with
    | some c => c.work == .cal (if b then .ib n else .ia n) 0 || c.work == .cal (if b then .ib n else .ia n) 1 ||
      c.work == .cal (if b then .ib n else .ia n) 2
    | none => false
  let src : Option Bool :=
    if s.cfgHeld n (Reg.monChCfg_en n) == 0 || s.cfgHeld n (Reg.monChCfg_exc n) == 0 then none
    else if s.cfgHeld n (Reg.monChCfg_form n) = 1 then some (second != s.mon.swap)
    else if second then none else some false
  match src with
  | some b => if diverted b then none else some b
  | none => none

/-- The work of the converter is dropped: a calibration step and the die entry of the timer wait again; a regular entry, and
the die entry that ends a pass, follow from the pass. -/
def State.dropWork (s : State) : State :=
  match s.mon.conv with
  | none => s
  | some c =>
    let s := s.setConv none
    match c.work with
    | .cal st _ => { s with mon := { s.mon with cal := st :: s.mon.cal } }
    | .die false => { s with mon := { s.mon with dieDue := true } }
    | _ => s

/-- The channel the converter serves. -/
def State.convChan (s : State) : Option Nat :=
  match s.mon.conv with
  | some c => (match c.work with
    | .regular _ m => some m
    | .injected m _ => some m
    | _ => none)
  | none => none

/-- A conversion of a channel in progress is discarded (R280, R286). -/
def State.dropConv (s : State) (n : Nat) : State := if s.convChan = some n then s.setConv none else s

/-- Declare a channel OPEN (R272, R280, R286): a conversion of it in progress is discarded. -/
def State.openChan (s : State) (n cause : Nat) : State :=
  if s.flag (Reg.monChRes_open n) then s
  else
    let s := (((s.dropConv n).fput (Reg.monChRes_open n) 1).showStale n).bump (Reg.monChCnt_opens n) 1
    (s.setChan n { s.chan n with cause := cause }).raise 0xE001 .warn n
      (pf 22 1 cause + pf 24 2 (s.fget (Reg.monChRes_t n)))

/-- OPEN clears (R287, R272, R280). -/
def State.closeChan (s : State) (n : Nat) : State :=
  ((s.fput (Reg.monChRes_open n) 0).setChan n { s.chan n with cause := 0 }).raise 0xE002 .info n
    (pf 24 2 (s.fget (Reg.monChRes_t n)))

/-- The rate of the monitor converter (R272): while both roles are lost no conversion runs, and every enabled channel is
OPEN. -/
def State.monRate (s : State) : State :=
  let r := 2 - s.monRoles
  let s :=
    if r = s.fget Reg.monStat_rate then s
    else (s.fput Reg.monStat_rate r).raise 0xE00A (if r = 2 then .fault else .warn) 17 (pf 22 1 r)
  if r = 2 then s.dropWork.each ((List.range 16).filter s.monEn) (fun n s => s.openChan n 2) else s

/-- The current of a channel's sources, pA (R274). -/
def State.sourceCurrent (s : State) (n : Nat) : Int :=
  let ka : Int := (s.rget (Reg.monChCalKia n)).toNat
  let kb : Int := (s.rget (Reg.monChCalKib n)).toNat
  if s.fget (Reg.monChCfg_form n) = 1 then rdiv (ka + kb) 2 else ka

/-- Sensor resistance in mΩ (R274); a current of 0 leaves the quotient open, so it is the free value `free`. -/
def State.resistance (s : State) (n : Nat) (a free : Int) : Int :=
  let vn := rdiv ((a - (s.rget (Reg.monChCalZ n)).toInt) * ((s.rget (Reg.monChCalKv n)).toNat : Int)) 65536
  let ki := s.sourceCurrent n
  let r := if ki = 0 then free else rdiv (vn * 10 ^ 6) ki
  if s.fget (Reg.monChCfg_form n) = 0 then r - ((s.rget (Reg.monChRlead n)).toNat : Int) else r

/-- A coefficient in use (R275). -/
def State.coef (s : State) (n i j : Nat) : F64 := F64.ofF32 (tget (fun _ => 0) s.mon.coef (18 * n + 3 * i + j))

/-- Copy a channel's polynomial shadow into use (R275). -/
def State.loadCoef (s : State) (n : Nat) : State :=
  let s := s.each (List.range 18) (fun k s =>
    { s with mon := { s.mon with coef := tput (fun _ => 0) s.mon.coef (18 * n + k) (s.ld (0x157D0000 + 0x80 * n + 4 * k) 4) } })
  s.setChan n { s.chan n with load := false }

/-- Temperature in 0.1 °C (R275); `none` when the arithmetic gives no result. -/
def State.temperature (s : State) (n : Nat) (r : Int) : Option Int :=
  let rn := (s.rget (Reg.monChRnorm n)).toNat
  let q := F64.divInt r rn
  let xm := s.flag (Reg.monChCfg_xmode n)
  if xm && decide (r ≤ 0) then none
  else
    let x := if xm then q.ln else q
    let y := if s.flag Reg.monDie_valid then F64.divInt (s.fgetI Reg.monDie_td - 250) 1000 else .fin 0 0
    let p (j : Nat) : F64 := [4, 3, 2, 1, 0].foldl (fun p i => (p.mul x).add (s.coef n i j)) (s.coef n 5 j)
    ((((p 2).mul y).add (p 1)).mul y |>.add (p 0)).tenths

/-- A conversion of a channel ends without result (R273, R275, R277). -/
def State.monNoResult (s : State) (n err : Nat) : State :=
  let s := s.fput (Reg.monChRes_err n) err
  if (s.chan n).range then s
  else (s.setChan n { s.chan n with range := true }).raise 0xE003 .warn n (pf 22 1 err)

/-- Limit checks of a new T (R278). -/
def State.monLimits (s : State) (n : Nat) (t : Int) : State :=
  let hi := s.fgetI (Reg.monChLim_hi n)
  let lo := s.fgetI (Reg.monChLim_lo n)
  if hi = 32767 ∧ lo = -32767 then s
  else
    let x := s.chan n
    let ev (s : State) (c : Nat) (sev : Sev) : State := s.raise 0xE004 sev n (pf 22 1 c + pfI 24 2 t)
    if hi < t then (if x.hi then s else ev (s.setChan n { x with hi := true, lo := false }) 1 .warn)
    else if t < lo then (if x.lo then s else ev (s.setChan n { x with lo := true, hi := false }) 2 .warn)
    else if (x.hi && decide (t ≤ hi - 10)) || (x.lo && decide (lo + 10 ≤ t)) then
      ev (s.setChan n { x with hi := false, lo := false }) 3 .info
    else s

/-- A conversion of a channel gives a result (R277, R287). -/
def State.monResult (s : State) (n : Nat) (r t : Int) : State :=
  let k := s.stamp
  let s := ((k.2.fputI (Reg.monChRes_t n) t).rput (Reg.monChR n) (BitVec.ofInt 32 r)).wput (Reg.monChTime0 n) k.1
  let s := ((s.fput (Reg.monChRes_valid n) 1).fput (Reg.monChRes_err n) 0).fput (Reg.monChRes_cnt n)
    (s.fget (Reg.monChRes_cnt n) + 1)
  let x := s.chan n
  let s := s.setChan n { x with range := false, changed := false, aged := false }
  let s :=
    if s.flag (Reg.monChRes_open n) && ((x.cause == 1 && decide (64 ≤ x.pass)) || x.cause == 2) then s.closeChan n
    else s
  (s.showStale n).monLimits n t

/-- A channel's conversion ends (R273 to R277). -/
def State.monChannelEnd (s : State) (n : Nat) (c : MonConv) : State :=
  if c.clip then s.monNoResult n 1
  else
    let a := rdiv c.sum (2 ^ c.n : Nat)
    let r := s.resistance n a (Config.openNat s.fresh : Nat)
    let s : State := if s.sourceCurrent n = 0 then { s with fresh := s.fresh + 1 } else s
    match s.temperature n r with
    | some t => s.monResult n r t
    | none => s.monNoResult n 2

/-- Conversion of a channel begins: the coefficients due are loaded (R275), then SETTLE and 2^N periods (R273). -/
def State.monBegin (s : State) (w : MonWork) (n : Nat) : State :=
  let s := if (s.chan n).load then (s.loadCoef n).markStale n else s
  let k := s.fget (Reg.monChCfg_n n)
  let d := s.fget (Reg.monChCfg_settle n)
  s.setConv (some { work := w, dwell := d, settle := d, left := 2 ^ k, sum := 0, clip := false, n := k, restart := false })

/-- Begin a calibration step (R279): a channel's own steps divert its current, so its result is STALE (R277). -/
def State.stepBegin (s : State) (st : MonStep) (tries : Nat) : State :=
  let k := s.fget Reg.monCtrl_caln
  let s := match st with
    | .ia n => s.markStale n
    | .ib n => s.markStale n
    | .z n => s.markStale n
    | .v n => s.markStale n
    | _ => s
  s.setConv (some
    { work := .cal st tries, dwell := 1, settle := 1, left := 2 ^ k, sum := 0, clip := false, n := k, restart := false })

/-- The constants a channel needs are all there (R280). -/
def State.constantsOk (s : State) (n : Nat) : Bool :=
  let has (st : MonStep) : Bool := tget (fun _ => false) s.mon.accepted st.key
  has (.z n) && has (.v n) && (s.fget (Reg.monChCfg_exc n) == 0 ||
    (has (.ia n) && (s.fget (Reg.monChCfg_form n) != 1 || has (.ib n))))

/-- FAULT of every enabled channel follows from its constants once a calibration is over (R280). -/
def State.faultUpdate (s : State) : State :=
  s.each ((List.range 16).filter s.monEn) (fun n s =>
    if s.constantsOk n then
      let s := s.fput (Reg.monChRes_fault n) 0
      if s.flag (Reg.monChRes_open n) && (s.chan n).cause == 3 then s.closeChan n else s
    else ((s.fput (Reg.monChRes_fault n) 1).dropConv n).openChan n 3)

/-- A calibration is over (R281). -/
def State.monCalEnd (s : State) : State :=
  let s := s.faultUpdate
  let s := (s.fput Reg.monStat_cal_busy 0).raise 0xE007 .info 17 (pf 22 1 (min 255 s.mon.calRej))
  { s with mon := { s.mon with calFirst := false, rejNow := [], refBad := [] } }

/-- A constant is rejected (R280). -/
def State.stepReject (s : State) (st : MonStep) : State :=
  let e := s.stepEvent st
  let k := st.key
  let row := tget (fun _ => 0) s.mon.rejRow k + 1
  let cals := tget (fun _ => 0) s.mon.rejCals k + (if tget (fun _ => false) s.mon.rejNow k then 0 else 1)
  let fault := cals == 3 && !tget (fun _ => false) s.mon.rejNow k
  let s : State := { s with
    mon := { s.mon with
      rejRow := tput (fun _ => 0) s.mon.rejRow k row, rejCals := tput (fun _ => 0) s.mon.rejCals k cals
      rejNow := tput (fun _ => false) s.mon.rejNow k true, calRej := s.mon.calRej + 1
      refBad := if k < 16 then tput (fun _ => false) s.mon.refBad (k % 8) true else s.mon.refBad } }
  let s := if e.2.1 < 16 then s.bump (Reg.monChCnt_rejects e.2.1) 1 else s
  let pay := pf 22 1 e.1 + pf 23 1 row + pf 24 1 e.2.2
  let s := s.raise 0xE005 .warn e.2.1 pay
  if fault then s.raise 0xE006 .fault e.2.1 pay else s

/-- A calibration step ends (R279, R280): accepted, rejected, or repeated at once in the first calibration. -/
def State.stepEnd (s : State) (st : MonStep) (tries : Nat) (c : MonConv) : State :=
  let a := rdiv c.sum (2 ^ c.n : Nat)
  let k := st.key
  let needs : Bool := match st with
    | .ia n => tget (fun _ => false) s.mon.refBad (s.refGain n)
    | .ib n => tget (fun _ => false) s.mon.refBad (s.refGain n)
    | .vr g => tget (fun _ => false) s.mon.rejNow (MonStep.zr g).key
    | _ => false
  let v := if c.clip || (needs && decide (48 ≤ k)) then none else s.stepValue st a
  let good : Option Int := match v with
    | some v => if s.stepOk st v then some v else none
    | none => none
  match good with
  | some v =>
    let s := s.rput st.reg (BitVec.ofInt 32 v)
    { s with
      mon := { s.mon with
        accepted := tput (fun _ => false) s.mon.accepted k true, rejRow := tput (fun _ => 0) s.mon.rejRow k 0
        rejCals := tput (fun _ => 0) s.mon.rejCals k 0, rejNow := tput (fun _ => false) s.mon.rejNow k false
        refBad := if k < 8 then tput (fun _ => false) s.mon.refBad k false
          else if k < 16 then
            tput (fun _ => false) s.mon.refBad (k % 8) (tget (fun _ => false) s.mon.rejNow (k % 8))
          else s.mon.refBad } }
  | none =>
    let s := s.stepReject st
    if s.mon.calFirst && decide (tries < 2) then
      s.stepBegin st (tries + 1)
    else s

/-- Start a calibration once no injected conversion pends (R281). -/
def State.monCalStart (s : State) : State :=
  let s : State := { s with
    mon := { s.mon with cal := s.calSteps, calReq := false, calRej := 0, rejNow := [], refBad := [], turn := false } }
  let s := s.fput Reg.monStat_cal_busy 1
  if s.mon.cal = [] then s.monCalEnd else s

/-- The converter's present work ends (R273). -/
def State.convEnd (s : State) (c : MonConv) : State :=
  let s := s.setConv none
  match c.work with
  | .regular _ n => s.monChannelEnd n c
  | .injected n notify =>
    let s := s.monChannelEnd n c
    if notify then
      s.raise 0xE009 .info n (pf 22 1 ((s.rget (Reg.monChRes n)).toNat / 256) + pf 24 2 (s.fget (Reg.monChRes_t n)))
    else s
  | .die closing =>
    let s : State := { s with
      mon := { s.mon with dieDue := false, inPass := if closing then false else s.mon.inPass } }
    if c.clip then s
    else (s.fput Reg.monDie_td (Config.dieLaw (rdiv c.sum 16)).toNat).fput Reg.monDie_valid 1
  | .cal st tries =>
    let s := s.stepEnd st tries c
    if s.mon.conv.isSome then s
    else if s.mon.cal = [] then s.monCalEnd else s

/-- Channel of entry `e` of the sequence in use (R282, R290). -/
def seqChannel (use : List Nat) (e : Nat) : Nat := bitsAt (use.getD (1 + e / 8) 0) (4 * (e % 8)) 4

/-- An entry is skipped (R282); a channel that lacks a constant runs no conversion either, before a calibration has made it
FAULT (R280). -/
def State.entrySkipped (s : State) (n : Nat) : Bool :=
  !s.monEn n || s.flag (Reg.monChRes_fault n) || !s.constantsOk n || (s.flag (Reg.monChRes_open n) && decide ((s.chan n).pass < 64))

/-- MON_SEQ_CTRL as the pass in progress, or the last one, took it (R282): what is written acts from the next pass on. Before
the first pass it is the register (DEDUCED, log entry 68). -/
def State.seqCtl (s : State) : Nat := s.mon.use.getD 0 (s.rget Reg.monSeqCtrl).toNat

/-- A pass starts with the sequence as written (R282, R283). -/
def State.passStart (s : State) : State :=
  { s with
    mon := { s.mon with
      inPass := true, trig := false, next := 0, ovr := false
      use := [(s.rget Reg.monSeqCtrl).toNat, (s.rget (Reg.monSeq 0)).toNat, (s.rget (Reg.monSeq 1)).toNat,
        (s.rget (Reg.monSeq 2)).toNat, (s.rget (Reg.monSeq 3)).toNat] } }

/-- The die entry (R276): one settle period and 16 samples. -/
def State.dieBegin (s : State) (closing : Bool) : State :=
  s.setConv (some
    { work := .die closing, dwell := 1, settle := 1, left := 16, sum := 0, clip := false, n := 4, restart := false })

/-- The next regular work (R276, R282): the state with a conversion begun, or none when nothing is due. The die entry ends
the pass. -/
def State.regularBegin (s : State) : Option State :=
  let s := if !s.mon.inPass && (!bitAt s.seqCtl 30 || s.mon.trig) then s.passStart else s
  if s.mon.inPass then
    let last := bitsAt s.seqCtl 21 5
    match (List.range 33).find? (fun e =>
        decide (s.mon.next ≤ e ∧ e ≤ last) && !s.entrySkipped (seqChannel s.mon.use e)) with
    | some e =>
      if s.mon.dieDue then some (s.dieBegin false)
      else
        let n := seqChannel s.mon.use e
        let s : State := { s with mon := { s.mon with next := e } }
        some ((s.fput Reg.monStat_entry e).monBegin (.regular e n) n)
    | none => some (s.dieBegin true)
  else if s.mon.dieDue then some (s.dieBegin false)
  else none

/-- Injected requests whose channel has since become FAULT or disabled are dropped (R280; log entry 67). -/
def State.dropInj (s : State) : State :=
  let inj := s.mon.inj.filter (fun x => s.monEn x.1 && !s.flag (Reg.monChRes_fault x.1))
  ({ s with mon := { s.mon with inj := inj } } : State).fput Reg.monStat_inj_pend inj.length

/-- Take work at a boundary at which the converter is free (R281, R284). -/
def State.takeWork (s : State) : State :=
  let s := if s.mon.calReq && s.mon.inj == [] && s.mon.cal == [] && !s.flag Reg.monStat_cal_busy then s.monCalStart else s
  -- a channel that is disabled or FAULT runs no conversion
  let s := s.dropInj
  match s.mon.inj with
  | (n, notify) :: rest =>
    let s : State := { s with mon := { s.mon with inj := rest } }
    (s.fput Reg.monStat_inj_pend rest.length).monBegin (.injected n notify) n
  | [] =>
    let reg (s : State) : State := match s.regularBegin with
      | some s => { s with mon := { s.mon with turn := false } }
      | none => s
    match s.mon.cal with
    | st :: rest =>
      let step (s : State) : State :=
        (({ s with mon := { s.mon with cal := rest, turn := true } } : State)).stepBegin st 0
      if s.mon.turn then
        match s.regularBegin with
        | some s => { s with mon := { s.mon with turn := false } }
        | none => step s
      else step s
    | [] => reg s

/-- ACT shows what the converter does (R290). -/
def State.showAct (s : State) : State :=
  s.fput Reg.monStat_act (match s.mon.conv with
    | none => 0
    | some c => (match c.work with
      | .regular _ _ => 1
      | .injected _ _ => 2
      | .cal _ _ => 3
      | .die _ => 4))

/-- A run of at least 16 consecutive readings outside the window (R286). -/
def windowFails (lo hi : Int) : Nat → List Int → Bool
  | _, [] => false
  | n, v :: r => if v < lo ∨ hi < v then (if n = 15 then true else windowFails lo hi (n + 1) r) else windowFails lo hi 0 r

/-- The channel of a calibration step (R279). -/
def MonStep.chan : MonStep → Option Nat
  | .z m => some m
  | .v m => some m
  | .ia m => some m
  | .ib m => some m
  | _ => none

/-- The channel whose own calibration step runs. -/
def State.stepChan (s : State) : Option Nat :=
  match s.mon.conv with
  | some c => (match c.work with
    | .cal st _ => st.chan
    | _ => none)
  | none => none

/-- A channel's own calibration step runs. -/
def State.ownStep (s : State) (n : Nat) : Bool := s.stepChan == some n

/-- A channel's chop period has failed the window (R286): a channel that is OPEN already has its conversion in progress
discarded too, and a broken wire takes the place of cause 2. -/
def State.windowOpen (s : State) (n : Nat) : State :=
  if s.flag (Reg.monChRes_open n) then
    let x := s.chan n
    (s.dropConv n).setChan n { x with cause := if x.cause = 2 then 1 else x.cause }
  else s.openChan n 1

/-- The window checks of a chop period (R286). -/
def State.windowChecks (s : State) (cm : List (List Int)) : State :=
  s.each ((List.range 16).filter (fun n => s.cfgHeld n (Reg.monChCfg_en n) == 1 && !s.ownStep n)) (fun n s =>
    let w := (s.monHeld n).2.toNat
    let lim (f : Fld) : Int := fld w f
    let bad := windowFails (lim (Reg.monChCmwin_cmlo n)) (lim (Reg.monChCmwin_cmhi n)) 0 (cm.getD n [])
    let x := s.chan n
    if bad then (s.setChan n { x with pass := 0 }).windowOpen n
    else s.setChan n { x with pass := min 64 (x.pass + 1) })

/-- The ERR checks of group 64's slices (R80): a chop period counts as one readout (DESIGN CHOICE, log entry 52). No line is
suspect by them. -/
def State.monErrCheck (s : State) (e0 e1 : Bool) : State :=
  let one (s : State) (r : Nat) (e : Bool) : State := match s.serving 64 r with
    | some l =>
      if e then s.readFail 64 l 2 lineNone
      else
        let n := sliceNo 64 l
        let s := s.fput (Reg.adcSliceStat_run n) 0
        { s with adc := { s.adc with firstSuspect := tput (fun _ => none) s.adc.firstSuspect n none } }
    | none => s
  one (one s 0 e0) 1 e1

/-- The sample of a chop period and whether it is over-range (R271): each role gives 125 codes a half, of which those of the
first 2 µs, 25, are discarded. -/
def State.chopSample (s : State) (c : ChopIn) : Int × Bool :=
  let y (r : Nat) (codes : List Nat) : List Nat := match s.serving 64 r with
    | some l => (codes.drop 25).map (s.correctBy (sliceNo 64 l))
    | none => []
  let plus := y 0 c.plus0 ++ y 1 c.plus1
  let minus := y 0 c.minus0 ++ y 1 c.minus1
  let sum (l : List Nat) : Int := l.foldl (fun a (v : Nat) => a + ((v : Int) - 32768)) 0
  let nh : Int := if 2 ≤ s.monRoles then 200 else 100
  (rdiv (2 * (sum plus - sum minus)) nh, (plus ++ minus).any (fun v => v == 0 || decide (65532 ≤ v)))

/-- Averaging starts again at the boundary after a change of the channel's settings (R288), with the SETTLE and N of the
conversion and its coefficients (R275). A conversion or step of a channel that no longer runs ends; a calibration whose last
step that was is over (R281). -/
def State.convRestart (s : State) (v : MonConv) : State :=
  if (s.convChan <|> s.stepChan).any s.monEn then
    s.setConv (some { v with settle := v.dwell, left := 2 ^ v.n, sum := 0, clip := false, restart := false })
  else
    let s := s.setConv none
    match v.work with
    | .cal _ _ => if s.mon.cal = [] then s.monCalEnd else s
    | _ => s

/-- A chop period of a pause ends (R285, R288): it counts for nothing but the settings written in it. -/
def State.convPause (s : State) : State :=
  match s.mon.conv with
  | some v => if v.restart then s.convRestart v else s
  | none => s

/-- The conversion in progress takes a chop period (R273, R288). -/
def State.convPeriod (s : State) (c : ChopIn) : State :=
  match s.mon.conv with
  | none => s
  | some v =>
    if v.restart then s.convRestart v
    else if 0 < v.settle then s.setConv (some { v with settle := v.settle - 1 })
    else
      let x := s.chopSample c
      let v := { v with left := v.left - 1, sum := v.sum + x.1, clip := v.clip || x.2 }
      if v.left = 0 then
        let s := match v.work with
          | .regular e _ => ({ s with mon := { s.mon with next := e + 1 } } : State)
          | _ => s
        s.convEnd v
      else s.setConv (some v)

/-- An injected request pre-empts a regular entry at the boundary (R284). -/
def State.preempt (s : State) : State :=
  let s := s.dropInj
  match s.mon.conv with
  | some c =>
    if s.mon.inj = [] then s
    else match c.work with
      | .regular _ _ => s.dropWork
      | .die _ => s.dropWork
      | _ => s
  | none => s

/-- Between two conversions the converter takes its hand-over point (R76) and its next work (R284). -/
def State.boundaryWork (s : State) : State :=
  let s := s.preempt
  if s.mon.conv.isSome then s.showAct
  else
    let s := (s.handOver 64 true).monRate
    let s := if s.fget Reg.monStat_rate = 2 then s else s.takeWork
    s.showAct

/-- BLANK is at its active level (R285). -/
def State.blankActive (s : State) : Bool := s.mon.blank != s.flag Reg.monBlank_pol

/-- The settings written within the chop period apply from its end on (R288). -/
def State.newPeriod (s : State) : State := { s with mon := { s.mon with was := [] } }

/-- A chop period ends (R271 to R288); none counts during the start-up calibration of group 64 (R77). The sources of the
3-wire channels are exchanged (R269). A pause of R285 stops sampling alone: work is taken and pre-empted at its boundaries too
(R284). -/
def State.chopPeriod (s : State) (c : ChopIn) : State :=
  if !s.flag Reg.monCtrl_en then s
  else
    let s : State := { s with mon := { s.mon with swap := !s.mon.swap } }
    if (s.grp 64).startup != [] then s
    else
      let obeyed := s.flag Reg.monBlank_en && !s.flag Reg.monStat_blank_ign
      let pause := obeyed && (s.blankActive || s.flag Reg.monStat_blanked && decide (s.sys.now < s.mon.resumeAt))
      if pause || s.flag Reg.monStat_blanked then (s.fputB Reg.monStat_blanked pause).newPeriod.convPause.boundaryWork
      else
        let s := (((s.monErrCheck c.err0 c.err1).windowChecks c.cm).monRate).newPeriod
        (s.convPeriod c).boundaryWork

/-- BLANK has become active (R285): the chop period in progress yields no sample. -/
def State.blankRose (s : State) : State := if s.flag Reg.monBlank_en then s.fput Reg.monStat_blanked 1 else s

/-- BLANK has become inactive (R285): sampling resumes at the first boundary after HOLD. -/
def State.blankFell (s : State) : State :=
  ({ s with mon := { s.mon with resumeAt := s.sys.now + 1000 * s.fget Reg.monBlank_hold } } : State).fput
    Reg.monStat_blank_ign 0

/-- BLANK goes to its active level (R285). -/
def State.blankOn (s : State) : State :=
  ({ s with mon := { s.mon with blank := !s.flag Reg.monBlank_pol } } : State).blankRose

/-- BLANK returns to its inactive level (R285). -/
def State.blankOff (s : State) : State :=
  ({ s with mon := { s.mon with blank := s.flag Reg.monBlank_pol } } : State).blankFell

/-- BLANK has stayed active for more than MAX ms (R285): it is ignored. -/
def State.blankLong (s : State) : State :=
  if s.blankActive && s.flag Reg.monBlank_en && s.fget Reg.monBlank_max != 0 && !s.flag Reg.monStat_blank_ign then
    (s.fput Reg.monStat_blank_ign 1).raise 0xE00B .warn 17 0
  else s

/-- A trigger of the sequence (R282, R283). -/
def State.monTrigger (s : State) : State :=
  if !bitAt s.seqCtl 30 then s
  else if s.mon.inPass then
    let s := s.bump Reg.monSeqOvr_val 1
    if s.mon.ovr then s else ({ s with mon := { s.mon with ovr := true } } : State).raise 0xE008 .warn 17 0
  else { s with mon := { s.mon with trig := true } }

/-- A trigger of source `k` of TSRC (R282). -/
def State.monTriggerBy (s : State) (k : Nat) : State := if bitsAt s.seqCtl 28 2 = k then s.monTrigger else s

/-- A setting of a channel has changed (R277, R288): a conversion or calibration step of it in progress restarts. `old` is
its CFG and window before the write, which hold to the end of a chop period that runs. -/
def State.monChanged (s : State) (n : Nat) (old : Word × Word) : State :=
  let s := s.markStale n
  let s : State :=
    if s.mon.was.any (fun x => x.1 == n) || !s.flag Reg.monCtrl_en then s else { s with mon := { s.mon with was := (n, old) :: s.mon.was } }
  match s.mon.conv with
  | some c => if s.convChan = some n || s.ownStep n then s.setConv (some { c with restart := true }) else s
  | none => s

/-- A new AGE (R277): a result stays aged while it is older than the new limit. -/
def State.ageChanged (s : State) (old : Nat) : State :=
  let age := s.fget Reg.monCtrl_age
  s.each (List.range 16) (fun n s =>
    let x := s.chan n
    let aged := x.aged && age != 0 &&
      (decide (age ≤ old) || decide (s.wget (Reg.monChTime0 n) + age * 10000000 < s.sys.now))
    (s.setChan n { x with aged := aged }).showStale n)

end Sys2Proof.Machine
end

