-- ==== Sys2Proof/Machine/CouchOps.lean ====
section
/-!
DEFINITION. The couch store and the seam check of a couch (R247 to R250), and the pixels of lines as the analysis island
sees them (R168).
-/

namespace Sys2Proof.Machine

/-- Overlap lines are numbered outside the series of R5 (R247): by this much above the line they re-capture. -/
def overlapBase : Nat := 2 ^ 48

def isOverlap (n : Nat) : Bool := decide (overlapBase ≤ n)

/-- v16 of a plane's output pixel in a list of runs; `none` when nothing was written for it. -/
def runAt : List PxRun → Nat → Nat → Option Nat
  | [], _, _ => none
  | r :: rest, k, x => if r.k = k ∧ r.x ≤ x ∧ x < r.x + r.vs.length then r.vs[x - r.x]? else runAt rest k x

/-- The items of the packet that hold a pixel's bytes (R132): bytes 2u and 2u + 1, or bits 12u to 12u + 11. -/
def LineImg.itemsOf (i : LineImg) (k x : Nat) : List Nat :=
  let u := x - i.cfg.start
  let b := 64 + k * i.cfg.plane
  if bitAt i.cfg.fmt 0 then [(b + 12 * u / 8) / 16, (b + (12 * u + 11) / 8) / 16] else [(b + 2 * u) / 16]

/-- v16 of an output pixel of a line (R168): `none` outside the deckle window, in a plane not captured, or touched by a
poisoned word (R297). -/
def LineImg.at (i : LineImg) (k x : Nat) : Option Nat :=
  if i.cfg.start ≤ x ∧ x < i.cfg.start + i.cfg.width ∧ k < i.cfg.c ∧ (i.itemsOf k x).any i.bad.contains = false then
    runAt i.runs k x
  else none

/-- Output line number of a captured line (R127). -/
def outLine (bin : Bool) (n : Nat) : Nat := if bin then n / 2 else n

/-- Bytes of a record that the rule leaves without a value (free values). -/
def State.openBytes (s : State) (a n : Nat) : List Byte × State :=
  ((List.range n).map (fun i => Config.openByte s.fresh (a + i)), { s with fresh := s.fresh + 1 })

/-- Captured number of an output line (R127). -/
def State.capLine (s : State) (l : Nat) : Nat := if s.binned then 2 * l else l

/-- A result record (R202); `ext` gives bytes 10 and 12 to 15 where the rule states them. -/
def State.record (s : State) (a : Nat) (line : Nat) (dx dy : Int) (status : Nat) (b10 : Option Nat)
    (ext : Option Nat) : State :=
  let o := s.openBytes a 16
  let q := match b10 with
    | some q => leBytes 1 q
    | none => (o.1.drop 10).take 1
  let x := match ext with
    | some v => leBytes 4 v
    | none => o.1.drop 12
  let s := if b10.isNone || ext.isNone then o.2 else s
  s.store a (leBytes 6 line ++ leBytes 2 (ofInt 16 dx) ++ leBytes 2 (ofInt 16 dy) ++ q ++ leBytes 1 status ++ x)

/-- Address of strip `i`, line `l`, of the stored copies or the re-captures (R248). -/
def stripAddr (i : Nat) (re : Bool) (l : Nat) : Nat := 0x15740000 + 0x2000 * b2n re + 0x400 * i + 128 * (l % 8)

def stripKey (i : Nat) (re : Bool) (l : Nat) : Nat := 16 * i + 8 * b2n re + l % 8

/-- Store a line's strips (R248). A line of an earlier job makes no strip of this one whole. -/
def State.putStrips (s : State) (re : Bool) (img : LineImg) : State :=
  let l := outLine (bitAt img.cfg.fmt 1) (img.n % overlapBase)
  let k := s.fget Reg.motCouchCtrl_chan
  s.each ((List.range 8).filter (fun i => s.flag (Reg.motCouchStrip_en i))) (fun i s =>
    let px := (List.range 128).map (fun d => (img.at k (s.fget (Reg.motCouchStrip_x0 i) + d)).getD 0xFFFF)
    let good := !px.contains 0xFFFF
    let s := s.store (stripAddr i re l) (px.map (fun v => BitVec.ofNat 8 (v / 256)))
    let whole := if good && img.cfg.job == s.fget Reg.sysState_job then some l else none
    { s with mot := { s.mot with strip := tput (fun _ => none) s.mot.strip (stripKey i re l) whole } })

/-- A strip is whole (R248): its 8 lines, stored and re-captured, up to output line `l`, are present and hold no no-data
pixel. With fewer than 8 lines before the couch no strip is whole. -/
def State.stripWhole (s : State) (i l : Nat) : Bool :=
  decide (7 ≤ l) && s.flag (Reg.motCouchStrip_en i) && (List.range 8).all (fun d =>
    let m := l - d
    tget (fun _ => none) s.mot.strip (stripKey i false m) == some m &&
      tget (fun _ => none) s.mot.strip (stripKey i true m) == some m)

/-- The seam check is over (R250): the residual, COUCH_DONE, and the commit of line N + 1. -/
def State.couchVerdict (s : State) (c : CouchCheck) : State :=
  let m := c.dys.length
  let ec := rdiv ((sumI c.dys) * 127000) (768 * (m : Int))
  let ec := if m = 0 then 0 else ec
  let bad := decide ((s.fget Reg.motCouchLim_lim : Int) < ec.natAbs) || (m == 0 && s.flag Reg.motCouchCtrl_strict)
  let s := s.rput Reg.motCouchRes (BitVec.ofInt 32 ec)
  let s := if bad then s.bump Reg.motCouchCnt_suspect 1 else s
  let s := s.raiseAt 0xC00C (if bad then .warn else .info) 0 c.line (pf 22 1 m + pfI 24 4 ec)
  let mine (r : Resv) : Bool := r.kind == .line c.line
  if s.lff.resv.any mine then
    { s with
      lff := { s.lff with
        resv := s.lff.resv.map (fun r =>
          if mine r then { r with wait := false, flags := r.flags ||| 2 * b2n bad } else r) }
      mot := { s.mot with check := none } }
  else { s with mot := { s.mot with check := some { c with verdict := some bad } } }

/-- Result record of strip `i` (R248): laid out as R202, with the line number of the strip's first line. -/
def State.stripRecord (s : State) (i : Nat) (k : CouchCheck) (dx dy : Int) (status : Nat) (q t : Option Nat) : State :=
  s.record (0x15744000 + 16 * i) (s.capLine (outLine s.binned (k.line - 1) - 7)) dx dy status q t

/-- The last overlap line is complete or dropped (R249): one comparison per enabled, whole strip goes to the head of the
correlator queue; the result of an enabled strip that is not whole says so (R248). -/
def State.couchQueue (s : State) (k : CouchCheck) : State :=
  let l := outLine (bitAt s.format 1) (k.line - 1)
  let strips := (List.range 8).filter (fun i => s.stripWhole i l)
  let items := strips.map (fun i => ({ kind := .couch i, age := s.sys.now / 2, fails := 0 } : CorrItem))
  let torn := (List.range 8).filter (fun i => s.flag (Reg.motCouchStrip_en i) && !s.stripWhole i l)
  let s := s.each torn (fun i s => s.stripRecord i k (-32768) (-32768) 2 none none)
  let k := { k with queued := true, out := strips.length }
  let s : State := { s with trk := { s.trk with queue := items ++ s.trk.queue } }
  if strips = [] then s.couchVerdict k else { s with mot := { s.mot with check := some k } }

/-- An output overlap line is complete or dropped (R249). -/
def State.overlapEnded (s : State) : State :=
  match s.mot.check with
  | none => s
  | some k =>
    let k := { k with ended := k.ended + 1 }
    let s : State := { s with mot := { s.mot with check := some k } }
    if k.ended = min 8 (outLine (bitAt s.format 1) (k.line - 1) + 1) then s.couchQueue k else s

end Sys2Proof.Machine
end

