-- ==== Sys2Proof/Machine/NzlOps.lean ====
section
/-!
DEFINITION. Shared operations of the nozzle block (chapter 7): descriptors and their checks, bands, expected positions,
one dash's measurement, contexts, chunks, the streak monitor.
-/

namespace Sys2Proof.Machine

/-- A geometry descriptor (R172). `bad` says that a reserved bit is 1. -/
structure NzDesc where
  u0 : Int
  pitch : Int
  count : Nat
  base : Nat
  row : Bool
  stream : Nat
  chan : Nat
  streak : Bool
  clr : Bool
  s : Nat
  hw : Nat
  wref : Nat
  v0 : Int
  vstep : Nat
  dlen : Nat
  tset : Nat
  bad : Bool
  deriving DecidableEq, Repr

/-- Base of the descriptors' shadow table and of the table in force (R172). -/
def nzShadow : Nat := 0x15710000
def nzForce : Nat := 0x15718000

/-- Descriptor `j` of a table (R172). -/
def State.nzDesc (s : State) (base j : Nat) : NzDesc :=
  let a := base + 32 * j
  let m := s.ld (a + 12) 1
  { u0 := s.ldI a 4, pitch := s.ldI (a + 4) 2, count := s.ld (a + 6) 3, base := s.ld (a + 9) 3, row := bitAt m 0
    stream := bitsAt m 1 2, chan := bitsAt m 3 2, streak := bitAt m 5, clr := bitAt m 6, s := s.ld (a + 13) 1
    hw := s.ld (a + 14) 1, wref := s.ld (a + 15) 1, v0 := s.ldI (a + 16) 4, vstep := s.ld (a + 20) 2
    dlen := s.ld (a + 22) 1, tset := s.ld (a + 23) 1 % 4
    bad := bitAt m 7 || s.ld (a + 23) 1 / 4 != 0 || s.ld (a + 24) 8 != 0 }

/-- Dash row of nozzle `n` as a first line or pixel (R172). -/
def NzDesc.vAt (d : NzDesc) (n : Nat) : Int := d.v0 + ((n % d.s) * d.vstep : Nat)

/-- Lowest and highest track position of the nozzles. -/
def NzDesc.ends (d : NzDesc) : Int × Int :=
  let e := d.u0 + ((d.count : Int) - 1) * d.pitch
  (min d.u0 e, max d.u0 e)

/-- A descriptor is active (R172). -/
def NzDesc.active (d : NzDesc) : Bool := d.count != 0

/-- The checks of R173 that concern one descriptor alone pass. -/
def NzDesc.ok (d : NzDesc) (bin : Bool) : Bool :=
  let last := d.v0 + ((min d.s d.count - 1) * d.vstep : Nat) + d.dlen - 1
  !d.bad && d.pitch != 0 && decide (d.count ≤ 655360 ∧ d.base < 2 ^ 20 ∧ 1 ≤ d.s ∧ d.s ≤ 16 ∧ 1 ≤ d.hw ∧ d.hw ≤ 15 ∧
    1 ≤ d.wref ∧ 1 ≤ d.dlen ∧ d.dlen ≤ 64 ∧ d.base + d.count ≤ 655360 ∧
    64 * (2 * d.hw + 5) ≤ d.s * d.pitch.natAbs) &&
  (if d.row then
    !bin && decide ((64 * (d.hw + 2) : Nat) ≤ d.ends.1 ∧ 0 ≤ d.v0 ∧ last ≤ 327679)
  else decide (0 ≤ d.v0))

/-- The context ranges of two active descriptors overlap (R173). -/
def NzDesc.overlaps (d e : NzDesc) : Bool := decide (d.base < e.base + e.count ∧ e.base < d.base + d.count)

/-- The first active descriptor of the shadow table that fails its check (R173). -/
def State.nzFirstBad (s : State) (bin : Bool) : Option Nat :=
  let act := (List.range 1024).filter (fun j => (s.nzDesc nzShadow j).active)
  act.find? (fun j =>
    let d := s.nzDesc nzShadow j
    !d.ok bin || act.any (fun i => i != j && d.overlaps (s.nzDesc nzShadow i)))

/-- Active descriptors of a stream in the table in force. -/
def State.nzOf (s : State) (stream : Nat) : List Nat :=
  (List.range 1024).filter (fun j => let d := s.nzDesc nzForce j; d.active && d.stream == stream)

/-- Extent of a stream (R176). -/
def State.nzExt (s : State) (stream : Nat) : Nat :=
  (s.nzOf stream).foldl (fun m j =>
    let d := s.nzDesc nzForce j
    let e : Int := if d.row then d.ends.2.fdiv 64 + d.hw + 35 else d.v0 + ((d.s - 1) * d.vstep : Nat) + d.dlen + 32
    max m e.toNat) 0

/-- Address of context `i` (R169). -/
def ctxAddr (i : Nat) : Nat := 0x14000000 + 16 * i

/-- Zero a range of contexts (R171, R174). -/
def State.zeroContexts (s : State) (first count : Nat) : State := s.clear (ctxAddr first) (16 * count)

/-- A commit of the descriptors at JB (R172, R174): the shadow table becomes the table in force, and contexts of
descriptors with CLR are zeroed. -/
def State.nzCommit (s : State) : State :=
  let s := s.store nzForce (s.bytes nzShadow 0x8000)
  s.each (List.range 1024) (fun j s =>
    let d := s.nzDesc nzForce j
    if d.active && d.clr then s.zeroContexts d.base d.count else s)

/-- Contexts in state `k` (R194); a STATE of 6 or 7 counts as UNSEEN (R170). -/
def State.stateCount (s : State) (k : Nat) : Nat :=
  let st (v : Byte) : Nat := let n := v.toNat % 8; if 6 ≤ n then 0 else n
  let held := s.mem.filter (fun c =>
    decide (0x14000000 ≤ c.1 ∧ c.1 < 0x14A00000) && (c.1 % 16 == 12) && st c.2 != 0)
  if k = 0 then 655360 - held.length else (held.filter (fun c => st c.2 == k)).length

/-- OX, SK and SC for a band (R177). -/
def State.bandGeom (s : State) : Int × Int × Int :=
  if s.flag Reg.nzlCtrl_trkcor then (s.fgetI Reg.trkGeom0_ox, s.fgetI Reg.trkGeom1_sk, s.fgetI Reg.trkGeom2_sc)
  else (s.fgetI Reg.nzlGeom0_ox, s.fgetI Reg.nzlGeom1_sk, s.fgetI Reg.nzlGeom2_sc)

/-- The descriptor as measured in a job (R180). -/
def NzDesc.scaled (d : NzDesc) (bin : Bool) : NzDesc :=
  if bin then
    { d with u0 := rdiv d.u0 2, pitch := rdiv d.pitch 2, v0 := rdiv d.v0 2, vstep := (d.vstep + 1) / 2, wref := (d.wref + 1) / 2 }
  else d

/-- Where a dash is expected (R178, R179): the position u, the window's centre, the dash's first line (column, from the
band start line) or pixel (row), and whether the observation is clamped. -/
structure DashAt where
  u : Int
  q0 : Int
  first : Int
  clamped : Bool
  deriving DecidableEq, Repr

/-- Expected position of nozzle `n` (R178, R179); `d` is already scaled and `ox` halved in binned jobs. -/
def NzDesc.dash (d : NzDesc) (ox sk sc : Int) (ext n : Nat) : DashAt :=
  if d.row then
    let x0 := d.vAt n + rdiv ox 64
    let uq := d.u0 + n * d.pitch
    let u := uq + rdiv (uq * sc) 1000000 + rdiv (sk * (x0 + (d.dlen / 2 : Nat) - 163840)) (2 ^ 18)
    let q0 := u.fdiv 64
    { u := u, q0 := q0, first := x0
      clamped := decide (x0 < 0 ∨ 327679 - (d.dlen : Int) + 1 < x0 ∨ q0 < d.hw + 2 ∨ (ext : Int) - d.hw - 3 < q0) }
  else
    let u := d.u0 + n * d.pitch + ox
    let q0 := u.fdiv 64
    let sh := rdiv (sk * (q0 - 163840)) (2 ^ 18)
    let vq := 64 * d.vAt n
    let f := rdiv (vq + rdiv (vq * sc) 1000000 + sh) 64
    { u := u, q0 := q0, first := f, clamped := decide (32 < (f - d.vAt n).natAbs) }

/-- Expected position in a band. -/
def Band.dash (b : Band) (bin : Bool) (d : NzDesc) (n : Nat) : DashAt :=
  (d.scaled bin).dash (if bin then rdiv b.ox 2 else b.ox) b.sk b.sc b.ext n

/-- Nozzles of a chunk (R185). -/
def NzDesc.chunk (d : NzDesc) (i : Nat) : List Nat := (List.range (min 64 (d.count - 64 * i))).map (64 * i + ·)

/-- The last output line, counted from the band's start, that a chunk uses (R185). -/
def Band.lastUsed (b : Band) (bin : Bool) (d : NzDesc) (i : Nat) : Int :=
  (d.chunk i).foldl (fun m n =>
    let p := b.dash bin d n
    if p.clamped then m else max m (if d.row then p.q0 + d.hw + 2 else p.first + d.dlen - 1)) 0

/-- v16 of an output pixel of an output line, `none` when the line or the pixel is missing (R168). -/
def State.pix (s : State) (bin : Bool) (l : Int) (k : Nat) (x : Int) : Option Nat :=
  if l < 0 ∨ x < 0 then none
  else match s.nzl.hist.find? (fun i => outLine bin i.n == l.toNat) with
    | some i => i.at k x.toNat
    | none => none

/-- One observation (R181): `none` invalid, else d and the offset, if any. -/
def measure (v : Int → Nat → Option Nat) (hw dlen wref bgMin dMiss : Nat) (q0 u : Int) : Option (Nat × Option Int) :=
  let win := (List.range (2 * hw + 1)).map (fun (i : Nat) => q0 - hw + i)
  let bg := [q0 - hw - 2, q0 - hw - 1, q0 + hw + 1, q0 + hw + 2]
  let along (q : Int) : List (Option Nat) := (List.range dlen).map (v q)
  let bad (o : Option Nat) : Bool := o.isNone || o == some 0xFFFF
  let vals (q : Int) : List Nat := (along q).map (fun o => o.getD 0)
  if (win ++ bg).any (fun q => (along q).any bad) then none
  else
    let b := (rdiv ((bg.flatMap vals).foldl (· + ·) 0 : Nat) (4 * dlen : Nat)).toNat
    if b < max bgMin 1 then none
    else
      let aq := win.map (fun q => (vals q).foldl (fun a x => a + (b - x)) 0)
      let sa := aq.foldl (· + ·) 0
      let d := (min (rdiv (sa * 2 ^ 20 : Nat) (b * dlen * wref : Nat)) 65535).toNat
      if d < dMiss ∨ sa = 0 then some (d, none)
      else
        let m := (List.range (2 * hw + 1)).foldl (fun a i => a + aq.getD i 0 * i) 0
        let c := 64 * (q0 - hw) + 32 + rdiv (64 * m : Nat) sa
        some (d, some (clampI (-32768) 32767 (c - u)))

/-- A nozzle context (R169). -/
structure Ctx where
  davg : Int
  ddev : Int
  oavg : Int
  odev : Int
  nobs : Nat
  band : Nat
  state : Nat
  run : Nat
  cand : Nat
  uns : Nat
  dlast : Nat
  chg : Nat
  deriving DecidableEq, Repr

/-- Read a context; codes 6 and 7 are handled as UNSEEN with RUN 0 (R169, R170). -/
def State.ctx (s : State) (i : Nat) : Ctx :=
  let a := ctxAddr i
  let b := s.ld (a + 12) 1
  let c := s.ld (a + 13) 1
  let odd := decide (6 ≤ b % 8 ∨ 6 ≤ c % 8)
  { davg := (s.ld a 2 : Nat), ddev := (s.ld (a + 2) 2 : Nat), oavg := s.ldI (a + 4) 2, odev := (s.ld (a + 6) 2 : Nat)
    nobs := s.ld (a + 8) 2, band := s.ld (a + 10) 2, state := if odd then 0 else b % 8
    run := if odd then 0 else bitsAt b 3 4, cand := if odd then 0 else c % 8, uns := bitsAt c 3 5
    dlast := s.ld (a + 14) 1, chg := s.ld (a + 15) 1 % 16 }

/-- Write a context (R169). -/
def State.setCtx (s : State) (i : Nat) (c : Ctx) : State :=
  s.store (ctxAddr i) (leBytes 2 (ofInt 16 c.davg) ++ leBytes 2 (ofInt 16 c.ddev) ++ leBytes 2 (ofInt 16 c.oavg) ++
    leBytes 2 (ofInt 16 c.odev) ++ leBytes 2 c.nobs ++ leBytes 2 c.band ++ leBytes 1 (c.state + 8 * c.run) ++
    leBytes 1 (c.cand + 8 * c.uns) ++ leBytes 1 c.dlast ++ leBytes 1 c.chg)

/-- A step of an average with exponent `k` (R182). -/
def avgStep (old new : Int) (k : Nat) : Int := old + (new - old + (2 ^ (k - 1) : Nat)).fdiv (2 ^ k : Nat)

/-- A valid observation updates the averages (R182). -/
def Ctx.observe (c : Ctx) (ka kv num d : Nat) (o : Option Int) : Ctx :=
  let c :=
    if c.nobs = 0 then { c with davg := d, ddev := 0, oavg := o.getD 0, odev := 0 }
    else
      let c := { c with ddev := avgStep c.ddev (((d : Int) - c.davg).natAbs : Nat) kv, davg := avgStep c.davg d ka }
      match o with
      | some o => { c with odev := avgStep c.odev ((o - c.oavg).natAbs : Nat) kv, oavg := avgStep c.oavg o ka }
      | none => c
  { c with nobs := min (c.nobs + 1) 65535, band := num % 65536, dlast := d / 256, uns := 0 }

/-- Thresholds of a set (R183, R194). -/
structure TSet where
  dMiss : Nat
  dWeak : Nat
  hysD : Nat
  oDefl : Nat
  hysO : Nat
  ddevN : Nat
  odevN : Nat
  conf : Nat
  confMiss : Nat
  unseenN : Nat
  bgMin : Nat
  deriving DecidableEq, Repr

def State.tset (s : State) (t : Nat) : TSet :=
  { dMiss := s.fget (Reg.nzlTset0_d_miss t), dWeak := s.fget (Reg.nzlTset0_d_weak t), hysD := s.fget (Reg.nzlTset1_hys_d t)
    oDefl := s.fget (Reg.nzlTset2_o_defl t), hysO := s.fget (Reg.nzlTset2_hys_o t), ddevN := s.fget (Reg.nzlTset1_ddev_n t)
    odevN := s.fget (Reg.nzlTset2_odev_n t), conf := max 1 (s.fget (Reg.nzlTset3_conf t))
    confMiss := max 1 (s.fget (Reg.nzlTset3_conf_miss t)), unseenN := max 1 (s.fget (Reg.nzlTset3_unseen_n t))
    bgMin := s.fget (Reg.nzlTset3_bg_min t) }

/-- The class of a context after an observation of density `d` (R183). States as in R170. -/
def Ctx.cls (c : Ctx) (t : TSet) (d : Nat) : Nat :=
  let w : Int := if c.state = 2 then t.dWeak + t.hysD else t.dWeak
  let m := if c.state = 3 then t.dMiss + t.hysD else t.dMiss
  let dl : Int := if c.state = 4 then (t.oDefl : Int) - t.hysO else t.oDefl
  let nd : Int := if c.state = 5 then (t.ddevN * 3 / 4 : Nat) else t.ddevN
  let no : Int := if c.state = 5 then (t.odevN * 3 / 4 : Nat) else t.odevN
  if d < m then 3
  else if c.davg < w then 2
  else if dl < (c.oavg.natAbs : Int) then 4
  else if nd < c.ddev ∨ no < c.odev then 5
  else 1

/-- Confirm a change of state (R183): the context after it, and whether the state changed. -/
def Ctx.confirm (c : Ctx) (t : TSet) (cls : Nat) : Ctx × Bool :=
  let c :=
    if cls = c.state then { c with cand := c.state, run := 0 }
    else if cls = c.cand then { c with run := min (c.run + 1) 15 }
    else { c with cand := cls, run := 1 }
  let need := if cls = 3 then t.confMiss else t.conf
  if cls ≠ c.state ∧ need ≤ c.run then ({ c with state := cls, run := 0, chg := min (c.chg + 1) 15 }, true)
  else (c, false)

/-- NOZZLE_STATE (R193). -/
def State.nozzleState (s : State) (desc i line old : Nat) (c : Ctx) : State :=
  s.raiseAt 0xA001 (if c.state ≤ 1 then .info else .warn) desc line
    (pf 22 3 i + pf 25 1 (16 * old + c.state) + pfI 26 2 c.davg + pfI 28 2 c.oavg + pf 30 2 c.band)

/-- Apply one nozzle's observation (R181 to R183); `none` when it is invalid. -/
def State.nozzleObs (s : State) (desc : Nat) (d : NzDesc) (num n line : Nat) (bin : Bool) (ob : Nat × Option Int) : State :=
  let t := s.tset d.tset
  let i := d.base + n
  let c0 := s.ctx i
  let o := if bin then ob.2.map (2 * ·) else ob.2
  let c1 := c0.observe (s.fget Reg.nzlCtrl_ka) (s.fget Reg.nzlCtrl_kv) num ob.1 o
  let r := c1.confirm t (c1.cls t ob.1)
  let s := s.setCtx i r.1
  if r.2 then s.nozzleState desc i line c1.state r.1 else s

def State.setBands (s : State) (bs : List Band) : State := { s with nzl := { s.nzl with bands := bs } }

def State.band (s : State) (stream num : Nat) : Option Band :=
  s.nzl.bands.find? (fun b => b.stream == stream && b.num == num)

def State.putBand (s : State) (b : Band) : State :=
  s.setBands (s.nzl.bands.map (fun x => if x.stream = b.stream ∧ x.num = b.num then b else x))

/-- GEOM_CLAMP, once per band (R178, R179). -/
def State.geomClamp (s : State) (b : Band) (desc : Nat) : State :=
  if b.clamped then s
  else (s.putBand { b with clamped := true }).raiseAt 0xA007 .warn desc b.lb (pf 24 4 b.num)

/-- The observation of nozzle `n` in a band, by the lines the analysis island has read (R181). -/
def State.observe (s : State) (b : Band) (bin : Bool) (d : NzDesc) (p : DashAt) : Option (Nat × Option Int) :=
  let t := s.tset d.tset
  let e := d.scaled bin
  let lb : Int := (outLine bin b.lb : Nat)
  let v (q : Int) (a : Nat) : Option Nat :=
    if d.row then s.pix bin (lb + q) d.chan (p.first + a) else s.pix bin (lb + p.first + a) d.chan q
  measure v e.hw e.dlen e.wref t.bgMin t.dMiss p.q0 p.u

/-- The captured number of the last line of a dash (R193). -/
def Band.dashLine (b : Band) (bin row : Bool) (p : DashAt) (dlen : Nat) : Nat :=
  let l := (outLine bin b.lb : Int) + (if row then p.q0 else p.first + dlen - 1)
  (if bin then 2 * l else l).toNat

/-- Nozzle `n` of a chunk that is done (R185). -/
def State.chunkNozzle (s : State) (stream num desc n : Nat) : State :=
  match s.band stream num with
  | none => s
  | some b =>
    let bin := s.binned
    let d := s.nzDesc nzForce desc
    let p := b.dash bin d n
    let miss (s : State) : State := match s.band stream num with
      | some b => s.putBand { b with missed := b.missed ++ [(desc, n)] }
      | none => s
    if p.clamped then miss (s.geomClamp b desc)
    else match s.observe b bin d p with
      | none => miss s
      | some ob => s.nozzleObs desc d num n (b.dashLine bin d.row p d.dlen) bin ob

/-- A context unseen in a closed band (R184). -/
def State.unseen (s : State) (b : Band) (desc n : Nat) : State :=
  let d := s.nzDesc nzForce desc
  let i := d.base + n
  let c := s.ctx i
  let u := min (c.uns + 1) 31
  if (s.tset d.tset).unseenN ≤ u ∧ c.state ≠ 0 then
    let c' := { c with uns := u, state := 0, cand := 0, run := 0 }
    (s.setCtx i c').nozzleState desc i (b.lb + b.ext - 1) c.state c'
  else s.setCtx i { c with uns := u }

/-- Close a band whose chunks have all been applied or skipped (R176, R184). -/
def State.closeIfDone (s : State) (stream num : Nat) : State :=
  match s.band stream num with
  | none => s
  | some b =>
    if b.left ≠ [] then s
    else
      let s := b.missed.foldl (fun s m => s.unseen b m.1 m.2) s
      s.setBands (s.nzl.bands.filter (fun x => !(x.stream == stream && x.num == num)))

/-- A chunk is over, applied or skipped. -/
def State.chunkOver (s : State) (stream num desc idx : Nat) : State :=
  match s.band stream num with
  | none => s
  | some b => (s.putBand { b with left := b.left.filter (· != (desc, idx)) }).closeIfDone stream num

/-- Skip a chunk (R186). -/
def State.chunkSkip (s : State) (stream num desc idx : Nat) : State :=
  let s := s.bump Reg.nzlCntSkip_val 1
  match s.band stream num with
  | none => s
  | some b =>
    let s :=
      if b.skipped.contains desc then s
      else (s.putBand { b with skipped := desc :: b.skipped }).raiseAt 0xA006 .warn desc b.lb
        (pf 24 4 b.num + pf 28 2 idx)
    s.chunkOver stream num desc idx

/-- Observations of a chunk are applied in nozzle order (R185). -/
def State.chunkApply (s : State) (c : Chunk) : State :=
  let d := s.nzDesc nzForce c.desc
  (s.each (d.chunk c.idx) (fun n s => s.chunkNozzle c.stream c.num c.desc n)).chunkOver c.stream c.num c.desc c.idx

/-- Chunks of every band that the lines read so far make ready (R185, R186). -/
def State.chunksReady (s : State) : State :=
  let bin := s.binned
  let cand := (s.nzl.bands.flatMap (fun b => (b.todo.filter (fun c =>
    (outLine bin b.lb : Int) + b.lastUsed bin (s.nzDesc nzForce c.1) c.2 < outLine bin s.nzl.readTo)).map (fun c =>
      (b.stream, b.num, c))))
  let order := cand.mergeSort (fun x y =>
    decide (x.2.2.1 < y.2.2.1 ∨ (x.2.2.1 = y.2.2.1 ∧ x.2.2.2 ≤ y.2.2.2)))
  order.foldl (fun s x =>
    match s.band x.1 x.2.1 with
    | none => s
    | some b =>
      let s := s.putBand { b with todo := b.todo.filter (· != x.2.2) }
      if 4096 ≤ s.nzl.queue.length then s.chunkSkip x.1 x.2.1 x.2.2.1 x.2.2.2
      else
        { s with
          nzl := { s.nzl with
            queue := s.nzl.queue ++ [{ stream := x.1, num := x.2.1, desc := x.2.2.1, idx := x.2.2.2, age := s.sys.now / 2,
                                       fails := 0 }] } }) s

/-- Band number `a` comes before `b` in the wrapping count of a stream (R175, R185). -/
def bandBefore (a b : Nat) : Bool := a != b && decide ((b + 2 ^ 32 - a) % 2 ^ 32 < 2 ^ 31)

/-- The first chunk of the queue whose descriptor and index have no chunk of an earlier band queued or in progress
(R185). -/
def State.chunkNext (s : State) : Option Chunk :=
  let held := s.nzl.hold.filterMap (fun e => e.2)
  s.nzl.queue.find? (fun c => !(held ++ s.nzl.queue).any (fun x =>
    x.desc == c.desc && x.idx == c.idx && bandBefore x.num c.num))

/-- A band of the stream, started in this job, is open at line `n` (R176). -/
def State.bandOpen (s : State) (stream n : Nat) : Bool :=
  match tget (fun _ => []) s.nzl.starts stream with
  | b :: _ => b.now && decide (b.lb ≤ n ∧ n < b.lb + b.ext)
  | [] => false

/-- The band starts of a former job stay only as the values of the last band (R191): its line numbers mean nothing any more. -/
def State.bandsAge (s : State) : State :=
  { s with
    nzl := { s.nzl with
      starts := s.nzl.starts.map (fun e => (e.1, (e.2.take 1).map (fun b => { b with now := false }))) } }

/-- A band start at line `n` (R175 to R177). -/
def State.bandStart (s : State) (stream n : Nat) : State :=
  let num := s.fget (Reg.nzlBandNum_val stream)
  if s.bandOpen stream n then s.raiseAt 0xA004 .warn stream n (pf 24 4 num)
  else
    let g := s.bandGeom
    let s := s.fput (Reg.nzlBandNum_val stream) (num + 1)
    let s := ((s.fput Reg.nzlGeomUsed0_val (ofInt 20 g.1)).fput Reg.nzlGeomUsed1_val (ofInt 24 g.2.1)).fput
      Reg.nzlGeomUsed2_val (ofInt 16 g.2.2)
    let ext := s.nzExt stream
    let chunks := (s.nzOf stream).flatMap (fun j =>
      (List.range (ceilDiv (s.nzDesc nzForce j).count 64)).map (fun i => (j, i)))
    let b : Band :=
      { stream := stream, num := (num + 1) % 2 ^ 32, lb := n, ext := ext, ox := g.1, sk := g.2.1, sc := g.2.2,
        todo := chunks, left := chunks, missed := [], clamped := false, skipped := [] }
    let starts := ({ now := true, lb := n, ext := ext, ox := g.1, sk := g.2.1, sc := g.2.2 } : BandStart) ::
      (tget (fun _ => []) s.nzl.starts stream).take 3
    let s : State := { s with
      nzl := { s.nzl with bands := s.nzl.bands ++ [b], starts := tput (fun _ => []) s.nzl.starts stream starts } }
    s.closeIfDone stream b.num

/-- The band starts of a line's LB (R175). -/
def State.bandLb (s : State) (n : Nat) : State :=
  if !s.flag Reg.nzlCtrl_en then s
  else
    s.each (List.range 4) (fun st s =>
      let src := s.fget (Reg.nzlBandCtrl_src st)
      let lofs := s.fget (Reg.nzlBandCtrl_lofs st)
      let host := tget (fun _ => none) s.nzl.host st == some n && src == 1
      let evi := tget (fun _ => false) s.nzl.evi st
      let pb := tget (fun _ => false) s.nzl.pb st
      let due := tget (fun _ => []) s.nzl.due st ++ (if evi || pb then [n + lofs] else [])
      let s : State := { s with
        nzl := { s.nzl with
          host := if tget (fun _ => none) s.nzl.host st = some n then tput (fun _ => none) s.nzl.host st none else s.nzl.host
          evi := tput (fun _ => false) s.nzl.evi st false
          pb := tput (fun _ => false) s.nzl.pb st false
          due := tput (fun _ => []) s.nzl.due st (due.filter (· != n)) } }
      let s := if host then s.bandStart st n else s
      (due.filter (· == n)).foldl (fun s _ => s.bandStart st n) s)

/-- Number of the next line that has an LB: the one held, else the next one to be triggered (R239, R241). -/
def State.nextLb (s : State) : Nat :=
  match s.seq.held with
  | some (num, _, _) => if isOverlap num then s.seq.next else num
  | none => s.seq.next

/-- A rising edge on EVI_g for the band streams (R175, R176): a second one before the LB of the first is ignored; its band
would have started LOFS lines after the next LB (R193). -/
def State.bandEvi (s : State) (g : Nat) : State :=
  if !(s.running && s.flag Reg.nzlCtrl_en) then s
  else
    s.each ((List.range 4).filter (fun st =>
        s.fget (Reg.nzlBandCtrl_src st) == 2 && s.fget (Reg.nzlBandCtrl_evi st) == g)) (fun st s =>
      if tget (fun _ => false) s.nzl.evi st then
        s.raiseAt 0xA004 .warn st (s.nextLb + s.fget (Reg.nzlBandCtrl_lofs st)) (pf 24 4 (s.fget (Reg.nzlBandNum_val st)))
      else { s with nzl := { s.nzl with evi := tput (fun _ => false) s.nzl.evi st true } })

/-- A PB for the band streams (R175). -/
def State.bandPb (s : State) : State :=
  s.each ((List.range 4).filter (fun st => s.fget (Reg.nzlBandCtrl_src st) == 3)) (fun st s =>
    { s with nzl := { s.nzl with pb := tput (fun _ => false) s.nzl.pb st true } })

/-- The host has written a stream's band start line (R175): it replaces a start still pending, also when it is late and starts
nothing. -/
def State.bandHost (s : State) (st : Nat) : State :=
  let n := s.wget (Reg.nzlBandLine0 st) % 2 ^ 48
  let late := s.running && decide (n ≤ s.lastLb) && s.seq.next != 0
  let s : State := { s with nzl := { s.nzl with host := tput (fun _ => none) s.nzl.host st (if late then none else some n) } }
  if late && s.fget (Reg.nzlBandCtrl_src st) == 1 then
    s.raiseAt 0xA005 .warn st n (pf 24 4 (s.fget (Reg.nzlBandNum_val st)))
  else s

/-- JOB_STOP, SAFE and the end of a job close every open band (R176, R184). -/
def State.bandsDrop (s : State) : State :=
  { s with
    nzl := { s.nzl with
      bands := [], queue := [], evi := [], pb := [], due := [] } }

/-- Contrast of a value against its neighbours in ‰ (R189, R190); `none` when fewer than 8 neighbours are evaluated. -/
def contrast (p : Int) (nb : List Int) : Option Int :=
  if nb.length < 8 then none
  else
    let m := rdiv (sumI nb) nb.length
    some (if 0 < m then rdiv (1000 * (p - m)) m else 0)

/-- The neighbours of position `i` among evaluated ones: within 8, without those within 2. -/
def neighbours (l : List (Nat × Int)) (i : Nat) : List Int :=
  (l.filter (fun e => let d := ((e.1 : Int) - i).natAbs; decide (3 ≤ d ∧ d ≤ 8))).map (fun e => e.2)

/-- The streak's context (R191): nearest expected position within 64 of `pos`, lowest index on a tie; also how many lie
within 64, and the descriptor. -/
def State.streakCtx (s : State) (row : Bool) (x : Nat) : Option (Nat × Nat × Int) × Nat :=
  let bin := s.binned
  let cand := (List.range 1024).flatMap (fun j =>
    let d := s.nzDesc nzForce j
    if !(d.active && d.streak && d.row == row) then []
    else
      let starts := tget (fun _ => []) s.nzl.starts d.stream
      let st := if row then starts.find? (fun b => b.now && decide (outLine bin b.lb ≤ x)) else starts.head?
      match st with
      | none => []
      | some b =>
        let lb := outLine bin b.lb
        let pos : Int := if row then 64 * ((x : Int) - lb) + 32 else 64 * x + 32
        (List.range d.count).filterMap (fun n =>
          let p := (d.scaled bin).dash (if bin then rdiv b.ox 2 else b.ox) b.sk b.sc b.ext n
          let dist := (p.u - pos).natAbs
          if dist ≤ 64 then some (dist, d.base + n, j, (x : Int) - lb) else none))
  let best := cand.foldl (fun (m : Option (Nat × Nat × Nat × Int)) c =>
    match m with
    | none => some c
    | some b => if c.1 < b.1 ∨ (c.1 = b.1 ∧ c.2.1 < b.2.1) then some c else m) none
  (best.map (fun b => (b.2.1, b.2.2.1, b.2.2.2)), cand.length)

/-- STREAK_SUSPECT and STREAK_CLEAR (R189 to R191, R193). The x a row without a context reports is a free value. -/
def State.streakEvent (s : State) (suspect row : Bool) (x line : Nat) (k : Int) : State :=
  let m := s.streakCtx row x
  let ctx := match m.1 with
    | some c => c.1
    | none => 0xFFFFF
  let src := match m.1 with
    | some c => c.2.1
    | none => 0xFFFF
  let at' : Int := if row then (match m.1 with
      | some c => c.2.2
      | none => (Config.openNat s.fresh : Nat)) else x
  let s : State := if row && m.1.isNone then { s with fresh := s.fresh + 1 } else s
  s.raiseAt (if suspect then 0xA002 else 0xA003) (if suspect then .warn else .info) src line
    (pf 22 3 ctx + pf 25 1 (b2n row + 16 * min m.2 15) + pfI 26 4 at' + pfI 30 2 (satInt 16 k))

/-- The export point of an export (R192): the contexts as they stand now. -/
def State.exportTake (s : State) (x : Export) (line : Nat) : Export :=
  { x with
    taken := true, line := line, time := s.sys.now, band := s.fget (Reg.nzlBandNum_val 0)
    data := s.bytes (ctxAddr x.first) (16 * x.count) }

/-- The export point is the next LB during a job (R192); a job that ends without another one
takes it there. -/
def State.exportLb (s : State) (n : Nat) : State :=
  let at' (o : Option Export) : Option Export := o.map (fun x => if x.taken then x else s.exportTake x n)
  { s with nzl := { s.nzl with exp := at' s.nzl.exp, expHeld := at' s.nzl.expHeld } }

end Sys2Proof.Machine
end

