-- ==== Sys2Proof/Machine/PxeOps.lean ====
section
/-!
DEFINITION. Shared operations of the correction pool (chapter 5): staging, sable clamp, blocks and queues, hand-over,
drops, the pool's need.
-/

namespace Sys2Proof.Machine

/-- Pixels of a tap, of a segment, of a full line, in output pixels (R41, R127). -/
def tapPx (bin : Bool) : Nat := if bin then 640 else 1280

/-- PXE_FMT.BIN of a line's settings. -/
def LineCfg.bin (c : LineCfg) : Bool := bitAt c.fmt 1

/-- The output pixels a block writes: first and count (R133). A tap block leaves out the 8 window pixels of a joint at its
segment's edge. -/
def blkRange (bin : Bool) (k : BlkKind) : Nat × Nat :=
  let w := tapPx bin
  match k with
  | .tap seg t =>
    let x := 4 * w * seg + w * t
    let cutL := if t = 0 ∧ seg ≠ 0 then 8 else 0
    let cutR := if t = 3 ∧ seg ≠ 63 then 8 else 0
    (x + cutL, w - cutL - cutR)
  | .joint j => (4 * w * (j + 1) - 8, 16)

/-- A block is skipped when everything it writes lies outside the deckle extended by 9 pixels (R133). -/
def skipped (c : LineCfg) (k : BlkKind) : Bool :=
  let r := blkRange c.bin k
  decide (r.1 + r.2 + 9 ≤ c.start ∨ c.start + c.width + 9 ≤ r.1)

/-- Every block kind of a phase (R133). -/
def allKinds : List BlkKind :=
  (List.range 64).flatMap (fun g => (List.range 4).map (fun t => BlkKind.tap g t)) ++
    (List.range 63).map (fun j => BlkKind.joint j)

/-- Blocks of a line that are not skipped. -/
def lineBlocks (c : LineCfg) : List (Nat × BlkKind) :=
  (List.range c.c).flatMap (fun k => (allKinds.filter (fun b => !skipped c b)).map (fun b => (k, b)))

/-- Cost of a block in engine clocks (R133). -/
def blkCost (bin : Bool) : BlkKind → Nat
  | .tap _ _ => if bin then 704 else 1344
  | .joint _ => 64

/-- Group queue of a block (R134). -/
def BlkKind.queue : BlkKind → Nat
  | .tap seg _ => seg / 4
  | .joint j => j / 4

/-- Order within a queue: by age, then segment and tap, joint blocks after (R134). -/
def Blk.rank (b : Blk) : Nat :=
  b.age * 512 + match b.kind with
    | .tap seg t => 4 * seg + t
    | .joint j => 256 + j

/-- Insert a ready block into its place of a queue. -/
def enqueue (b : Blk) : List Blk → List Blk
  | [] => [b]
  | x :: r => if b.rank < x.rank then b :: x :: r else x :: enqueue b r

def State.queue (s : State) (q : Nat) : List Blk := tget (fun _ => []) s.pxe.queue q

def State.setQueue (s : State) (q : Nat) (l : List Blk) : State :=
  { s with pxe := { s.pxe with queue := tput (fun _ => []) s.pxe.queue q l } }

/-- The control-island cycle (R134). -/
def State.cycle (s : State) : Nat := s.sys.now / 2

/-- Put a block into its group queue (R134). -/
def State.ready (s : State) (b : Blk) : State := s.setQueue b.kind.queue (enqueue b (s.queue b.kind.queue))

/-- A line in the pool. -/
def State.pline (s : State) (n : Nat) : Option PLine := s.pxe.lines.find? (fun p => p.n == n)

def State.setPline (s : State) (p : PLine) : State :=
  { s with pxe := { s.pxe with lines := s.pxe.lines.map (fun q => if q.n = p.n then p else q) } }

/-- The even line a line of a binned pair waits for still has this block to do (R134). -/
def State.evenLeft (s : State) (p : PLine) (k : Nat) (b : BlkKind) : Bool :=
  p.cfg.bin && p.n % 2 == 1 &&
    match s.pline (p.n - 1) with
    | some e => e.left.contains (k, b)
    | none => false

/-- A block of a line is ready, or waits for the even line's (R134). Skipped blocks are done already. -/
def State.offer (s : State) (n k : Nat) (b : BlkKind) : State :=
  match s.pline n with
  | none => s
  | some p =>
    if !p.left.contains (k, b) then s
    else
      let x : Blk := { kind := b, line := n, phase := k, age := s.cycle, fails := 0 }
      if s.evenLeft p k b then s.setPline { p with wait := p.wait ++ [x] } else s.ready x

/-- A joint block is offered when the tap blocks on both its sides are done (R134). -/
def State.offerJoint (s : State) (n k j : Nat) : State :=
  match s.pline n with
  | none => s
  | some p =>
    if p.left.contains (k, .tap j 3) || p.left.contains (k, .tap (j + 1) 0) then s
    else if (s.queue (j / 4)).any (fun b => b.line == n && b.phase == k && b.kind == .joint j) then s
    else if p.wait.any (fun b => b.phase == k && b.kind == .joint j) then s
    else s.offer n k (.joint j)

/-- Hand complete lines to the FIFO in line-number order (R137); PXE_LAT keeps the largest time (R138). -/
def State.handLines (s : State) : List PLine → State
  | [] => s
  | p :: rest =>
    if (s.pline p.n).isNone then s.handLines rest
    else if p.left ≠ [] then s
    else if isOverlap p.n then
      let go := !p.cfg.bin || p.n % 2 == 1
      if p.cfg.bin && p.n % 2 == 0 && !rest.any (fun q => q.n == p.n + 1 && q.left == []) then s
      else
        let s := if go then (s.putStrips true { n := p.n, cfg := p.cfg, runs := p.runs, com := s.sys.now }).overlapEnded else s
        State.handLines { s with
          pxe := { s.pxe with lines := s.pxe.lines.filter (fun x => x.n != p.n) } } rest
    else if p.cfg.bin then
      match rest with
      | q :: _ =>
        if q.n = p.n + 1 ∧ q.left = [] then
          let flags := 4 * b2n (p.suspect || q.suspect) + 8 * b2n (p.cfg.lampId != q.cfg.lampId)
          let lat := match q.lastStaged with
            | some t => min 65535 ((s.sys.now - t) / 10)
            | none => 0
          let s := s.fput Reg.pxeLat_time (max (s.fget Reg.pxeLat_time) lat)
          State.handLines { s with
            lff := { s.lff with
              resv := s.lff.resv.map (fun r =>
                if r.kind = .line p.n then
                  { r with handed := true, flags := r.flags ||| flags, drift := q.drift, runs := q.runs }
                else r) }
            pxe := { s.pxe with lines := s.pxe.lines.filter (fun x => x.n != p.n && x.n != q.n) } } rest
        else s
      | [] => s
    else
      let lat := match p.lastStaged with
        | some t => min 65535 ((s.sys.now - t) / 10)
        | none => 0
      let s := s.fput Reg.pxeLat_time (max (s.fget Reg.pxeLat_time) lat)
      State.handLines { s with
        lff := { s.lff with
          resv := s.lff.resv.map (fun r =>
            if r.kind = .line p.n then
              { r with handed := true, flags := r.flags ||| 4 * b2n p.suspect, drift := p.drift, runs := p.runs }
            else r) }
        pxe := { s.pxe with lines := s.pxe.lines.filter (fun x => x.n != p.n) } } rest

/-- Hand over what is complete. -/
def State.handOverLines (s : State) : State := s.handLines s.pxe.lines

/-- Discard what the pool holds of a line: blocks, staging units (R118). -/
def State.discardLine (s : State) (n : Nat) : State :=
  { s with
    pxe := { s.pxe with
      queue := (s.pxe.queue.map (fun e => (e.1, e.2.filter (fun b => b.line != n)))).filter (fun e => e.2 != [])
      unit := s.pxe.unit.filter (fun e => match e.2 with
        | some u => u.line != n
        | none => true)
      lines := s.pxe.lines.filter (fun p => p.n != n) } }

/-- POOL_DROP (R143). -/
def State.poolDropped (s : State) (n cause : Nat) : State :=
  (s.bump Reg.pxeCntDrop_val 1).raiseAt 0x7006 .warn 0 (n % overlapBase) (pf 22 1 cause)

/-- Watermark cause bit of a pool drop's cause (R302). -/
def dropBit (cause : Nat) : Nat := if cause = 1 then 4 else if cause = 2 then 8 else 16

/-- The pool drops a captured line (R118, R127, R141): blocks discarded, the reservation rewound, POOL_DROP; in a binned
job its partner goes with it. -/
def State.dropLine (s : State) (n cause : Nat) : State :=
  match s.pline n with
  | none => s
  | some p =>
    let s := s.discardLine n
    let s := s.poolDropped n cause
    let s :=
      if p.cfg.bin then
        let m := n / 2 * 2
        let o := if n % 2 = 0 then n + 1 else n - 1
        let s := match s.pline o with
          | some _ => (s.discardLine o).poolDropped o 3
          | none =>
            if n % 2 = 0 then ({ s with pxe := { s.pxe with lostPair := some o } } : State) else s
        if isOverlap n then s.overlapEnded else s.rewindLine m (dropBit cause ||| 16)
      else if isOverlap n then s.overlapEnded
      else s.rewindLine n (dropBit cause)
    s.handOverLines

/-- Free staging units (R117). -/
def State.freeUnit (s : State) : Option Nat := (List.range 204).find? (fun u => (tget (fun _ => none) s.pxe.unit u).isNone)

/-- Address of a staging unit and of its descriptor (R117). -/
def unitAddr (u : Nat) : Nat := 0x15200000 + 10240 * u
def unitDesc (u : Nat) : Nat := 0x153FE000 + 32 * u

/-- Update the sable clamp of a tap and phase from a readout (R120); `m` is the sum of its 8 sable samples when it is
usable, and A that in force at the line's LB (R119). The state after it and clamp16. -/
def State.clampUpdate (s : State) (seg t k : Nat) (m : Option Nat) : Int × State :=
  let key := 16 * seg + 4 * t + k
  let a := s.pxe.clampA
  let acc := tget (fun _ => none) s.pxe.acc key
  let acc' := match m, acc with
    | none, x => x
    | some m, none => some ((m * 2 ^ a : Nat) : Int)
    | some m, some x => some (x + m - x.fdiv (2 ^ a : Nat))
  let c : Int := match acc' with
    | none => 0
    | some x => (x + (2 ^ a : Nat)).fdiv (2 ^ (a + 1) : Nat)
  let s := { s with pxe := { s.pxe with acc := tput (fun _ => none) s.pxe.acc key acc' } }
  (c, s.fputI (Reg.pxeClamp_clamp16 seg t k) c)

/-- Number of a role's first sample at or after the tap's active sample `i`. -/
def roleFrom (q i : Nat) : Nat := (i + 1 - q) / 2

/-- What one tap puts into staging: its samples, per role the descriptor word and the first no-data sample, whether any sample
is suspect, the sum of its sable samples when usable. -/
structure TapStage where
  y : List Nat
  desc : List Nat
  nodata : List (Option Nat)
  suspect : Bool
  sum : Option Nat
  deriving DecidableEq, Repr

/-- The stage of a tap that brings nothing. -/
def TapStage.none : TapStage := { y := [], desc := [], nodata := [], suspect := false, sum := Option.none }

/-- Descriptor word of a role (R117): bit 0 suspect, bit 1 no-data, bits 12:2 the first marked sample of the role, marked in
either way. -/
def roleDesc (suspect nodata : Option Nat) : Nat :=
  let first := match nodata, suspect with
    | some a, some b => min a b
    | some a, Option.none => a
    | Option.none, some b => b
    | Option.none, Option.none => 0
  b2n suspect.isSome + 2 * b2n nodata.isSome + 4 * (first % 2048)

/-- Assemble one tap's samples for staging (R68, R69, R83, R54). A tap that breaks in this readout is no-data from the sample at
which its loop left the window; its sable samples, which come first, are still usable (R120), but not when that is the first
active sample: the break may then have come before them (DESIGN CHOICE, log entry 94). -/
def State.stageTap (s : State) (seg t : Nat) (r : TapRead) (roles : List RoleRead) : TapStage :=
  let dead := s.tapDead seg t
  let cut := tget (fun _ => none) s.vfe.cutAt (4 * seg + t)
  let role (q : Nat) : RoleRead :=
    roles.getD q { slice := none, sable := [], suspectFrom := none, sableSuspect := false, fail := 0 }
  let noData (q : Nat) : Option Nat :=
    if (role q).slice.isNone || !s.segLive seg then some 0
    else match cut with
      | some c => if roleFrom q c < (r.active.length + 1 - q) / 2 then some (roleFrom q c) else none
      | none => if dead then some 0 else none
  let conv (q c : Nat) : Nat := match (role q).slice with
    | some l => s.correctBy (sliceNo seg l) c
    | none => 0
  let y := (List.range r.active.length).map (fun i => conv (i % 2) (r.active.getD i 0))
  let sure := match cut with
    | some c => s.segLive seg && decide (0 < c)
    | none => !dead
  let usable := sure && (List.range 2).all (fun q => (role q).slice.isSome && !(role q).sableSuspect)
  { y := y
    desc := [roleDesc (role 0).suspectFrom (noData 0), roleDesc (role 1).suspectFrom (noData 1)]
    nodata := [noData 0, noData 1]
    suspect := (role 0).suspectFrom.isSome || (role 1).suspectFrom.isSome
    sum := if usable then some (((role 0).sable ++ (role 1).sable).foldl (· + ·) 0) else none }

/-- A segment's readout of a colour phase reaches staging (R118, R120, R134). -/
def State.stageReadout (s : State) (seg n k : Nat) (taps : List TapStage) : State :=
  let cl := (List.range 4).foldl (fun (x : List Int × State) t =>
    let r := x.2.clampUpdate seg t k (taps.getD t TapStage.none).sum
    (x.1 ++ [r.1], r.2)) ([], s)
  let s := cl.2
  match s.pline n with
  | none => s
  | some p =>
    match s.freeUnit with
    | none => s.dropLine n 1
    | some u =>
      let s := s.store (unitAddr u) (taps.flatMap (fun x => x.y.flatMap (leBytes 2)))
      let s := s.store (unitDesc u) (taps.flatMap (fun x => x.desc.flatMap (leBytes 4)))
      let left := (List.range 4).filter (fun t => p.left.contains (k, .tap seg t))
      let s : State := if left = [] then s else
        { s with
          pxe := { s.pxe with
            unit := tput (fun _ => none) s.pxe.unit u
              (some { seg := seg, line := n, phase := k, left := left, clamp := cl.1,
                      nodata := taps.flatMap (fun x => x.nodata) }) } }
      let due := p.due.filter (fun d => d != (k, seg))
      let s := s.setPline { p with
        due := due, suspect := p.suspect || taps.any (fun x => x.suspect)
        lastStaged := if k + 1 = p.cfg.c then some s.sys.now else p.lastStaged }
      s.each (List.range 4) (fun t s => s.offer n k (.tap seg t))

/-- Samples of a staged segment readout: none from its role's first no-data sample on (R117). -/
def State.staged (s : State) (u : Nat) (x : StageUnit) (tapw p : Nat) : Option Nat :=
  let t := p / tapw
  let i := p % tapw
  if (x.nodata.getD (2 * t + i % 2) none).any (fun d => decide (d ≤ i / 2)) then none else some (s.ld (unitAddr u + 2 * p) 2)

/-- v7 of position `p` within a segment (R121 to R124); `unit` is none for a segment without a readout. -/
def State.v7 (s : State) (c : LineCfg) (u : Option (Nat × StageUnit)) (seg k p : Nat) : Option Int :=
  let w := tapPx c.bin
  let m := if c.bin then 2 else 1
  let v (p : Nat) : Option Int :=
    match u with
    | none => none
    | some (n, x) => s.v6 c seg k (5120 * seg + m * p) (x.clamp.getD (p / w) 0) (s.staged n x w p)
  let l := if p = 0 then none else v (p - 1)
  let r := if p + 1 = 4 * w then none else v (p + 1)
  replace (bitAt c.ctrl 4) ((s.entry c.bank k (5120 * seg + m * p)).flags % 4) (v p) l r

/-- Whole words stored into the ring at a byte offset of a reservation (R136, R291). -/
def State.fStoreAt (s : State) (pos off : Nat) (bs : List Byte) : State :=
  let ring := 16 * fifoItems
  let a := (16 * (pos % fifoItems) + off) % ring
  let s := (s.fClean (pos + off / 16) (bs.length / 16)).store (0x10000000 + a) (bs.take (ring - a))
  s.store 0x10000000 (bs.drop (ring - a))

/-- Count the margin-window pixels among consecutive output values (R163). -/
def State.driftPixels (s : State) (p : PLine) (k x : Nat) (vs : List Nat) : Table (Nat × Nat) :=
  let m := if p.cfg.bin then 2 else 1
  (List.range vs.length).foldl (fun t i =>
    let xf := m * (x + i)
    let z := xf / 5120
    let w := tget (fun _ => (0, 0)) p.cfg.win z
    let v := vs.getD i 0
    if w.1 ≤ xf % 5120 ∧ xf % 5120 < w.1 + w.2 ∧ p.cfg.start ≤ x + i ∧ x + i < p.cfg.start + p.cfg.width ∧ v ≠ 0xFFFF ∧
        (s.entry p.cfg.bank k xf).flags % 4 = 0 then
      let o := tget (fun _ => (0, 0)) t (4 * z + k)
      tput (fun _ => (0, 0)) t (4 * z + k) (o.1 + v, o.2 + 1)
    else t) p.drift

/-- Final values of a block's consecutive pixels: those of an odd binned line are averaged with the even line's
(R126). -/
def State.finalPixels (s : State) (p : PLine) (k x : Nat) (vs : List Nat) : List Nat :=
  if p.cfg.bin then
    (List.range vs.length).map (fun i => pairAvg (s.ld (0x15400000 + 2 * (163840 * k + x + i)) 2) (vs.getD i 0))
  else vs

/-- The line's record of its margin window after a block's pixels; the even line of a pair writes none. -/
def State.driftAfter (s : State) (p : PLine) (k x : Nat) (vs : List Nat) : Table (Nat × Nat) :=
  if p.cfg.win = [] ∨ (p.cfg.bin && p.n % 2 == 0) then p.drift else s.driftPixels p k x (s.finalPixels p k x vs)

/-- The line's output values after a block's pixels; the even line of a pair has none of its own (R126). -/
def State.runsAfter (s : State) (p : PLine) (k x : Nat) (vs : List Nat) : List PxRun :=
  if p.cfg.bin && p.n % 2 == 0 then p.runs else p.runs ++ [{ k := k, x := x, vs := s.finalPixels p k x vs }]

/-- Bytes that fill a FIFO word in part: they wait in the pool for the other block that shares the word, which writes the word
whole (R136). -/
def State.putPart (s : State) (p : PLine) (off : Nat) (bs : List Byte) : PLine × State :=
  let w := off / 16
  if bs = [] then (p, s)
  else match tget (fun _ => none) p.part w with
    | none => ({ p with part := tput (fun _ => none) p.part w (some (off % 16, bs)) }, s)
    | some (o, cs) =>
      ({ p with part := tput (fun _ => none) p.part w none },
        s.fStoreAt p.resv (16 * w) (if o < off % 16 then cs ++ bs else bs ++ cs))

/-- Write bytes into a line's reservation, each 128-bit FIFO word whole and once (R136). -/
def State.putWords (s : State) (p : PLine) (off : Nat) (bs : List Byte) : PLine × State :=
  let h := min ((16 - off % 16) % 16) bs.length
  let n := (bs.length - h) / 16 * 16
  let a := s.putPart p off (bs.take h)
  let b := a.2.fStoreAt p.resv (off + h) ((bs.drop h).take n)
  b.putPart a.1 (off + h + n) (bs.drop (h + n))

/-- Write output values of consecutive pixels into the binning hold, or into the line's reservation (R126, R132,
R136). The line after it, with the words left unfinished. -/
def State.putPixels (s : State) (p : PLine) (k x : Nat) (vs : List Nat) : PLine × State :=
  let hold (s : State) := s.store (0x15400000 + 2 * (163840 * k + x)) (vs.flatMap (leBytes 2))
  if p.cfg.bin && p.n % 2 == 0 then (p, hold s)
  else
    if isOverlap p.n then (p, s) else
    let vs := s.finalPixels p k x vs
    let lo := max x p.cfg.start
    let hi := min (x + vs.length) (p.cfg.start + p.cfg.width)
    if hi ≤ lo then (p, s)
    else
      let out := (vs.drop (lo - x)).take (hi - lo)
      let u := lo - p.cfg.start
      let off := 64 + k * p.cfg.plane + (if bitAt p.cfg.fmt 0 then 3 * u / 2 else 2 * u)
      s.putWords p off (pixelBytes (bitAt p.cfg.fmt 0) out)

/-- The unit that holds a readout. -/
def State.unitOf (s : State) (seg n k : Nat) : Option (Nat × StageUnit) :=
  s.pxe.unit.findSome? (fun e => match e.2 with
    | some u => if u.seg = seg ∧ u.line = n ∧ u.phase = k then some (e.1, u) else none
    | none => none)

/-- The pixels of a finished tap block (R121 to R126, R133). -/
def State.doTap (s : State) (p : PLine) (k seg t : Nat) : State :=
  let c := p.cfg
  let w := tapPx c.bin
  let u := s.unitOf seg p.n k
  let v7 := (List.range w).map (fun i => s.v7 c u seg k (w * t + i))
  let r := blkRange c.bin (.tap seg t)
  let skip := r.1 - (4 * w * seg + w * t)
  let vs := ((v7.drop skip).take r.2).map v16Of
  let dr := s.driftAfter p k r.1 vs
  let rs := s.runsAfter p k r.1 vs
  let w' := s.putPixels p k r.1 vs
  let p := w'.1
  let s := w'.2
  let put (e : Table (Option Int)) (j base : Nat) (vs : List (Option Int)) :=
    tputs (fun _ => none) e (18 * (63 * k + j) + base) vs
  let e := if t = 0 ∧ seg ≠ 0 then put p.edges (seg - 1) 9 (v7.take 9) else p.edges
  let e := if t = 3 ∧ seg ≠ 63 then put e seg 0 (v7.drop (w - 9)) else e
  let s := s.setPline { p with edges := e, drift := dr, runs := rs, left := p.left.filter (fun b => b != (k, .tap seg t)) }
  match u with
  | none => s
  | some (n, x) =>
    let left := x.left.filter (· != t)
    { s with
      pxe := { s.pxe with
        unit := tput (fun _ => none) s.pxe.unit n (if left = [] then none else some { x with left := left }) } }

/-- The pixels of a finished joint block (R125, R133). -/
def State.doJoint (s : State) (p : PLine) (k j : Nat) : State :=
  let c := p.cfg
  let v := (List.range 18).map (fun i => tget (fun _ => none) p.edges (18 * (63 * k + j) + i))
  let r := blkRange c.bin (.joint j)
  let vs := (List.range 16).map (fun i => v16Of (jointAt v (c.joints.getD j 0) i))
  let dr := s.driftAfter p k r.1 vs
  let rs := s.runsAfter p k r.1 vs
  let w := s.putPixels p k r.1 vs
  w.2.setPline { w.1 with drift := dr, runs := rs, left := p.left.filter (fun b => b != (k, .joint j)) }

/-- Blocks that a finished block makes ready (R134): joints beside a tap block, and the odd line's own. -/
def State.unlock (s : State) (n k : Nat) (b : BlkKind) : State :=
  let s := match b with
    | .tap seg 0 => if seg = 0 then s else s.offerJoint n k (seg - 1)
    | .tap seg 3 => if seg = 63 then s else s.offerJoint n k seg
    | _ => s
  match s.pline (n + 1) with
  | none => s
  | some q =>
    match q.wait.find? (fun x => x.phase == k && x.kind == b) with
    | none => s
    | some x =>
      (s.setPline { q with wait := q.wait.filter (fun y => y != x) }).ready { x with age := s.cycle }

/-- A block is done (R133, R137). A block of a line dropped meanwhile is discarded. -/
def State.blockDone (s : State) (b : Blk) : State :=
  match s.pline b.line with
  | none => s
  | some p =>
    let s := match b.kind with
      | .tap seg t => s.doTap p b.phase seg t
      | .joint j => s.doJoint p b.phase j
    (s.unlock b.line b.phase b.kind).handOverLines

/-- Engines in the pool (R139). -/
def State.inPool (s : State) : Nat := ((List.range 48).filter (fun e => s.fget (Reg.pxeEngStat_state e) == 0)).length

/-- The pool's need for given settings (R139). -/
def State.needFor (s : State) (c : LineCfg) : Nat :=
  let taps := (allKinds.filter (fun b => match b with
    | .tap _ _ => !skipped c b
    | .joint _ => false)).foldl (fun a b => a + blkCost c.bin b) 0
  ceilDiv (c.c * (taps + 63 * 64)) (10 * s.seq.phases * s.seq.period)

/-- POOL_SHORT and POOL_OK (R139). -/
def State.poolCheck (s : State) : State :=
  let n := s.inPool
  let need := s.fget Reg.pxeStat_need
  let s := s.fput Reg.pxeStat_in_pool n
  if s.running && decide (n < need) && !s.pxe.short then
    ({ s with pxe := { s.pxe with short := true } } : State).raise 0x7004 .warn 0 (pf 22 1 n + pf 23 1 need)
  else if s.pxe.short && decide (need ≤ n) then
    ({ s with pxe := { s.pxe with short := false } } : State).raise 0x7005 .info 0 (pf 22 1 n + pf 23 1 need)
  else s

/-- Segment temperatures at an LB (R123). While the channel is OPEN, and from then until a good value returns, the last good
value is held; dt counts only values that were good in the job. -/
def State.segTemp (s : State) (seg : Nat) (bank : Nat) : State :=
  let m := s.monT (s.fget (Reg.lmpZoneCfg_mon seg))
  let ok := m.2.1 && !m.2.2
  let good := if ok then some m.1 else tget (fun _ => none) s.pxe.tgood seg
  let was := s.flag (Reg.pxeSegTemp_held seg)
  let s : State := { s with pxe := { s.pxe with tgood := tput (fun _ => none) s.pxe.tgood seg good } }
  let t := good.getD (s.fgetI (Reg.pxeSegTemp_t seg))
  let s := (s.fputI (Reg.pxeSegTemp_t seg) t).fputI (Reg.pxeSegTemp_dt seg) (s.dtOf bank seg good)
  let s := s.fputB (Reg.pxeSegTemp_held seg) (m.2.2 || (was && !ok))
  if m.2.2 && !was then s.raise 0x7007 .warn seg (pfI 24 2 t)
  else if was && ok then s.raise 0x7008 .info seg (pfI 24 2 t)
  else s

/-- The drift gate is open (R164). -/
def State.driftGate (s : State) : Bool :=
  let level := tget (fun _ => false) s.seq.evi (s.fget Reg.shdDriftCtrl_evi)
  match s.fget Reg.shdDriftCtrl_gate with
  | 1 => level
  | 2 => !level
  | _ => true

/-- The offsets dd of the joints in force (R125). -/
def State.jointsNow (s : State) : List Int :=
  if s.flag Reg.pxeCtrl_joint_en then
    (List.range 63).map (fun j =>
      let d := s.fgetI (Reg.pxeJoint_d j)
      if bitAt s.format 1 then divAway d 2 else d)
  else []

/-- The settings of a line as in force at its LB (R18, R119). -/
def State.lineCfg (s : State) (time : Nat) (feed : Int) : LineCfg :=
  let zs := s.enabledZones
  let ks := List.range s.colourPhases
  { ctrl := (s.rget Reg.pxeCtrl).toNat, fmt := s.format, bank := s.fget Reg.shdBank_sel, lin := s.fget Reg.pxeLin_set
    start := s.fget Reg.pxeDeckle0_start, width := s.fget Reg.pxeDeckle1_width, c := s.colourPhases
    tf := zs.foldl (fun t z => ks.foldl (fun t k => tput (fun _ => 16384) t (4 * z + k) (s.tintOf z k)) t) []
    dark := zs.foldl (fun t z => ks.foldl (fun t k =>
      tput (fun _ => false) t (4 * z + k) (bitAt (s.fget (Reg.lmpZoneStat_dark z)) k)) t) []
    tseg := s.pxe.tgood, joints := s.jointsNow, gate := s.driftGate
    win := ((List.range 64).filter (fun z => s.fget (Reg.shdZoneWin_width z) != 0)).map (fun z =>
      (z, s.fget (Reg.shdZoneWin_start z), s.fget (Reg.shdZoneWin_width z)))
    paced := s.regime == 1, lampId := s.fget Reg.sysSetId_lamp, calId := s.fget Reg.sysSetId_calender
    time := time, feed := feed, job := s.fget Reg.sysState_job }

/-- The line's LB at the pool input (R134, R136): reservation, blocks of segments without a readout. `true` when the line
is in the pool. -/
def State.poolLb (s : State) (n : Nat) (cfg : LineCfg) : Bool × State :=
  let segs := (List.range 64).filter s.segLive
  let mk (pos : Nat) : PLine :=
    { n := n, cfg := cfg, left := lineBlocks cfg
      due := (List.range cfg.c).flatMap (fun k => segs.map (fun g => (k, g)))
      wait := [], resv := pos, suspect := false, runs := [], edges := [], drift := [], part := [], lastStaged := none }
  let enter (s : State) (pos : Nat) : State :=
    let s : State := { s with pxe := { s.pxe with lines := s.pxe.lines ++ [mk pos] } }
    let s := s.each ((List.range 64).filter (fun g => !s.segLive g)) (fun g s =>
      s.each (List.range cfg.c) (fun k s => s.each (List.range 4) (fun t s => s.offer n k (.tap g t))))
    s.each (List.range cfg.c) (fun k s => s.each (List.range 63) (fun j s => s.offerJoint n k j))
  if cfg.bin && n % 2 == 1 then
    match s.pline (n - 1) with
    | some e => (true, enter s e.resv)
    | none =>
      if s.pxe.lostPair = some n then
        (false, ({ s with pxe := { s.pxe with lostPair := none } } : State).poolDropped n 3)
      else (false, s)
  else if isOverlap n then (true, (enter s 0).handOverLines)
  else
    let r := s.reserve n cfg.items cfg
    match r.1 with
    | some pos => (true, (enter r.2 pos).handOverLines)
    | none => (false, r.2)

/-- A segment's island is lost in mid-line: its outstanding blocks need no readout any more (R12, R134). -/
def State.segGone (s : State) (seg : Nat) : State :=
  let s := { s with vfe := { s.vfe with
    reads := tput (fun _ => []) s.vfe.reads seg [], pulse := tput (fun _ => 0) s.vfe.pulse seg 0 } }
  s.pxe.lines.foldl (fun s p =>
    let due := p.due.filter (fun d => d.2 == seg)
    let s := s.setPline { p with due := p.due.filter (fun d => d.2 != seg) }
    due.foldl (fun s d => s.each (List.range 4) (fun t s => s.offer p.n d.1 (.tap seg t))) s) s.readEnded

end Sys2Proof.Machine
end

