-- ==== Sys2Proof/Machine/PosOps.lean ====
section
/-!
DEFINITION. Shared operations of the position ports (chapter 10): triggers, frames, words and their checks, quadrature
counts, the index and its drift, speeds.
-/

namespace Sys2Proof.Machine

def State.absPort (s : State) (n : Nat) : AbsPort := tget (fun _ => AbsPort.init) s.pos.abs n

def State.setAbs (s : State) (n : Nat) (x : AbsPort) : State :=
  { s with pos := { s.pos with abs := tput (fun _ => AbsPort.init) s.pos.abs n x } }

def State.qeiPort (s : State) (n : Nat) : QeiPort := tget (fun _ => QeiPort.init) s.pos.qei n

def State.setQei (s : State) (n : Nat) (x : QeiPort) : State :=
  { s with pos := { s.pos with qei := tput (fun _ => QeiPort.init) s.pos.qei n x } }

/-- UNC of an absolute port is FUNC or JUNC (R261); POS_STAT mirrors it. -/
def State.absUnc (s : State) (n : Nat) : State :=
  let u := s.flag (Reg.posAbsStat_func n) || s.flag (Reg.posAbsStat_junc n)
  let s := s.fputB (Reg.posAbsStat_unc n) u
  s.fput Reg.posStat_aunc (putBit (s.fget Reg.posStat_aunc) n u)

/-- UNC of an incremental port; POS_STAT mirrors it (R264, R268). -/
def State.setQeiUnc (s : State) (n : Nat) (u : Bool) : State :=
  (s.fputB (Reg.posQeiStat_unc n) u).fput Reg.posStat_qunc (putBit (s.fget Reg.posStat_qunc) n u)

/-- The latest valid word of a port, with its age in ns (R260), for a feature: none may use a reserved port (R375). -/
def State.absWord (s : State) (n : Nat) : Option (Nat × Nat) :=
  if (s.absPort n).has && s.owner 5 n != 12 then
    some ((s.rget (Reg.posAbsWord n 0)).toNat, s.sys.now - ((s.rget (Reg.posAbsWord n 1)).toNat +
      2 ^ 32 * (s.rget (Reg.posAbsWord n 2)).toNat))
  else none

/-- Fields of a POS_ABS_n_CFG word. -/
def cfgDlen (c : Nat) : Nat := bitsAt c 16 6
def cfgBiss (c : Nat) : Bool := bitAt c 30
def cfgGray (c : Nat) : Bool := bitAt c 29
def cfgLead (c : Nat) : Nat := bitsAt c 25 2
def cfgEw (c : Nat) : Nat := bitsAt c 27 2

/-- A frame of an absolute port fails (R257, R258, R261). -/
def State.absFail (s : State) (n err : Nat) : State :=
  let x := s.absPort n
  let x := { x with
    frame := false, fails := x.fails + 1, wa := if err = 3 then x.wa else none
    jumps := if err = 3 then x.jumps else [] }
  let s := s.setAbs n x
  let s := (s.bump (Reg.posAbsErr_failed n) 1).fput (Reg.posAbsStat_error n) err
  let s := s.fput (Reg.posAbsStat_valid n) 0
  if 3 ≤ x.fails && !s.flag (Reg.posAbsStat_func n) then
    ((s.fput (Reg.posAbsStat_func n) 1).absUnc n).raise 0xD001 .fault n (pf 22 1 err)
  else s

/-- A word is valid (R260, R261): it is published with the time of its frame's F0. -/
def State.absValid (s : State) (n w : Nat) : State :=
  let x := s.absPort n
  let t := s.stamp
  let time := x.f0 + t.1 - s.sys.now
  let s := t.2.setAbs n { x with frame := false, has := true, wa := some w, jumps := [], fails := 0 }
  let s := ((s.rput (Reg.posAbsWord n 0) (BitVec.ofNat 32 w)).rput (Reg.posAbsWord n 1) (BitVec.ofNat 32 time)).rput
    (Reg.posAbsWord n 2) (BitVec.ofNat 32 (time / 2 ^ 32))
  let s := s.fput (Reg.posAbsStat_valid n) 1
  if s.flag (Reg.posAbsStat_func n) then
    ((s.fput (Reg.posAbsStat_func n) 0).absUnc n).raise 0xD002 .info n (pf 22 1 (s.fget (Reg.posAbsStat_error n)))
  else s

/-- Difference of two words of `dlen` bits (R260). -/
def wordDiff (dlen w wa : Nat) : Int := toInt dlen (w + 2 ^ dlen - wa % 2 ^ dlen)

/-- The jump check (R260) on a word whose frame has not failed. -/
def State.absJump (s : State) (n w : Nat) : State :=
  let x := s.absPort n
  let jmax := (s.rget (Reg.posAbsJmax n)).toNat
  let near (a b : Nat) : Bool := decide ((wordDiff (cfgDlen x.cfg) a b).natAbs ≤ jmax)
  match x.wa with
  | none => s.absValid n w
  | some wa =>
    if jmax = 0 ∨ near w wa = true then s.absValid n w
    else
      match x.jumps with
      | w2 :: w1 :: _ =>
        if near w w2 && near w2 w1 then
          let s := ((s.bump (Reg.posAbsErr_failed n) 1).bump (Reg.posAbsErr_jump n) 1).fput (Reg.posAbsStat_error n) 3
          let s := s.absValid n w
          ((s.fput (Reg.posAbsStat_junc n) 1).absUnc n).raise 0xD003 .fault n (pf 24 4 wa + pf 28 4 w)
        else ((s.setAbs n { x with jumps := w :: x.jumps }).bump (Reg.posAbsErr_jump n) 1).absFail n 3
      | _ => ((s.setAbs n { x with jumps := w :: x.jumps }).bump (Reg.posAbsErr_jump n) 1).absFail n 3

/-- The number whose bits, highest first, are given. -/
def bitsNat (bs : List Bool) : Nat := bs.foldl (fun a b => 2 * a + b2n b) 0

/-- Gray code to binary, highest bit first (R260). -/
def grayBits : Bool → List Bool → List Bool
  | _, [] => []
  | p, b :: r => (p != b) :: grayBits (p != b) r

/-- The word of the data bits of a frame under CFG word `c` (R260). -/
def cfgWord (c : Nat) (bits : List Bool) : Nat := bitsNat (if cfgGray c then grayBits false bits else bits)

/-- CRC of a BiSS frame: x^6 + x + 1, initial value 0 (R258). -/
def bissCrc (bs : List Bool) : Nat :=
  bs.foldl (fun c b => if bitAt c 5 != b then (2 * c % 64) ^^^ 3 else 2 * c % 64) 0

/-- Sample `i` of a frame; past the samples given the line is low. -/
def AbsFrame.at (f : List Bool) (i n : Nat) : List Bool := (List.range n).map (fun k => f.getD (i + k) false)

/-- The word of an SSI frame is checked for its monoflop sample (R257). -/
def State.ssiFrame (s : State) (n : Nat) (f : AbsFrame) : State :=
  let c := (s.absPort n).cfg
  let bits := AbsFrame.at f.samples (cfgLead c) (cfgDlen c)
  if f.samples.getD (cfgLead c + cfgDlen c) false then s.absFail n 2 else s.absJump n (cfgWord c bits)

/-- nW of a BiSS frame (R258): WARN shows it; ABS_WARN once until a frame with nW high. -/
def State.bissWarn (s : State) (n w : Nat) (low : Bool) (good : Bool) : State :=
  let s := s.fputB (Reg.posAbsStat_warn n) low
  if !low then s.setAbs n { s.absPort n with warned := false }
  else if good && !(s.absPort n).warned then
    (s.setAbs n { s.absPort n with warned := true }).raise 0xD004 .warn n (pf 24 4 w)
  else s

/-- The samples of a BiSS frame after its Ack edge (R258): low samples, Start by R64, CDS, data, nE and nW by EW, and 6
CRC bits. -/
def State.bissFrame (s : State) (n : Nat) (f : AbsFrame) : State :=
  let c := (s.absPort n).cfg
  let dl := cfgDlen c
  let ew := if cfgEw c = 1 then 1 else if cfgEw c = 2 then 2 else 0
  let s := s.fput (Reg.posAbsStat_ld n) f.ld.toNat
  -- the samples given begin at R3, so Start has to be one of the first 62
  let ack := (f.samples.takeWhile (fun b => !b)).length
  if f.samples.length ≤ ack ∨ 62 ≤ ack then s.absFail n 4
  else
    let bits := AbsFrame.at f.samples (ack + 2) dl
    let ext := AbsFrame.at f.samples (ack + 2 + dl) ew
    let crc := bitsNat (AbsFrame.at f.samples (ack + 2 + dl + ew) 6)
    let w := cfgWord c bits
    if bissCrc (bits ++ ext) ≠ 63 - crc then s.absFail n 6
    else
      let nE := ext.getD 0 true
      let s := if ew = 2 then s.bissWarn n w (!ext.getD 1 true) nE else s.fput (Reg.posAbsStat_warn n) 0
      if nE then s.absJump n w else s.absFail n 7

/-- A frame has ended with its samples (R257, R258, R260). -/
def State.absFrame (s : State) (n : Nat) (f : AbsFrame) : State :=
  if cfgBiss (s.absPort n).cfg then s.bissFrame n f else s.ssiFrame n f

/-- Start a frame (R257, R262). The first one after a write of CFG runs under it, and its word skips the jump check
(R260). -/
def State.absStart (s : State) (n : Nat) : State :=
  let x := s.absPort n
  let x := if x.recfg then { x with recfg := false, wa := none, jumps := [] } else x
  (s.setAbs n { x with frame := true, f0 := s.sys.now, cfg := (s.rget (Reg.posAbsCfg n)).toNat }).fput
    (Reg.posAbsStat_busy n) 1

/-- EN in force on an absolute port (R268): a write of CFG takes effect after the frame in progress. -/
def State.absRuns (s : State) (n : Nat) : Bool :=
  if (s.absPort n).frame then bitAt (s.absPort n).cfg 31 else s.flag (Reg.posAbsCfg_en n)

/-- A trigger (R262): it starts a frame, is held, or is an overrun. -/
def State.absTrigger (s : State) (n : Nat) : State :=
  if !s.absRuns n then s
  else if !s.flag (Reg.posAbsStat_busy n) then (s.setAbs n { s.absPort n with overrun := false }).absStart n
  else if !s.flag (Reg.posAbsStat_pend n) then
    (s.setAbs n { s.absPort n with overrun := false }).fput (Reg.posAbsStat_pend n) 1
  else
    let s := s.bump (Reg.posAbsOvr_val n) 1
    if (s.absPort n).overrun then s
    else (s.setAbs n { s.absPort n with overrun := true }).raise 0xD005 .warn n 0

/-- A held trigger starts its frame on a port that is free; a port that no longer runs (EN = 0) drops it (DESIGN CHOICE,
log entry 64). -/
def State.absHeld (s : State) (n : Nat) : State :=
  if s.flag (Reg.posAbsStat_pend n) then
    let s := s.fput (Reg.posAbsStat_pend n) 0
    if s.flag (Reg.posAbsCfg_en n) then s.absStart n else s
  else s

/-- A frame that finds ABS_SLO_n low fails with error 1 and leaves the port free at once; a held trigger starts its frame
(R257). -/
def State.absNotReady (s : State) (n : Nat) : State :=
  ((s.absFail n 1).fput (Reg.posAbsStat_busy n) 0).absHeld n

/-- Triggers at an LB (R262). -/
def State.absLb (s : State) : State :=
  s.each ((List.range 4).filter (fun n => s.flag (Reg.posAbsTrig_lb n))) (fun n s => s.absTrigger n)

/-- The port a count of which moves F (R238): none when F counts steps. -/
def State.feedQei (s : State) : Option Nat :=
  if s.regime = 3 ∨ (s.regime ≠ 2 ∧ s.flag Reg.motCtrl_fsrc = true) then some (s.fget Reg.motFeedEnc_port) else none

/-- Header flags of a line's reservation (R295). -/
def State.flagResv (s : State) (n bits : Nat) : State :=
  { s with
    lff := { s.lff with
      resv := s.lff.resv.map (fun r => if r.kind = .line n then { r with flags := r.flags ||| bits } else r) } }

/-- F is uncertain while its QEI source is (R238): the line in capture, like every later one of the job, carries
seam-suspect. -/
def State.feedUnc (s : State) : State :=
  match s.feedQei with
  | some n =>
    if s.flag (Reg.posQeiStat_unc n) then
      let s := s.fput Reg.motStat_func 1
      match s.seq.cur with
      | some l => s.flagResv (if s.binned then l / 2 * 2 else l) 2
      | none => s
    else s
  | none => s

/-- Put a speed while SVALID is 1 (R266). -/
def State.setSpd (s : State) (n : Nat) (v : Int) : State :=
  if s.flag (Reg.posQeiStat_svalid n) then s.rput (Reg.posQeiSpd n) (BitVec.ofInt 32 v) else s

/-- The index signal (R265). -/
def State.qeiG (s : State) (n : Nat) (a b z : Bool) : Bool :=
  (z != s.flag (Reg.posQeiCfg_ipol n)) && (!s.flag (Reg.posQeiCfg_igate n) || (a && b))

/-- An index edge latches count and time; the drift is computed and checked (R265). -/
def State.qeiIndex (s : State) (n : Nat) : State :=
  let c := (s.rget (Reg.posQeiCount n)).toNat
  let x := s.qeiPort n
  let t := s.stamp
  let s := t.2.rput (Reg.posQeiIdx n 0) (BitVec.ofNat 32 c)
  let s := (s.rput (Reg.posQeiIdx n 2) (BitVec.ofNat 32 t.1)).rput (Reg.posQeiIdx n 3) (BitVec.ofNat 32 (t.1 / 2 ^ 32))
  if x.reidx then
    let s := s.setQei n { x with reidx := false, prev := c, k := 0, drift := 0 }
    ((s.rput (Reg.posQeiRef n) (BitVec.ofNat 32 c)).rput (Reg.posQeiIdx n 1) 0).fput (Reg.posQeiStat_iref n) 1
  else
    let cpr := (s.rget (Reg.posQeiCpr n)).toNat
    if cpr = 0 then s.setQei n { x with prev := c }
    else
      let dif := toInt 32 (c + 2 ^ 32 - x.prev)
      let k := (((x.k : Int) + dif) % (cpr : Int)).toNat
      let drift : Int := if cpr / 2 ≤ k then (k : Int) - cpr else k
      let s := s.setQei n { x with prev := c, k := k, drift := drift }
      let s := s.rput (Reg.posQeiIdx n 1) (BitVec.ofInt 32 drift)
      let pay := pf 24 4 c + pfI 28 2 drift
      if drift.natAbs ≤ s.fget (Reg.posQeiItol_itol n) then
        if drift = x.drift then s else s.raise 0xD007 .info (4 + n) pay
      else
        let was := s.flag (Reg.posQeiStat_iflt n)
        let s := ((s.setQeiUnc n true).fput (Reg.posQeiStat_iflt n) 1).bump (Reg.posQeiErr_idx n) 1
        let s := s.feedUnc
        if was then s else s.raise 0xD008 .fault (4 + n) pay

/-- The index edge of the last count's direction (R265), after the levels have changed. -/
def State.qeiLevels (s : State) (n : Nat) (a b z : Bool) : State :=
  let g := s.qeiG n a b z
  let was := (s.qeiPort n).g
  let s := s.fput (Reg.posQeiStat_lvl n) (b2n a + 2 * b2n b + 4 * b2n z)
  let s := s.setQei n { s.qeiPort n with g := g }
  if g != was && g == !s.flag (Reg.posQeiStat_dir n) then s.qeiIndex n else s

/-- Place of (A, B) in the forward order 00, 10, 11, 01 (R263). -/
def quadPhase (a b : Bool) : Nat := if a then (if b then 2 else 1) else (if b then 3 else 0)

/-- A count up or down (R263, R266). -/
def State.qeiCount (s : State) (n : Nat) (neg : Bool) : State :=
  let s := s.rput (Reg.posQeiCount n) (s.rget (Reg.posQeiCount n) + (if neg then -1 else 1))
  let s := s.fputB (Reg.posQeiStat_dir n) neg
  let x := s.qeiPort n
  let sg : Int := if neg then -1 else 1
  let pred := match x.last with
    | some (was, t) => if was = neg then some (s.sys.now - t) else none
    | none => none
  let spdp : Int := match pred with
    | some tp => sg * rdiv (16 * 10 ^ 9) tp
    | none => 0
  let period := s.flag (Reg.posQeiStat_smode n)
  let s := s.setQei n { x with win := x.win + sg, last := some (neg, s.sys.now), tp := pred.getD x.tp, spdp := spdp }
  if period then
    let s := if x.last.isSome then s.fput (Reg.posQeiStat_svalid n) 1 else s
    s.setSpd n spdp
  else s

/-- The speed a read of POS_QEI_n_SPD sees (R266): in period mode it falls with the time since the last count. -/
def State.qeiSpd (s : State) (n : Nat) : Word :=
  let w := s.rget (Reg.posQeiSpd n)
  match (s.qeiPort n).last with
  | some (neg, t) =>
    let e := s.sys.now - t
    if !(s.flag (Reg.posQeiStat_smode n) && s.flag (Reg.posQeiStat_svalid n)) then w
    else if 100000000 ≤ e then 0
    else if (s.qeiPort n).tp < e ∧ (s.qeiPort n).tp ≠ 0 then
      BitVec.ofInt 32 ((if neg then -1 else 1) * rdiv (16 * 10 ^ 9) e)
    else w
  | none => w

/-- An illegal transition (R264). -/
def State.qeiIllegal (s : State) (n : Nat) : State :=
  let s := (s.bump (Reg.posQeiErr_ill n) 1).setQeiUnc n true
  -- SPD holds the value it has reached
  let s := (s.rput (Reg.posQeiSpd n) (s.qeiSpd n)).fput (Reg.posQeiStat_svalid n) 0
  let x := s.qeiPort n
  let s := s.setQei n { x with ill := true, last := none, winBad := true }
  let s := s.feedUnc
  if x.ill then s else s.raise 0xD006 .warn (4 + n) (pf 24 4 (s.rget (Reg.posQeiCount n)).toNat)

/-- A speed window ends (R266). -/
def State.qeiWindow (s : State) (n : Nat) : State :=
  let x := s.qeiPort n
  let pthr := max 1 (s.fget (Reg.posQeiCfg_pthr n))
  let period := s.flag (Reg.posQeiStat_smode n)
  let period :=
    if !period && decide (x.win.natAbs < pthr) then true
    else if period && decide (2 * pthr ≤ x.win.natAbs) then false
    else period
  let s := (s.fputB (Reg.posQeiStat_smode n) period).setQei n { x with win := 0, winBad := false }
  if period then s.setSpd n x.spdp
  else
    let s := if x.winBad then s else s.fput (Reg.posQeiStat_svalid n) 1
    s.setSpd n (rdiv (x.win * 16 * 10 ^ 9) (s.fget (Reg.posQeiCfg_win n) * 10000 : Nat))

end Sys2Proof.Machine
end

