-- ==== Sys2Proof/Machine/TrkOps.lean ====
section
/-!
DEFINITION. Shared operations of feed tracking and the seam loop (chapter 8): windows, patches, correlation, ticks,
geometry, seam measurements, the loop, the calender map, WEB scale, quality figures.
-/

namespace Sys2Proof.Machine

/-- Bases of the shadow and of the table in force (R195). -/
def winShadow : Nat := 0x15721000
def winForce : Nat := 0x15722000

/-- Window `w` of a table (R195); `bad` says that a reserved bit is 1 or a code is reserved. -/
def State.winEntry (s : State) (base w : Nat) : WinEntry :=
  let a := base + 16 * w
  let m := s.ld (a + 3) 1
  let t := s.ld (a + 4) 1
  let kind := m % 4
  let exp := s.ld (a + 8) 4
  let tmin := s.ld (a + 12) 4
  { x0 := s.ld a 3, kind := kind, chan := bitsAt m 2 2, side := bitsAt m 4 2, geom := bitAt m 6, src := t % 4
    g := bitsAt t 2 2, qmin := s.ld (a + 5) 1, lofs := s.ld (a + 6) 2, exp := exp, tmin := tmin
    bad := decide (2 ^ 19 ≤ s.ld a 3) || bitAt m 7 || t / 16 != 0 || kind == 3 || bitsAt m 4 2 == 3 || t % 4 == 3 ||
      (kind == 2 && (decide (2 ^ 16 ≤ exp) || decide (2 ^ 8 ≤ tmin))) }

/-- Period of a periodic window in output lines (R196). -/
def WinEntry.period (e : WinEntry) (bin : Bool) : Nat := (rdiv (e.exp * (if bin then 6 else 12) : Nat) 127000).toNat

/-- The checks of R196 on an active window. -/
def WinEntry.ok (e : WinEntry) (bin : Bool) (planes : Nat) : Bool :=
  !e.bad && decide (e.x0 + 127 < (if bin then 163840 else 327680)) && decide (e.chan < planes) &&
    !(e.kind == 1 && e.exp == 0 && e.src != 0) &&
    (e.src != 2 || decide (64 ≤ e.period bin ∧ e.period bin ≤ 65535)) &&
    !(e.kind == 2 && e.tmin == 0)

/-- The first active window of the shadow that fails its check (R196). -/
def State.winFirstBad (s : State) (bin : Bool) (planes : Nat) : Option Nat :=
  (List.range 256).find? (fun w => let e := s.winEntry winShadow w; e.kind != 0 && !e.ok bin planes)

/-- A window of the table in force. -/
def State.wentry (s : State) (w : Nat) : WinEntry := s.winEntry winForce w

def State.activeWins (s : State) : List Nat := (List.range 256).filter (fun w => (s.wentry w).kind != 0)

def State.win (s : State) (w : Nat) : Win := tget (fun _ => Win.init) s.trk.win w

def State.setWin (s : State) (w : Nat) (x : Win) : State :=
  { s with trk := { s.trk with win := tput (fun _ => Win.init) s.trk.win w x } }

/-- Address of a patch's slot (R197). -/
def slotAddr (w k : Nat) : Nat := 0x14A00000 + 0x4000 * w + 0x2000 * (k % 2)

/-- hk of R208: a shift by 0 rounds nothing. -/
def hk (k : Nat) : Int := if k = 0 then 0 else (2 ^ (k - 1) : Nat)

/-- A rounding arithmetic shift right. -/
def shrHalf (x : Int) (k : Nat) : Int := (x + hk k).fdiv (2 ^ k : Nat)

/-- Signed values of the seam loop's registers. -/
def State.fedI (s : State) : Int := (s.rget Reg.fedIntI).toInt
def State.fedJ (s : State) : Int := (s.rget Reg.fedIntJ).toInt
def State.cmax (s : State) : Int := (s.fget Reg.fedCmax_cmax : Nat)

/-- Bases of the calender shadow and of the map in force (R210), and a bin. -/
def calShadow : Nat := 0x15720000
def calForce : Nat := 0x15720400
def State.calBin (s : State) (base b : Nat) : Int := s.ldI (base + 4 * b) 4

/-- The bins that an arc covers, with the part of each (R207, R212): bin and st. -/
def arcWalk : Nat → Nat → Nat → List (Nat × Nat)
  | 0, _, _ => []
  | fuel + 1, pos, rem =>
    if rem = 0 then []
    else
      let st := min (256 - pos % 256) rem
      (pos / 256 % 256, st) :: arcWalk fuel (pos + st) (rem - st)

/-- The calender term (R207). -/
def State.calTerm (s : State) (theta arc : Nat) : Int :=
  rdiv (sumI ((arcWalk (arc / 256 + 2) theta arc).map (fun x => s.calBin calForce x.1 * x.2))) 65536

/-- Learning (R212): the shadow alone changes. -/
def State.learn (s : State) (e : Int) (theta arc : Nat) : State :=
  let kc := s.fget Reg.fedLoop_kc
  let put (s : State) (b : Nat) (v : Int) : State := s.st (calShadow + 4 * b) 4 (ofInt 32 v)
  let s := (arcWalk (arc / 256 + 2) theta arc).foldl (fun s x =>
    put s x.1 (s.calBin calShadow x.1 - rdiv (e * 256 * x.2) (arc * 2 ^ kc : Nat))) s
  let mean := rdiv (sumI ((List.range 256).map (s.calBin calShadow))) 256
  s.each (List.range 256) (fun b s => put s b (s.calBin calShadow b - mean))

/-- The first failure of the shadow (R213): cause and bin. -/
def State.mapFail (s : State) : Option (Nat × Nat) :=
  let mmax : Int := 256 * (s.fget Reg.fedMapLim_mmax : Nat)
  let ms : Int := 256 * (s.fget Reg.fedMapLim_mslope : Nat)
  (List.range 256).findSome? (fun b =>
    let m := s.calBin calShadow b
    if mmax < (m.natAbs : Int) then some (1, b)
    else if ms < ((s.calBin calShadow ((b + 1) % 256) - m).natAbs : Int) then some (2, b)
    else none)

/-- The map's learnt amplitude (R214). -/
def State.mapAmp (s : State) : Nat :=
  let r := (List.range 256).foldl (fun (x : Int × Int × Int) b =>
    let p := x.1 + s.calBin calForce b
    (p, max x.2.1 p, min x.2.2 p)) (0, 0, 0)
  (rdiv (r.2.1 - r.2.2) 512).toNat

/-- The shadow is checked at a PB, or at a JB (R213): it becomes the map in force, unless the class is held (R17), or is
overwritten by it. -/
def State.mapCommit (s : State) (held : Bool) : State :=
  if s.bytes calShadow 1024 = s.bytes calForce 1024 then s
  else match s.mapFail with
    | none =>
      if held then s
      else
        let s := s.store calForce (s.bytes calShadow 1024)
        let s := s.fput Reg.fedCalAmp_id (s.fget Reg.fedCalAmp_id + 1)
        s.fput Reg.fedCalAmp_amp (min 65535 s.mapAmp)
    | some (c, b) =>
      (s.store calShadow (s.bytes calForce 1024)).raiseLb 0xB007 .warn 0 (pf 22 1 c + pf 23 1 b)

/-- The ring entry of an advance (R206), when the ring holds it: its address. -/
def State.ringAt (s : State) (q : Int) : Option Nat :=
  let k := (q % 32).toNat
  let a := 0x15724000 + 32 * k
  if tget (fun _ => false) s.fed.ring k && decide (0 ≤ q) && s.ld a 4 == q.toNat then some a else none

/-- The roller angle θ at an acceptance, from the port's most recent valid word, and whether it is valid (R211). -/
def State.rollerAngle (s : State) : Nat × Bool :=
  let n := s.fget Reg.fedCalEnc_port
  let t := (s.rget (Reg.posAbsWord n 0)).toNat / 2 ^ (s.fget Reg.fedCalEnc_top - 15) % 65536
  let ok := match s.absWord n with
    | none => false
    | some (_, age) => decide (age ≤ 100000) && !s.flag (Reg.posAbsStat_unc n)
  (if s.flag Reg.fedCalEnc_dir then (65536 - t) % 65536 else t, ok)

/-- The corrected distances of an advance (R207): a0, a1, and the state with its ring entry. -/
def State.feedCorrect (s : State) (pass : Nat) (a : Int) : Int × Int × State :=
  let circ : Int := (s.rget Reg.fedCalCirc).toNat
  let arc := if 0 < a then (rdiv (a * 65536) circ).toNat else 0
  let ang := s.rollerAngle
  let en := s.flag Reg.fedCtrl_en
  let calEn := s.flag Reg.fedCtrl_cal_en
  let i := s.fedI
  let j := s.fedJ
  let cal := if en && calEn && ang.2 && decide (0 < arc) then s.calTerm ang.1 arc else 0
  let c := cal + i
  let cc := clampI (-s.cmax) s.cmax c
  let clamped := en && c != cc
  let jj := if s.flag Reg.fedCtrl_diff_en then j else 0
  let h := jj.fdiv 2
  let k := pass % 32
  let s := s.store (0x15724000 + 32 * k)
    (leBytes 4 pass ++ leBytes 2 ang.1 ++ leBytes 2 (b2n ang.2 + 2 * b2n clamped) ++ leBytes 4 arc ++
      leBytes 4 (ofInt 32 a) ++ leBytes 4 (ofInt 32 cal) ++ leBytes 4 (ofInt 32 i) ++ leBytes 4 (ofInt 32 j) ++
      leBytes 4 0x80000000)
  let s : State := { s with
    fed := { s.fed with
      ring := tput (fun _ => false) s.fed.ring k true
      firstPass := if s.fed.firstPass.isSome then s.fed.firstPass else some pass } }
  let s := s.fput Reg.fedLastPass_val pass
  let s := if !ang.2 && en && calEn then s.raiseLb 0xB006 .warn 0 (pf 24 4 pass) else s
  let s :=
    if clamped && !s.flag Reg.fedStat_clamped then s.raiseLb 0xB005 .warn 0 (pf 24 4 pass + pfI 28 4 c) else s
  let s := (s.fputB Reg.fedStat_clamped clamped).fputB Reg.fedStat_angle ang.2
  if en then (a + cc - h, a + cc + jj - h, s) else (a, a, s)

/-- Quality figures after an accepted measurement (R216). -/
def State.quality (s : State) (e : Int) : State :=
  let es := (e :: s.fed.es).take 64
  let n := es.length
  let res := 3 * isqrt (rdiv (sumI (es.map (fun x => x * x))) n).toNat
  let mean := rdiv (sumI es) n
  let lim := s.fget Reg.fedSeamLim_lim
  let s : State := { s with fed := { s.fed with es := es } }
  let s := (s.fput Reg.fedSeamRes_val res).rput Reg.fedSeamMean (BitVec.ofInt 32 mean)
  let s := s.fput Reg.fedStat_n n
  if lim = 0 then s
  else if lim < res ∧ s.fed.high = false then
    ({ s with fed := { s.fed with high := true } } : State).raiseLb 0xB008 .warn 0 (pf 24 4 res)
  else if 2 * res ≤ lim ∧ s.fed.high = true then
    ({ s with fed := { s.fed with high := false } } : State).raiseLb 0xB009 .info 0 (pf 24 4 res)
  else s

/-- A closed seam measurement (R205, R206, R208). -/
def State.seamClose (s : State) (m : SeamMeas) : State :=
  let q : Int := (m.pass : Int) - m.d
  let before := match s.fed.firstPass with
    | some p => decide (q < p)
    | none => true
  let mean (l : List Int) : Int := rdiv (sumI l) l.length
  let all := m.res.map (fun r => r.2)
  let left := (m.res.filter (fun r => r.1 == 1)).map (fun r => r.2)
  let right := (m.res.filter (fun r => r.1 == 2)).map (fun r => r.2)
  if before then s
  else if all = [] then s.raiseLb 0xB003 .warn 0 (pfI 24 4 q)
  else match s.ringAt q with
    | none => s.raiseLb 0xB003 .warn 0 (pfI 24 4 q)
    | some at' =>
      let e := mean all
      if (s.fget Reg.fedEmax_emax : Int) < e.natAbs then
        let s := s.st (at' + 6) 1 (putBit (s.ld (at' + 6) 1) 3 true)
        (s.bump Reg.fedStat_rej 1).raiseLb 0xB004 .warn 0 (pfI 24 4 q + pfI 28 4 e)
      else
        let s := (s.st (at' + 6) 1 (putBit (s.ld (at' + 6) 1) 2 true)).st (at' + 28) 4 (ofInt 32 e)
        let s := s.rput Reg.fedIntI
          (BitVec.ofInt 32 (clampI (-s.cmax) s.cmax (s.fedI - shrHalf e (s.fget Reg.fedLoop_ki))))
        let s :=
          if s.flag Reg.fedCtrl_diff_en && left != [] && right != [] then
            let d := mean right - mean left
            s.rput Reg.fedIntJ
              (BitVec.ofInt 32 (clampI (-s.cmax) s.cmax (s.fedJ - shrHalf d (s.fget Reg.fedLoop_kj))))
          else s
        let arc := s.ld (at' + 8) 4
        let s :=
          if s.flag Reg.fedCtrl_learn && bitAt (s.ld (at' + 6) 1) 0 && decide (0 < arc ∧ arc ≤ 65536) then
            s.learn e (s.ld (at' + 4) 2) arc
          else s
        s.quality e

/-- Close the measurements whose windows are all accounted for (R205). -/
def State.seamCheck (s : State) : State :=
  let done := s.fed.seams.filter (fun m => m.out == [])
  let s : State := { s with fed := { s.fed with seams := s.fed.seams.filter (fun m => m.out != []) } }
  done.foldl (fun s m => s.seamClose m) s

/-- Geometry of a tick measurement whose windows are all accounted for (R204). Left and right at one x leave the quotient
without a stated value: a free value. -/
def State.geoClose (s : State) (m : GeoMeas) : State :=
  let pick (side : Nat) : Option (Int × Int) :=
    (m.res.filter (fun r => r.2.1 == side)).foldl (fun (b : Option (Nat × Int × Int)) r =>
      match b with
      | none => some (r.1, r.2.2.1, r.2.2.2)
      | some x => if r.1 < x.1 then some (r.1, r.2.2.1, r.2.2.2) else some x) none |>.map (fun x => x.2)
  match pick 1, pick 2 with
  | some (pl, xl), some (pr, xr) =>
    let free := decide (xr = xl)
    let skw : Int := if free then (Config.openNat s.fresh : Nat) else rdiv ((pr - pl) * 2 ^ 18) (xr - xl)
    let s : State := if free then { s with fresh := s.fresh + 1 } else s
    { s with
      trk := { s.trk with sk := satInt 24 (s.trk.sk + (skw - s.trk.sk).fdiv (2 ^ s.fget Reg.trkCtrl_ks : Nat)) } }
  | _, _ => s

def State.geoCheck (s : State) : State :=
  let done := s.trk.geo.filter (fun m => m.out == [])
  let s : State := { s with trk := { s.trk with geo := s.trk.geo.filter (fun m => m.out != []) } }
  done.foldl (fun s m => s.geoClose m) s

/-- Two patches belong to one trigger (R204): the same PB or edge; periodic ones start at the same line. -/
def sameTrig (a b : Trig) (fa fb : Nat) : Bool := a == b && (a != .periodic || fa == fb)

/-- A tick window's part in the seam and geometry measurements of its trigger is over: a valid result, with the entry it was
captured with, or none. -/
def State.tickOver (s : State) (w : Nat) (en : WinEntry) (trig : Trig) (first : Nat) (e : Option (Int × Int)) : State :=
  let seams := s.fed.seams.map (fun m =>
    if m.out.contains w && decide (trig = .pb m.pass m.d) then
      { m with
        out := m.out.filter (· != w)
        res := match e with
          | some x => m.res ++ [(en.side, x.1)]
          | none => m.res }
    else m)
  let geo := s.trk.geo.map (fun m =>
    if m.out.contains w && sameTrig m.trig trig m.first first then
      { m with
        out := m.out.filter (· != w)
        res := match e with
          | some x => m.res ++ [(w, en.side, x.2, ((if s.binned then 2 * en.x0 else en.x0 : Nat) : Int))]
          | none => m.res }
    else m)
  (({ s with fed := { s.fed with seams := seams }, trk := { s.trk with geo := geo } } : State).seamCheck).geoCheck

/-- Address of a window's record (R202). -/
def winRecord (w : Nat) : Nat := 0x15723000 + 16 * w

/-- A window result that is not valid (R202). -/
def State.winInvalid (s : State) (w line status : Nat) (b10 ext : Option Nat) : State :=
  let s := s.record (winRecord w) (s.capLine line) (-32768) (-32768) status b10 ext
  if status = 1 then s else s.bump Reg.trkCntInv_val 1

/-- Skip an item (R199): WIN_SKIP, the chain restarts, the measurements lose it. -/
def State.itemSkip (s : State) (w : Nat) (p : Patch) : State :=
  let s := (s.bump Reg.trkCntSkip_val 1).raiseLb 0xB002 .warn w (pf 24 6 (s.capLine p.first))
  let s := s.winInvalid w p.first 8 none none
  let s := s.setWin w { s.win w with restart := true }
  s.tickOver w p.ent p.trig p.first none

/-- A couch comparison is over (R249, R250). -/
def State.couchOne (s : State) (dy : Option Int) : State :=
  match s.mot.check with
  | none => s
  | some c =>
    let c := { c with
      out := c.out - 1
      dys := match dy with
        | some d => c.dys ++ [d]
        | none => c.dys }
    let s : State := { s with mot := { s.mot with check := some c } }
    if c.out = 0 then s.couchVerdict c else s

/-- Skip any item. -/
def State.corrSkip (s : State) (i : CorrItem) : State :=
  match i.kind with
  | .chain w _ cur => s.itemSkip w cur
  | .tick w cur => s.itemSkip w cur
  | .couch n => if voidStrip ≤ n then s else s.couchOne none

/-- Window of an item, for the order of the queue (R199). -/
def CorrKind.win : CorrKind → Nat
  | .chain w _ _ => w
  | .tick w _ => w
  | .couch n => n

/-- A measurement becomes ready (R199). -/
def State.corrReady (s : State) (k : CorrKind) : State :=
  let i : CorrItem := { kind := k, age := s.sys.now / 2, fails := 0 }
  if 512 ≤ s.trk.queue.length then s.corrSkip i
  else { s with trk := { s.trk with queue := s.trk.queue ++ [i] } }

/-- A complete patch (R198): what follows from it. -/
def State.patchDone (s : State) (w : Nat) (p : Patch) : State :=
  let x := s.win w
  let p := { p with whole := p.whole && p.got == 64 }
  let s := s.setWin w { x with caps := x.caps.drop 1 }
  if p.ent.kind = 2 then
    if p.whole then s.corrReady (.tick w p)
    else (s.winInvalid w p.first 2 none none).tickOver w p.ent p.trig p.first none
  else
    let s' := s.setWin w { s.win w with prev := some p, restart := false }
    if !p.whole then s'.winInvalid w p.first 2 none none
    else match x.prev with
      | some r =>
        if p.anew || x.restart || !r.whole then s'.winInvalid w p.first 1 none none else s'.corrReady (.chain w r p)
      | none => s'.winInvalid w p.first 1 none none

/-- Comparisons that wait for a slot into which a capture begins are skipped (R199). -/
def State.slotTaken (s : State) (w k : Nat) : State :=
  let hit (i : CorrItem) : Bool := match i.kind with
    | .chain v r c => v == w && (r.k % 2 == k % 2 || c.k % 2 == k % 2)
    | .tick v c => v == w && c.k % 2 == k % 2
    | .couch _ => false
  let lost := s.trk.queue.filter hit
  let s : State := { s with trk := { s.trk with queue := s.trk.queue.filter (fun i => !hit i) } }
  lost.foldl (fun s i => s.corrSkip i) s

/-- The patches of a window take a line that the analysis island has read (R197). -/
def State.patchLine (s : State) (w : Nat) (img : LineImg) : State :=
  let l := outLine (bitAt img.cfg.fmt 1) img.n
  (s.win w).caps.foldl (fun s p =>
    if p.first ≤ l ∧ l < p.first + 64 then
      let s := if p.got = 0 then s.slotTaken w p.k else s
      let px := (List.range 128).map (fun i => img.at p.ent.chan (p.ent.x0 + i))
      let s := s.store (slotAddr w p.k + 128 * (l - p.first)) (px.map (fun v => BitVec.ofNat 8 (v.getD 0xFFFF / 256)))
      let good := px.all (fun v => match v with
        | some v => v != 0xFFFF
        | none => false)
      let x := s.win w
      s.setWin w { x with
        caps := x.caps.map (fun q =>
          if q.k = p.k then
            { q with got := q.got + 1, whole := q.whole && good, feed := (if l = p.first then img.cfg.feed else q.feed), com := img.com }
          else q) }
    else s) s

/-- Patches whose last line has been read or passed over. -/
def State.patchesDone (s : State) (w upto : Nat) : State :=
  ((s.win w).caps.filter (fun p => decide (p.first + 64 ≤ upto))).foldl (fun s p =>
    match (s.win w).caps with
    | q :: _ => if q.k = p.k then s.patchDone w q else s
    | [] => s) s

/-- Windows with patches whose lines have not all been read. -/
def State.busyWins (s : State) : List Nat := (List.range 256).filter (fun w => (s.win w).caps != [])

/-- The tracking windows take a line (R197 to R199). -/
def State.trackLine (s : State) (img : LineImg) : State :=
  let upto := outLine (bitAt img.cfg.fmt 1) img.n + 1
  s.each s.busyWins (fun w s => (s.patchLine w img).patchesDone w upto)

/-- A patch of the window is being captured, or waits for its LB (R197). -/
def State.capturing (s : State) (w : Nat) : Bool :=
  let now := outLine s.binned s.lastLb
  (s.win w).wait.isSome || (s.win w).caps.any (fun p => decide (now < p.first + 64))

/-- A trigger that arrives while a patch is captured is ignored, and the chain starts anew with the next patch (R197, R198). -/
def State.trigIgnored (s : State) (w : Nat) (t : Trig) : State :=
  let s := (s.bump Reg.trkCntOvr_val 1).raiseLb 0xB001 .warn w 0
  (s.setWin w { s.win w with anew := true }).tickOver w (s.wentry w) t 0 none

/-- A trigger reaches a window (R197): it waits for its LB, or is ignored while a patch is captured. -/
def State.winTrigger (s : State) (w : Nat) (t : Trig) : State :=
  if s.capturing w then s.trigIgnored w t else s.setWin w { s.win w with wait := some t }

/-- Windows triggered by one trigger form its seam and geometry measurements (R204, R205). -/
def State.trigGroup (s : State) (t : Trig) (ws : List Nat) (first : Nat) : State :=
  let ticks := ws.filter (fun w => (s.wentry w).kind == 2)
  let geom := ticks.filter (fun w => (s.wentry w).geom)
  let s : State :=
    if geom = [] then s
    else { s with trk := { s.trk with geo := s.trk.geo ++ [{ trig := t, first := first, out := geom, res := [] }] } }
  match t with
  | .pb pass d =>
    if ticks = [] then s
    else { s with fed := { s.fed with seams := s.fed.seams ++ [{ pass := pass, d := d, out := ticks, res := [] }] } }
  | _ => s

/-- The tracking windows run (R218, R209). -/
def State.tracking (s : State) : Bool := s.running && s.flag Reg.trkCtrl_en

/-- A PB triggers windows (R197, R205). -/
def State.trackPb (s : State) (pass : Nat) : State :=
  if !s.tracking then s
  else
    let t : Trig := .pb pass (s.fget Reg.fedLoop_d)
    let ws := s.activeWins.filter (fun w => (s.wentry w).src == 0)
    (s.trigGroup t ws 0).each ws (fun w s => s.winTrigger w t)

/-- A rising edge on EVI_g triggers windows (R197). -/
def State.trackEvi (s : State) (g : Nat) : State :=
  if !s.tracking then s
  else
    let n := tget (fun _ => 0) s.trk.edges g
    let t : Trig := .evi g n
    let s : State := { s with trk := { s.trk with edges := tput (fun _ => 0) s.trk.edges g (n + 1) } }
    let ws := s.activeWins.filter (fun w => (s.wentry w).src == 1 && (s.wentry w).g == g)
    (s.trigGroup t ws 0).each ws (fun w s => s.winTrigger w t)

/-- A patch begins at output line `first` (R197). -/
def State.patchBegin (s : State) (w first : Nat) (t : Trig) : State :=
  let x := s.win w
  let p : Patch :=
    { ent := s.wentry w, anew := x.anew, first := first, k := x.next, got := 0, whole := true, feed := 0, trig := t, com := 0 }
  s.setWin w { x with wait := none, next := x.next + 1, anew := false, caps := x.caps ++ [p] }

/-- The table in force takes the shadow (R195). -/
def State.winCopy (s : State) : State :=
  let s : State := s.store winForce (s.bytes winShadow 0x1000)
  ({ s with trk := { s.trk with place := false } } : State).fput Reg.trkStat_active s.activeWins.length

/-- A window whose entry changes at the LB of output line `l` (R195, R198, R205): the patch it is capturing is abandoned, one
whose lines have all been captured is not; a trigger that waits for this LB stays with a window that has the same trigger. -/
def State.winChange (s : State) (l w : Nat) : State :=
  let x := s.win w
  let old := s.wentry w
  let new := s.winEntry winShadow w
  let stays := new.kind != 0 && new.src == old.src && new.g == old.g
  let whole (p : Patch) : Bool := decide (p.first + 64 ≤ l)
  let s := s.setWin w { x with
    caps := x.caps.filter whole, wait := if stays then x.wait else none, anew := true, period := none }
  let s := (x.caps.filter (fun p => !whole p)).foldl (fun s p => s.tickOver w p.ent p.trig p.first none) s
  match x.wait with
  | some t => if stays && new.kind == 2 then s else s.tickOver w old t 0 none
  | none => s

/-- The placement commit of R195. -/
def State.winCommit (s : State) (l : Nat) : State :=
  let changed := (List.range 256).filter (fun w =>
    s.bytes (winShadow + 16 * w) 16 != s.bytes (winForce + 16 * w) 16)
  (s.each changed (fun w s => s.winChange l w)).winCopy

/-- The windows at the JB of a JOB_START (R195, R198): every chain starts anew; the table follows, with the LB class held at
the first LB after the hold (R17). Comparisons of a seam check that a line still waits for stay (R250). -/
def State.winJb (s : State) : State :=
  let s : State := if s.holds .lb 0 then { s with trk := { s.trk with place := true } } else s.winCopy
  { s with trk := { s.trk with win := [], geo := [], queue := s.trk.queue.filter CorrItem.isCouch, edges := [] } }

/-- Entry into SAFE (R209): the windows stop capturing, measurements that have not closed are dropped. -/
def State.trackSafe (s : State) : State :=
  { s with
    trk := { s.trk with
      win := (s.trk.win.map (fun e => (e.1, { e.2 with caps := [], wait := none }))).filter (fun e => e.2 != Win.init)
      geo := [] }
    fed := { s.fed with seams := [] } }

/-- A periodic window at the LB of output line `l` (R197). A schedule that starts in the middle of a job, after a placement
commit, starts with its next line. -/
def State.winPeriodic (s : State) (l w : Nat) : State :=
  let e := s.wentry w
  let P := e.period s.binned
  let p := match (s.win w).period with
    | some p => p
    | none => e.lofs + ceilDiv (l - e.lofs) P * P
  if l < p then s.setWin w { s.win w with period := some p }
  else
    let s := s.setWin w { s.win w with period := some (p + P) }
    if s.capturing w then s.trigIgnored w .periodic else s.patchBegin w p .periodic

/-- The tracking windows at an LB (R195, R197): the placement commit, triggers that find their LB, periods. -/
def State.trackLb (s : State) (n : Nat) : State :=
  let bin := s.binned
  let l := outLine bin n
  let s := if s.trk.place && !s.flag Reg.sysCommitHold_lb && !(bin && n % 2 == 1) then s.winCommit l else s
  if !s.tracking || (bin && n % 2 == 1) then s
  else
    let per := s.activeWins.filter (fun w => (s.wentry w).src == 2)
    let s := s.each per (fun w s => s.winPeriodic l w)
    let begun := per.filter (fun w => (s.win w).caps.any (fun p => p.first == l && p.trig == .periodic && p.got == 0))
    let s := s.trigGroup .periodic begun l
    s.each s.activeWins (fun w s =>
      match (s.win w).wait with
      | some t => s.patchBegin w (l + (s.wentry w).lofs) t
      | none => s)

/-- Geometry values in force take the computed ones at an LB (R204). -/
def State.geomLb (s : State) : State :=
  let s := s.fputI Reg.trkGeom0_ox (satInt 20 (s.fgetI Reg.trkOxBase_ox + s.trk.acc))
  let s := (s.fputI Reg.trkGeom1_sk s.trk.sk).fputI Reg.trkGeom2_sc s.trk.sc
  { s with fed := { s.fed with scl := (s.rget Reg.fedWebScl).toInt } }

/-- sub() of R201. -/
def subPel (a c b : Int) : Int :=
  let den := a - 2 * c + b
  if den ≤ 0 then 0 else clampI (-32) 32 (rdiv (32 * (a - b)) den)

/-- One entry of a correlation surface. -/
structure Corr where
  sx : Int
  sy : Int
  s : Nat
  deriving DecidableEq, Repr

/-- Smaller sum; ties: smaller abs(sy), smaller abs(sx), lower sy, lower sx (R201). -/
def Corr.better (a b : Corr) : Bool :=
  let key (c : Corr) : List Int := [c.s, c.sy.natAbs, c.sx.natAbs, c.sy, c.sx]
  decide (key a < key b)

/-- Result of a comparison (R201, R249): status, dx, dy without the feed's part, q, t. -/
structure CorrRes where
  status : Nat
  dx : Int
  dy : Int
  q : Option Nat
  t : Option Nat
  deriving DecidableEq, Repr

/-- Integers from −m to m. -/
def span (m : Nat) : List Int := (List.range (2 * m + 1)).map (fun (i : Nat) => (i : Int) - m)

/-- The comparison shared by R201 and R249: search ±mx, ±my, area x0…x1, l0…l1, exclusion radius ex. -/
def compare (ref cur : Nat → Nat → Nat) (mx my x0 x1 l0 l1 ex tmin qmin : Nat) : CorrRes :=
  let xs : List Nat := (List.range (x1 + 1 - x0)).map (x0 + ·)
  let ls : List Nat := (List.range (l1 + 1 - l0)).map (l0 + ·)
  let dif (a b : Nat) : Nat := (a - b) + (b - a)
  let sad (sx sy : Int) : Nat := xs.foldl (fun a (x : Nat) => ls.foldl (fun a (l : Nat) =>
    a + dif (cur ((x : Int) + sx).toNat ((l : Int) + sy).toNat) (ref x l)) a) 0
  let all := (span my).flatMap (fun sy => (span mx).map (fun sx => ({ sx := sx, sy := sy, s := sad sx sy } : Corr)))
  let best := all.foldl (fun (b : Corr) c => if c.better b then c else b) (all.headD { sx := 0, sy := 0, s := 0 })
  let at' (sx sy : Int) : Int := match all.find? (fun c => c.sx == sx && c.sy == sy) with
    | some c => c.s
    | none => 0
  if best.sx.natAbs = mx ∨ best.sy.natAbs = my then { status := 3, dx := 0, dy := 0, q := none, t := none }
  else
    let t := (List.range (x1 - x0)).foldl (fun a i => (List.range (l1 - l0)).foldl (fun a k =>
      let x := x0 + i
      let l := l0 + k
      a + dif (ref (x + 1) l) (ref x l) + dif (ref x (l + 1)) (ref x l)) a) 0
    if t < tmin then { status := 4, dx := 0, dy := 0, q := none, t := some t }
    else
      let far := all.filter (fun c => decide (ex < (c.sx - best.sx).natAbs ∨ ex < (c.sy - best.sy).natAbs))
      let s2 := far.foldl (fun m c => min m c.s) (far.headD best).s
      let q := if s2 = 0 then 0 else (rdiv (255 * (s2 - best.s) : Nat) s2).toNat
      if q < qmin then { status := 5, dx := 0, dy := 0, q := some q, t := some t }
      else
        { status := 0, q := some q, t := some t
          dx := 64 * best.sx + subPel (at' (best.sx - 1) best.sy) best.s (at' (best.sx + 1) best.sy)
          dy := 64 * best.sy + subPel (at' best.sx (best.sy - 1)) best.s (at' best.sx (best.sy + 1)) }

/-- Byte (x, l) of a patch of 128 pixels a line. -/
def patchAt (bs : List Byte) (x l : Nat) : Nat := (bs.getD (128 * l + x) 0).toNat

/-- WEB scale (R215). -/
def State.webScale (s : State) (scw : Int) : State :=
  if !(s.regime == 3 && s.flag Reg.fedCtrl_web_en) then s
  else
    let smax : Int := (s.fget Reg.fedWeb_smax : Nat)
    let raw := (s.rget Reg.fedWebScl).toInt - shrHalf (100 * scw) (s.fget Reg.fedWeb_kw)
    let scl := clampI (-smax) smax raw
    let held := raw != scl
    let s := s.rput Reg.fedWebScl (BitVec.ofInt 32 scl)
    let was := s.fed.sclHeld
    let s : State := { s with fed := { s.fed with sclHeld := held } }
    if held && !was then s.raiseLb 0xB00A .warn 0 (pfI 24 4 scl) else s

/-- A window comparison is done (R201, R202, R204, R215). -/
def State.chainDone (s : State) (w : Nat) (ref cur : Patch) (h : CorrHold) : State :=
  let e := cur.ent
  let bin := s.binned
  let expd : Option Int :=
    if e.exp ≠ 0 then some (e.exp : Nat)
    else match cur.trig with
      | .pb p d => (s.ringAt ((p : Int) - d)).map (fun a => s.ldI (a + 12) 4)
      | _ => none
  let r := compare (patchAt h.ref) (patchAt h.cur) 8 8 8 119 8 55 2 e.tmin e.qmin
  let t := r.t.map (fun t => min t (2 ^ 32 - 1))
  if r.status ≠ 0 then s.winInvalid w cur.first r.status r.q t
  else match expd with
    | none => s.winInvalid w cur.first 6 r.q t
    | some expd =>
      let se := rdiv ((expd - (cur.feed - ref.feed)) * (if bin then 384 else 768)) 127000
      if 256 < se.natAbs then s.winInvalid w cur.first 6 r.q t
      else
        let m : Int := if bin then 2 else 1
        let dx := m * r.dx
        let dy := m * (r.dy - se)
        let s := s.record (winRecord w) (s.capLine cur.first) dx dy 0 r.q t
        if !e.geom then s
        else
          let ng := (s.activeWins.filter (fun v => (s.wentry v).kind == 1 && (s.wentry v).geom)).length
          let s : State := { s with trk := { s.trk with acc := s.trk.acc + rdiv dx ng } }
          if expd = 0 then s
          else
            let scw := rdiv (rdiv (dy * 127000) 768 * 1000000) expd
            let s : State := { s with
              trk := { s.trk with
                sc := satInt 16 (s.trk.sc + (scw - s.trk.sc).fdiv (2 ^ s.fget Reg.trkCtrl_ks : Nat)) } }
            s.webScale scw

/-- Maximal runs of consecutive true positions: first and one past last. -/
def runsOf : Nat → Option Nat → List Bool → List (Nat × Nat)
  | i, open', [] => match open' with
    | some a => [(a, i)]
    | none => []
  | i, some a, b :: r => if b then runsOf (i + 1) (some a) r else (a, i) :: runsOf (i + 1) none r
  | i, none, b :: r => if b then runsOf (i + 1) (some i) r else runsOf (i + 1) none r

/-- A tick measurement (R203) on a patch: number of runs, and c1, c2 when there are two good ones. -/
def tickOf (p : Nat → Nat → Nat) (tdep : Nat) : Nat × Option (Int × Int) :=
  let r := (List.range 64).map (fun l => (List.range 128).foldl (fun a x => a + p x l) 0)
  let b := rdiv ((r.take 4 ++ r.drop 60).foldl (· + ·) 0 : Nat) 8
  let dep := r.map (fun (v : Nat) => (max (b - v) 0).toNat)
  let runs := runsOf 0 none (dep.map (fun d => decide (128 * tdep ≤ d)))
  let c (x : Nat × Nat) : Int :=
    let is := (List.range (x.2 - x.1)).map (x.1 + ·)
    let sum := is.foldl (fun a l => a + dep.getD l 0) 0
    let mom := is.foldl (fun a l => a + dep.getD l 0 * l) 0
    rdiv (64 * mom : Nat) sum + 32
  match runs with
  | [x, y] =>
    if x.1 ≤ 3 ∨ 60 < y.2 then (2, none) else (2, some (c x, c y))
  | _ => (runs.length, none)

/-- A tick measurement is done (R202 to R205). -/
def State.tickDone (s : State) (w : Nat) (cur : Patch) (h : CorrHold) : State :=
  let e := cur.ent
  let m : Int := if s.binned then 2 else 1
  let r := tickOf (patchAt h.cur) e.tmin
  let n := min 255 r.1
  match r.2 with
  | none => (s.winInvalid w cur.first 7 (some n) none).tickOver w cur.ent cur.trig cur.first none
  | some (c1, c2) =>
    let c1' := m * c1
    let c2' := m * c2
    let sv := m * (c2 - c1 - (e.exp % 65536 : Nat))
    let s := s.record (winRecord w) (s.capLine cur.first) (-32768) sv 0 (some n)
      (some (ofInt 16 c1' + 65536 * ofInt 16 c2'))
    s.tickOver w cur.ent cur.trig cur.first (some (rdiv (sv * 127000) 768, 64 * (s.capLine cur.first : Nat) + c1'))

/-- A couch comparison is done (R249); one of an attempt that a fallback ended leaves nothing. -/
def State.couchDone (s : State) (n : Nat) (h : CorrHold) : State :=
  let r := compare (patchAt h.ref) (patchAt h.cur) 4 2 4 123 2 5 1 (s.fget Reg.motCouchQ_tmin) (s.fget Reg.motCouchQ_qmin)
  let dy := if s.binned then 2 * r.dy else r.dy
  match s.mot.check with
  | none => s
  | some k =>
    if voidStrip ≤ n then s
    else
      let ok := r.status = 0
      let s := s.stripRecord n k (if ok then r.dx else -32768) (if ok then dy else -32768) r.status r.q
        (r.t.map (fun t => min t (2 ^ 32 - 1)))
      s.couchOne (if ok then some dy else none)

/-- Patches an item copies when an engine takes it (R199, R249): the strips in line order. -/
def State.corrCopy (s : State) (k : CorrKind) : List Byte × List Byte :=
  match k with
  | .chain w r c => (s.bytes (slotAddr w r.k) 0x2000, s.bytes (slotAddr w c.k) 0x2000)
  | .tick w c => ([], s.bytes (slotAddr w c.k) 0x2000)
  | .couch n =>
    let l0 := match s.mot.check with
      | some c => outLine s.binned c.line
      | none => 0
    let lines (re : Bool) := (List.range 8).flatMap (fun i => s.bytes (stripAddr n re (l0 + i)) 128)
    (lines false, lines true)

end Sys2Proof.Machine
end

