-- ==== Sys2Proof/Machine/MotOps.lean ====
section
/-!
DEFINITION. Shared operations of the motion island (chapter 9): the profile of R223, moves, move boundaries, stops, the
feed position, advances, the couch.
-/

namespace Sys2Proof.Machine

/-- One in 48 fractional bits (R222). -/
def one48 : Int := 2 ^ 48

def State.axis (s : State) (a : Nat) : Axis := tget (fun _ => Axis.init) s.mot.ax a

def State.setAxis (s : State) (a : Nat) (x : Axis) : State :=
  { s with mot := { s.mot with ax := tput (fun _ => Axis.init) s.mot.ax a x } }

/-- Position of an axis in microsteps (R222). -/
def State.axPos (s : State) (a : Nat) : Int := s.wget48 (Reg.motAxPos0 a)

def State.setAxPos (s : State) (a : Nat) (n : Int) : State := s.wput48 (Reg.motAxPos0 a) n

/-- The axis whose settings the profile of an axis uses: axis 0's for the feed pair (R237). -/
def settingsAxis (a : Nat) : Nat := if a = 1 then 0 else a

/-- VSTART of an axis as R222 converts it. -/
def State.vstOf (s : State) (a : Nat) : Int := rdiv ((s.fget (Reg.motAxVstart_vstart a) * 2 ^ 48 : Nat) : Int) (10 ^ 6)

/-- The converted settings of an axis (R222, R237). -/
def State.convert (s : State) (a : Nat) (x : Axis) : Axis :=
  let a := settingsAxis a
  let r (n d : Nat) : Int := rdiv ((n * 2 ^ 48 : Nat) : Int) (d : Int)
  let jerk := (s.rget (Reg.motAxJerk a)).toNat
  { x with
    vmax := r (s.fget (Reg.motAxSpeed_speed a)) (10 ^ 6), vst := s.vstOf a
    acc := max (r (s.rget (Reg.motAxAcc a)).toNat (10 ^ 12)) 1
    dec := max (r (s.rget (Reg.motAxDec a)).toNat (10 ^ 12)) 1
    j := if jerk = 0 then 0 else max (r jerk (10 ^ 18)) 1 }

/-- Stopping distance (R223). -/
def brake (v a dec j : Int) : Int :=
  if j = 0 then (v * v).fdiv (2 * dec)
  else
    let ve := if 0 < a then v + (a * a).fdiv (2 * j) else v
    (ve * ve).fdiv (2 * dec) + (ve * dec).fdiv (2 * j) + (if 0 < a then (ve * a).fdiv j else 0)

/-- One tick of a profile (R223): the axis after it, and whether the move has ended. -/
def Axis.tick (x : Axis) (vline : Int) : Axis × Bool :=
  let t := x.tgt * one48
  let rem : Int := ((t - x.p).natAbs : Nat)
  if rem ≤ max x.v x.vst then ({ x with p := t, v := 0, a := 0 }, true)
  else
    let vt := if 0 < vline then min x.vmax vline else x.vmax
    let bd := brake x.v x.a x.dec x.j
    let near := decide (rem ≤ bd + x.v)
    let braking := near || x.braking
    let goal : Int :=
      if near then -x.dec
      else if x.braking then 0
      else if vt < x.v then -x.dec
      else if x.v < vt then (if 0 < x.j ∧ vt - x.v ≤ (x.a * x.a).fdiv (2 * x.j) then 0 else x.acc)
      else 0
    let floor := if near then x.vst else vt
    let a := if x.j = 0 then goal else x.a + clampI (-x.j) x.j (goal - x.a)
    let v := x.v + a
    let v := if goal < 0 then max v floor else v
    let v := if 0 < goal ∨ (goal = 0 ∧ braking = false) then min v vt else v
    let a := if goal = 0 ∧ x.j = 0 then 0 else a
    let g : Goal := if 0 < goal then .accel else if goal = 0 then .const else .decel
    ({ x with p := if x.p ≤ t then x.p + v else x.p - v, v := v, a := a, braking := braking, goal := g }, false)

/-- Distance a braking axis still travels until it is down to VSTART (R227). -/
def stopDist (dec j vst : Int) : Nat → Int → Int → Int → Int
  | 0, _, _, d => d
  | n + 1, v, a, d =>
    let a := if j = 0 then -dec else a + clampI (-j) j (-dec - a)
    let v := max (v + a) vst
    if v ≤ vst then d + v else stopDist dec j vst n v a (d + v)

/-- Run-up distance from rest to a speed (R246): the profile of R223 without a target. -/
def runUp (vt acc j : Int) : Nat → Int → Int → Int → Int
  | 0, _, _, d => d
  | n + 1, v, a, d =>
    if vt ≤ v then d
    else
      let goal := if 0 < j ∧ vt - v ≤ (a * a).fdiv (2 * j) then 0 else acc
      let a := if j = 0 then goal else a + clampI (-j) j (goal - a)
      let v := min (v + a) vt
      runUp vt acc j n v a (d + v)

/-- Ticks a simulated profile may take (a bound that no profile within the registers' widths reaches). -/
def profileFuel : Nat := 2 ^ 48

/-- Quotient rounded up. -/
def ceilDivI (n d : Int) : Int := 0 - (0 - n).fdiv d

/-- Whole microsteps of a position on the way in a direction: those whose boundary has been crossed (R224). -/
def wholeSteps (p : Int) (up : Bool) : Int := if up then p.fdiv one48 else -((-p).fdiv one48)

/-- nm per microstep of an axis, Q16.16. -/
def State.axNm (s : State) (a : Nat) : Int := (s.rget (Reg.motAxNm a)).toNat

/-- Set F (R238), in units of 2^−32 nm. What F does past its signed 48 bits the spec leaves open: the model keeps the exact
integer, compares line positions with it, and shows its low 48 bits (DESIGN CHOICE, log entry 43; unsafe). -/
def State.setF (s : State) (f : Int) : State :=
  ({ s with mot := { s.mot with f := f } } : State).wput48 Reg.motFeedPos0 (f.fdiv (2 ^ 32))

/-- F in whole nm. -/
def State.feedNm (s : State) : Int := s.mot.f.fdiv (2 ^ 32)

/-- F moves with steps. -/
def State.setFMoved (s : State) (f : Int) : State :=
  let s := s.setF f
  { s with mot := { s.mot with jump := false } }

/-- F counts the steps of the feed pair (R238). -/
def State.feedSteps (s : State) : Bool := s.regime != 2 && s.feedQei.isNone

/-- F after progress of the two feed axes (R238). -/
def State.feedMoved (s : State) (d0 d1 : Int) : State :=
  if s.feedSteps then
    s.setFMoved (s.mot.f + rdiv ((d0 + d1) * s.axNm 0) (2 ^ 33))
  else match s.mot.adv with
    | some v =>
      let f :=
        if v.s0 ≠ 0 then v.f0 + rdiv (v.a * ((s.axis 0).p - v.p0 * one48)) (v.s0 * 2 ^ 16)
        else if v.s1 ≠ 0 then v.f0 + rdiv (v.a * ((s.axis 1).p - v.p1 * one48)) (v.s1 * 2 ^ 16)
        else s.mot.f
      s.setFMoved f
    | none => s

/-- A signed count of the QEI port that moves F (R238); a reserved port moves nothing (R375). -/
def State.feedCount (s : State) (n : Nat) (neg : Bool) : State :=
  if s.feedQei = some n ∧ s.owner 6 n ≠ 12 then
    let q : Int := (s.fget Reg.motFeedQnm_val : Nat)
    let scl : Int := if s.regime = 3 then s.fed.scl else 0
    let d := rdiv (q * 2 ^ 16 * (100000000 + scl)) 100000000
    s.setF (s.mot.f + if neg then -d else d)
  else s

/-- MB-class shadows of an axis pend and await an MB. -/
def State.mbPending (s : State) (a : Nat) : Bool := s.pend.any (fun p => p.isOf .mb a)

/-- Commit deferred words and shadows at rest, or at the MB that ends or starts a move (R228, R229, R15). -/
def State.mbCommit (s : State) (a : Nat) : State :=
  let x := s.axis a
  let s := x.defer.foldl (fun s d => match d.2 with
    | some w => s.rput d.1 (BitVec.ofNat 32 w)
    | none => s) s
  let s := (s.fput (Reg.motAxStat_defer a) 0).setAxis a { x with defer := [] }
  let s := s.boundary .mb a
  s.setAxis a (s.convert a (s.axis a))

/-- A shadow of a register that a boundary may take (R20). -/
def Shadow.free (p : Shadow) (addr : Nat) : Bool := p.addr == addr && !p.stuck

/-- Commit the shadow of one register only. -/
def State.commitOne (s : State) (addr : Nat) : State :=
  match s.pend.find? (fun p => p.free addr) with
  | some p =>
    ({ s with pend := s.pend.filter (fun q => !q.free addr) } : State).rput addr
      (BitVec.ofNat 32 (blend (s.rget addr).toNat p.mask p.val))
  | none => s

/-- Defer a shadow of DEC or JERK for the rest of the move (R229): `what` is 1 for DEC, 2 for JERK. -/
def State.deferOne (s : State) (a addr what : Nat) : State :=
  match s.pend.find? (fun p => p.free addr) with
  | some p =>
    let w := blend (s.rget addr).toNat p.mask p.val
    let s : State := { s with pend := s.pend.filter (fun q => !q.free addr) }
    let x := s.axis a
    let s := (s.setAxis a { x with defer := tput (fun _ => none) x.defer addr (some w) }).fput (Reg.motAxStat_defer a) 1
    s.raise 0xC002 .warn a (pf 22 1 what + pf 24 4 w)
  | none => s

/-- A shadow of the axis pends for this register. -/
def State.pends (s : State) (addr : Nat) : Bool := s.pend.any (fun p => p.free addr)

/-- A deferred word of a register is overtaken by a later one that applies (R229). -/
def State.undefer (s : State) (a addr : Nat) : State :=
  let x := s.axis a
  let d := tput (fun _ => none) x.defer addr none
  (s.setAxis a { x with defer := d }).fput (Reg.motAxStat_defer a) (b2n (d != []))

/-- The profile may take the settings `y` (R229): the axis stops within what remains. -/
def Axis.fits (x y : Axis) : Bool :=
  let rem : Int := ((x.tgt * one48 - x.p).natAbs : Nat)
  decide (brake x.v x.a y.dec y.j ≤ rem - x.v)

/-- A shadow of DEC or JERK at an MB within a move (R229): it applies when `free` says so or the stopping distance allows it,
else it is deferred. -/
def State.decOrJerk (s : State) (a addr what : Nat) (free : State → State → Bool) : State :=
  if !s.pends addr then s
  else
    let t := s.commitOne addr
    let t := t.setAxis a (t.convert a (t.axis a))
    if free s t || (s.axis a).fits (t.axis a) then t.undefer a addr else s.deferOne a addr what

/-- Commit within a move (R229, R237). The settings of axis 1 move nothing: while it follows axis 0 or moves alone, they
commit as they are, and its profile takes axis 0's settings in force as far as it can still stop. -/
def State.mbInMove (s : State) (a : Nat) : State :=
  if s.holds .mb a then s
  else
    let s := (s.commitOne (Reg.motAxSpeed a)).commitOne (Reg.motAxAcc a)
    if a = 1 then
      let s := (s.commitOne (Reg.motAxDec 1)).commitOne (Reg.motAxJerk 1)
      let x := s.axis 1
      let y := s.convert 1 x
      s.setAxis 1 (if x.dec ≤ y.dec ∧ x.j = y.j ∨ x.fits y = true then y else { y with dec := x.dec, j := x.j })
    else
      let s := s.setAxis a (s.convert a (s.axis a))
      let s := s.decOrJerk a (Reg.motAxDec a) 1
        (fun s t => decide ((s.rget (Reg.motAxDec a)).toNat ≤ (t.rget (Reg.motAxDec a)).toNat))
      s.decOrJerk a (Reg.motAxJerk a) 2 (fun s t => s.rget (Reg.motAxJerk a) == t.rget (Reg.motAxJerk a))

/-- The JB of a JOB_START at an axis (R13, R15, R17): it commits every pending MB-class setting, also of an axis that moves.
DEC and JERK of such an axis are still held to R229, so that it does not overshoot (DESIGN CHOICE, log entry 44). -/
def State.mbAtJob (s : State) (a : Nat) : State :=
  if s.holds .mb a then s
  else if (s.axis a).run.isSome || (decide (a = 1) && (s.axis 0).run.isSome) then
    ((s.mbInMove a).commitOne (Reg.motAxVstart a)).commitOne (Reg.motAxCur a)
  else s.mbCommit a

/-- Count an MB (R228). -/
def State.countMb (s : State) (a : Nat) : State := s.rput (Reg.motAxSeg a) (s.rget (Reg.motAxSeg a) + 1)

/-- An MB at a move's start or end (R228). -/
def State.mbEdge (s : State) (a : Nat) : State := (s.countMb a).mbCommit a

/-- Set the axis's bits of MOT_STAT.MOVING, and STATE (R254). -/
def State.setMoving (s : State) (a : Nat) (b : Bool) (st : Nat) : State :=
  (s.fput Reg.motStat_moving (putBit (s.fget Reg.motStat_moving) a b)).fput (Reg.motAxStat_state a) st

/-- The axis moves. -/
def State.moving (s : State) (a : Nat) : Bool := bitAt (s.fget Reg.motStat_moving) a

/-- The axes that move with axis `a`: both feed axes for axis 0 (R220, R237). -/
def together (a : Nat) : List Nat := if a = 0 then [0, 1] else [a]

/-- MOVE_DONE (R225, R253). -/
def State.moveDone (s : State) (a : Nat) (k : MoveKind) (code : Nat) : State :=
  match k with
  | .move true _ _ => s.raise 0xC001 .info a (pf 22 1 code + pfI 24 6 (s.axPos a))
  | _ => s

/-- Discard the queued move (R227, R234). -/
def State.dropQueued (s : State) (a : Nat) : State :=
  let x := s.axis a
  match x.queued with
  | some q =>
    ((s.setAxis a { x with queued := none, startNext := false }).fput (Reg.motAxStat_queued a) 0).moveDone a q.kind 3
  | none => s

/-- Current to RUN at a move's start (R230): whether it was at HOLD. -/
def State.runCurrent (s : State) (a : Nat) : Bool × State := (s.flag (Reg.motAxStat_hold a), s.fput (Reg.motAxStat_hold a) 0)

/-- The move in progress has ended (R228, R230): MB, current timer, MOVE_DONE. -/
def State.moveEnded (s : State) (a : Nat) (code : Nat) : State :=
  let x := s.axis a
  let k := x.run
  let s := s.each (together a) (fun b s =>
    let y := s.axis b
    let s := s.setAxis b { y with run := none, v := 0, a := 0, braking := false, delay := false }
    let s := (s.setMoving b false 0).mbEdge b
    s.fputB (Reg.motAxStat_hold b) (s.fget (Reg.motAxCur_hold_dly b) == 0))
  let s := s.setAxis a { s.axis a with startNext := (s.axis a).queued.isSome }
  match k with
  | some k => s.moveDone a k code
  | none => s

/-- The target of the running move of an axis (R223, R254). Axis 1, where it follows, has its own: in proportion 1, or in that
of the advance (R237). -/
def State.setTarget (s : State) (a : Nat) (tgt : Int) : State :=
  let s := (s.setAxis a { s.axis a with tgt := tgt }).wput48 (Reg.motAxTgt0 a) tgt
  if a = 0 then
    let x := s.axis 0
    let t1 := match x.run, s.mot.adv with
      | some .advance, some v => v.p1 + rdiv ((tgt - v.p0) * v.s1) v.s0
      | _, _ => tgt + ((s.axis 1).p - x.p).fdiv one48
    s.wput48 (Reg.motAxTgt0 1) t1
  else s

/-- Start a move (R223, R228, R230, R237). A move of distance 0 ends at once
(R224): its start and end are one MB. -/
def State.moveStart (s : State) (a : Nat) (k : MoveKind) (tgt : Int) : State :=
  let hold := (together a).any (fun b => s.flag (Reg.motAxStat_hold b))
  let here := (s.axis a).p.fdiv one48
  let s := s.each (together a) (fun b s =>
    let s := (s.fput (Reg.motAxStat_hold b) 0).setMoving b true 1
    if tgt = here then s else s.mbEdge b)
  let x := s.axis a
  let s := s.setAxis a { x with
    v := x.vst, a := 0, braking := false, goal := .accel, run := some k, fin := .target
    delay := hold, dir := if tgt = here then x.dir else decide (here < tgt) }
  let s := if a = 0 then s.setAxis 1 { s.axis 1 with dir := (s.axis 0).dir } else s
  let s := s.setTarget a tgt
  if tgt = here then s.moveEnded a 0 else s

/-- A move to a target, or queued behind the running one (R226). -/
def State.moveOrQueue (s : State) (a : Nat) (k : MoveKind) (tgt : Int) : State :=
  if s.moving a then
    (s.setAxis a { s.axis a with queued := some { kind := k, tgt := tgt } }).fput (Reg.motAxStat_queued a) 1
  else s.moveStart a k tgt

/-- HALT (R227). -/
def State.halt (s : State) (a : Nat) : State :=
  let s := s.dropQueued a
  let x := s.axis a
  if x.run.isNone then s
  else if x.delay then
    (s.setAxis a { x with fin := .halt, delay := false, braking := true }).setTarget a (x.p.fdiv one48)
  else
    let d := stopDist x.dec x.j x.vst profileFuel x.v x.a 0
    let tgt := if x.dir then -((-(x.p + d)).fdiv one48) else (x.p - d).fdiv one48
    let tgt := if x.dir then min tgt x.tgt else max tgt x.tgt
    (s.setAxis a { x with fin := .halt, braking := true }).setTarget a tgt

/-- Position from an encoder word (R233). -/
def State.encPos (s : State) (a w : Nat) : Int :=
  rdiv ((w : Int) * (s.rget (Reg.motAxEncK a)).toInt) (2 ^ 16) + (s.rget (Reg.motAxEncOfs a)).toInt

/-- Set an axis's position as referenced (R233). -/
def State.setPosition (s : State) (a : Nat) (pos : Int) : State :=
  let s := (s.setAxPos a pos).setAxis a { s.axis a with p := pos * one48, encBy := none }
  (s.fput (Reg.motAxStat_ref a) 1).fput (Reg.motAxStat_unc a) 0

/-- An axis whose encoder read waits takes its port's first valid word (R234). -/
def State.posRestore (s : State) (port : Nat) : State :=
  s.each (List.range 8) (fun a s =>
    match (s.axis a).encBy with
    | none => s
    | some t =>
      if s.fget (Reg.motAxEnc_port a) ≠ port ∨ s.flag (Reg.motAxEnc_en a) = false then s
      else if t < s.sys.now then s.setAxis a { s.axis a with encBy := none }
      else
        let old := s.axPos a
        let pos := s.encPos a (s.rget (Reg.posAbsWord port 0)).toNat
        let s := s.setAxis a { s.axis a with encBy := none, p := pos * one48 }
        ((s.setAxPos a pos).fput (Reg.motAxStat_unc a) 0).raise 0xC005 .info a (pfI 24 6 pos + pfI 30 2 (satInt 16 (pos - old))))

/-- The position has become uncertain in a stop (R234); an axis with an absolute encoder waits for a word. -/
def State.posUncertain (s : State) (a : Nat) : State :=
  let s := (s.fput (Reg.motAxStat_unc a) 1).raise 0xC004 .warn a (pfI 24 6 (s.axPos a))
  if s.flag (Reg.motAxEnc_en a) then s.setAxis a { s.axis a with encBy := some (s.sys.now + 1000000) } else s

/-- The positions of several axes have become uncertain in one cycle: each port they use gets one trigger (R234,
R262). -/
def State.posUncertains (s : State) (l : List Nat) : State :=
  let ports := (List.range 4).filter (fun n =>
    l.any (fun a => s.flag (Reg.motAxEnc_en a) && s.fget (Reg.motAxEnc_port a) == n))
  (s.each l (fun a s => s.posUncertain a)).each ports (fun n s => s.absTrigger n)

/-- Immediate stop of a set of axes (R234); `st` is the STATE they show. A feed axis that follows the other stops with
it. `also` are axes at rest whose position becomes uncertain in the same cycle. -/
def State.stopAxesAnd (s : State) (l : List Nat) (st : Nat) (also : List Nat) : State :=
  let pair := s.moving 0 || s.moving 1
  let l := if pair && (l.contains 0 || l.contains 1) then
      [0, 1] ++ l.filter (fun a => decide (2 ≤ a)) else l
  let lead (a : Nat) : Nat := if s.moving 0 && a = 1 then 0 else a
  -- progress past the last step edge is discarded, in F too
  let trusted := (List.range 8).filter (fun a => decide ((s.axis (lead a)).v ≤ (s.axis (lead a)).vst))
  let was := (List.range 8).filter s.moving
  let frac (a : Nat) : Int := (s.axPos a) * one48 - (s.axis a).p
  let d0 := if l.contains 0 then frac 0 else 0
  let d1 := if l.contains 1 then frac 1 else 0
  let s := s.each l (fun a s => s.setAxis a { s.axis a with p := s.axPos a * one48 })
  let s := if d0 = 0 ∧ d1 = 0 then s else s.feedMoved d0 d1
  let s := s.each l (fun a s =>
    let s := s.dropQueued a
    if !s.moving a then s.fput (Reg.motAxStat_state a) (if s.fget (Reg.motAxStat_state a) = 5 then 5 else st)
    else
      let x := s.axis a
      let s := s.setAxis a { x with run := none, v := 0, a := 0, braking := false, delay := false }
      let s := ((s.setMoving a false st).mbEdge a).fputB (Reg.motAxStat_hold a) (s.fget (Reg.motAxCur_hold_dly a) == 0)
      match x.run with
      | some k => s.moveDone a k 2
      | none => s)
  s.posUncertains (l.filter (fun a => was.contains a && !trusted.contains a) ++ also)

/-- Immediate stop of a set of axes (R234). -/
def State.stopAxes (s : State) (l : List Nat) (st : Nat) : State := s.stopAxesAnd l st []

/-- What pends when SAFE ends a job stays pending until the next JOB_START (R20): the MB-class shadows, and deferred words
(R229) as shadows, unless a later one pends for their register. -/
def State.mbStick (s : State) : State :=
  let defer := (List.range 8).flatMap (fun a => (s.axis a).defer.filterMap (fun d => match d.2 with
    | some w =>
      if s.pend.any (fun p => p.addr == d.1) then none
      else some ({ cls := .mb, axis := a, addr := d.1, mask := 2 ^ 32 - 1, val := w, stuck := true } : Shadow)
    | none => none))
  let s : State := { s with pend := s.pend.map (fun p => { p with stuck := true }) ++ defer }
  s.each (List.range 8) (fun a s => (s.setAxis a { s.axis a with defer := [] }).fput (Reg.motAxStat_defer a) 0)

/-- Is a phase restoration of an axis in progress? -/
def State.restoring (s : State) (a : Nat) : Bool :=
  match (s.axis a).restore with
  | some .seek | some (.step _ _) => true
  | _ => false

/-- A phase restoration in progress ends in SAFE without its corrective steps (R36). -/
def State.restoreStop (s : State) (a : Nat) : State :=
  (s.setAxis a { s.axis a with restore := none }).fput (Reg.motAxStat_state a) 0

/-- Stop of the motion outputs in SAFE (R36, R37): steps stop at once, the current drops to HOLD. No shadow commits when a
job ends by it (R20). -/
def State.motionSafe (s : State) : State :=
  let s := if s.running then s.mbStick else s
  -- a rotor whose restoration ends is not where POS says (DESIGN CHOICE, log entry 45)
  let cut := [0, 1].filter s.restoring
  let s := (s.each cut (fun a s => s.restoreStop a)).stopAxesAnd (List.range 8) 0 cut
  s.each (List.range 8) (fun a s => s.fput (Reg.motAxStat_hold a) 1)

/-- vline as computed (R240). -/
def State.vlineOf (s : State) : Nat :=
  let tl := s.seq.phases * s.seq.period * 10
  let d := 12 * tl * (s.rget (Reg.motAxNm 0)).toNat * 1024
  if d = 0 then 0 else 127000 * 65536 * 10 ^ 9 * 1023 / d

/-- MOT_VLINE shows the low 23 bits of vline (R240, R254). -/
def State.updateVline (s : State) : State := s.fput Reg.motVline_vline (s.vlineOf % 2 ^ 23)

/-- The speed limit of the profile for a kind of move (R240): the whole value, which nothing changes in a job but a fallback. -/
def State.vlineFor (s : State) (k : MoveKind) : Int :=
  match k with
  | .forward | .advance => rdiv ((s.vlineOf * 2 ^ 48 : Nat) : Int) (10 ^ 6)
  | _ => 0

/-- Run-up distance U in nm (R246). -/
def State.runUpNm (s : State) : Int :=
  let x := s.convert 0 (s.axis 0)
  let vl := s.vlineFor .forward
  let vt := if 0 < vl then min x.vmax vl else x.vmax
  rdiv (runUp vt x.acc x.j profileFuel x.vst 0 0 * s.axNm 0) (2 ^ 64)

/-- Position of line n (R239). -/
def State.linePos (s : State) (n : Nat) : Int := s.mot.p0 + rdiv ((n : Int) * 127000) 12

/-- A target beyond reach (R245). -/
def beyondReach : Int := 2 ^ 47 - 1

/-- Couch step shown (R246, R254). -/
def State.couchStep (s : State) : Nat := s.fget Reg.motStat_couch

def State.setCouchStep (s : State) (k : Nat) : State := s.fput Reg.motStat_couch k

/-- Captured lines of the overlap (R246, R247). -/
def State.overlapLines (s : State) : Nat := if s.binned then 16 else 8

/-- Back distance of a couch in microsteps of axis 0 (R246). -/
def State.couchBack (s : State) (c : Couch) : Int :=
  let b : Int := (s.feedNm - c.pc) + rdiv ((s.overlapLines : Int) * 127000) 12 + s.runUpNm +
    s.fget Reg.motCouchMargin_margin + s.fget Reg.motCouchBacklash_backlash
  ceilDivI (b * 65536) (s.axNm 0)

/-- The pair has come to rest in a couch (R246): step 3, and the back distance is fixed. -/
def State.couchRest (s : State) : State :=
  ({ s with mot := { s.mot with couch := s.mot.couch.map (fun c => { c with back := s.couchBack c }) } } : State).setCouchStep 3

/-- No line has re-captured anything yet (R248): the copies of an earlier couch, or of an attempt that a fallback ended, are
void. -/
def State.couchFresh (s : State) : State :=
  { s with mot := { s.mot with strip := s.mot.strip.filter (fun e => e.1 / 8 % 2 == 0) } }

/-- Overlap lines of the pool are given up with all it holds of them (R246, R247). -/
def State.dropOverlap (s : State) : State :=
  (s.pxe.lines.filter (fun p => isOverlap p.n)).foldl (fun s p => s.discardLine p.n) s

/-- A trigger held for a line that has not started is given back. -/
def State.giveBack (s : State) : State :=
  match s.seq.held with
  | some h => if s.seq.next = h.1 + 1 then { s with seq := { s.seq with held := none, next := h.1 } } else s
  | none => s

/-- The seam check goes on past a job's end or the next JB while a line's commit waits for its verdict (R250). -/
def State.checkKept (s : State) : Option CouchCheck := if s.lff.resv.any (·.wait) then s.mot.check else none

/-- A new couch (R246): N is the last line started; it falls between output lines (R127). -/
def State.couchNew (s : State) (cause : Nat) : State :=
  if s.giveBack.seq.next = 0 then s
  else
    let s := s.couchFresh.giveBack
    let n := s.seq.next - 1
    let n := if s.binned && n % 2 == 0 then n + 1 else n
    let s : State := { s with
      mot := { s.mot with
        couch := some { n := n, pc := s.linePos (n + 1), back := 0, backDone := false, overlap := 0 } } }
    ((s.setCouchStep 1).bump Reg.motCouchCnt_couches 1).raiseAt 0xC00B .info 0 n (pf 22 1 cause)

/-- A fallback that arises at step 6 or 7 (R246): the pair halts again and the couch goes on from step 2. A trigger held for
line N + 1 is given back, comparisons of this attempt leave the queue, and those that engines hold will count for nothing. -/
def State.couchAgain (s : State) (c : Couch) : State :=
  let s := s.dropOverlap.couchFresh.giveBack
  let s : State := { s with
    mot := { s.mot with couch := some { c with backDone := false, overlap := 0 }, check := none }
    seq := { s.seq with held := none }
    trk := { s.trk with
      queue := s.trk.queue.filter (fun i => !i.isCouch)
      hold := s.trk.hold.map (fun e => (e.1, e.2.map (fun h => { h with item := h.item.void }))) } }
  (s.halt 0).setCouchStep 2

/-- A couch begins (R246): cause 1 high mark, 2 fallback. A cause while one runs joins it. -/
def State.couchStart (s : State) (cause : Nat) : State :=
  if s.regime ≠ 1 ∨ s.running = false ∨ s.mot.stopping.isSome = true then s
  else match s.mot.couch with
    | some c => if cause = 2 ∧ 6 ≤ s.couchStep then s.couchAgain c else s
    | none => s.couchNew cause

/-- The motion island accepts an advance (R207, R242, R243). -/
def State.acceptAdvance (s : State) (pass : Nat) (a : Int) : State :=
  let r := s.feedCorrect pass a
  let s := r.2.2
  let t0 := r.1 * 65536 + s.mot.rem0
  let t1 := r.2.1 * 65536 + s.mot.rem1
  let s0 := t0.fdiv (s.axNm 0)
  let s1 := t1.fdiv (s.axNm 1)
  let adv : Adv :=
    { pass := pass, a := a, s0 := s0, s1 := s1, p0 := (s.axis 0).p.fdiv one48, p1 := (s.axis 1).p.fdiv one48
      f0 := s.mot.f, settling := false }
  let s : State := { s with
    mot := { s.mot with rem0 := t0 - s0 * s.axNm 0, rem1 := t1 - s1 * s.axNm 1, adv := some adv, held := none } }
  let s := ((s.rput Reg.motPass (BitVec.ofNat 32 pass)).fput Reg.motStat_adv_run 1).fput Reg.motStat_adv_held 0
  if s0 ≠ 0 then s.moveStart 0 .advance (adv.p0 + s0)
  else if s1 ≠ 0 then s.moveStart 1 .advance (adv.p1 + s1)
  else
    let s := s.setF (s.mot.f + a * 2 ^ 32)
    { s with mot := { s.mot with adv := some { adv with settling := true }, jump := true } }

/-- Least time in ns between two steps of an axis (R221). -/
def State.stepGap (s : State) (a : Nat) : Nat := max 200 (10 * s.fget (Reg.motAxPulse_step_w a))

/-- Emit up to `n` steps in a tick (R224): step i comes at its ideal instant, or when the rate allows it if that is later.
Answers the number emitted and the time from which on the next may come. -/
def emitUpTo (gap : Nat) (ideal : Nat → Nat) : Nat → Nat → Nat → Nat × Nat
  | 0, i, wait => (i, wait)
  | n + 1, i, wait =>
    let t := max (ideal i) wait
    if 1000 < t then (i, wait) else emitUpTo gap ideal n (i + 1) (t + gap)

/-- The instant within a tick, in ns on the 5 ns grid, at which p crosses the boundary of microstep `b` on its way from `p0`
to `p1` (R224); 0 when it was crossed before. -/
def crossTime (p0 p1 b : Int) : Nat :=
  let way := (b * one48 - p0) * (if p0 ≤ p1 then 1 else -1)
  if way ≤ 0 ∨ p0 = p1 then 0 else 5 * (ceilDivI (200 * way) ((p1 - p0).natAbs : Nat)).toNat

/-- Steps of an axis that its profile has crossed and that are still to be emitted (R224). -/
def State.owed (s : State) (a : Nat) : Int := wholeSteps (s.axis a).p (s.axis a).dir - s.axPos a

/-- Steps of an axis are emitted in a tick in which p came from `p0` (R224): its position register counts them, the phase
follows (R232); a step that would come sooner than the highest step rate allows is delayed. -/
def State.emitSteps (s : State) (a : Nat) (p0 : Int) : State :=
  let x := s.axis a
  let owed := s.owed a
  let sg : Int := if 0 ≤ owed then 1 else -1
  let n := s.axPos a
  let r := emitUpTo (s.stepGap a) (fun i => crossTime p0 x.p (n + sg * ((i : Int) + 1))) owed.natAbs 0 x.wait
  let d := sg * r.1
  let s := (s.setAxis a { x with wait := r.2 }).setAxPos a (n + d)
  if a < 2 then s.fput (Reg.motAxPhase_ph a) (((s.fget (Reg.motAxPhase_ph a) : Int) + d) % 1024).toNat else s

/-- STATE of a moving axis (R254). -/
def Axis.stateCode (x : Axis) : Nat :=
  if x.braking then 4 else match x.goal with
    | .accel => 1
    | .const => 2
    | .decel => 3

/-- What follows when the profile of an axis has ended (R226, R244, R246). -/
def State.profileEnded (s : State) (a : Nat) : State :=
  let x := s.axis a
  let k := x.run
  let code := if x.fin = .halt then 1 else 0
  let s := s.moveEnded a code
  match k with
  | some .advance =>
    match s.mot.adv with
    | some v => { s with mot := { s.mot with adv := some { v with settling := true } } }
    | none => s
  | some .forward => if s.couchStep = 2 then s.couchRest else s
  | some .couchBack =>
    match s.mot.couch with
    | some c =>
      if s.couchStep = 2 then s.couchRest
      else { s with mot := { s.mot with couch := some { c with backDone := true } } }
    | none => s
  | _ => s

/-- An MB within a move (R228): counted, and it commits (R229). -/
def State.mbWithin (s : State) (a : Nat) : State := (s.countMb a).mbInMove a

/-- Axis 1 follows axis 0 (R237) from its position `p` to `p + d` of axis 0: in proportion 1, or in that of the advance. -/
def State.follow (s : State) (k : MoveKind) (p d : Int) : Int :=
  match k, s.mot.adv with
  | .advance, some v => v.p1 * one48 + rdiv ((p + d - v.p0 * one48) * v.s1) v.s0
  | _, _ => (s.axis 1).p + d

/-- The profile of an axis has moved on from `p0` (R224, R237, R238): steps, the axis that follows, F. -/
def State.stepped (s : State) (a : Nat) (k : MoveKind) (p0 : Int) : State :=
  let d := (s.axis a).p - p0
  let s := s.emitSteps a p0
  if a = 0 then
    let z := s.axis 1
    let p1 := s.follow k p0 d
    let s := (s.setAxis 1 { z with p := p1, dir := if p1 = z.p then z.dir else decide (z.p < p1) }).emitSteps 1 z.p
    s.feedMoved d (p1 - z.p)
  else if a = 1 then s.feedMoved 0 d
  else s

/-- One profile tick of a moving axis (R223, R224, R228, R237, R238). An axis of the pair has an MB of its own when one of its
shadows was written. -/
def State.axisTick (s : State) (a : Nat) : State :=
  let x := s.axis a
  let wrote := (together a).filter (fun b => (s.axis b).wrote && !s.holds .mb b)
  match x.run with
  | none => s
  | some k =>
    if x.delay then s.each wrote (fun b s => s.mbWithin b)
    else
      let r := x.tick (s.vlineFor k)
      let y := r.1
      let s := (s.setAxis a y).stepped a k x.p
      if r.2 then s.profileEnded a
      else
        let s := s.each (together a) (fun b s => s.fput (Reg.motAxStat_state b) y.stateCode)
        s.each (if y.goal ≠ x.goal then together a else wrote) (fun b s => s.mbWithin b)

/-- One tick of phase restoration (R232): corrective steps at VSTART. -/
def State.restoreTick (s : State) (a : Nat) : State :=
  let x := s.axis a
  match x.restore with
  | some (.step left frac) =>
    let f := frac + (s.vstOf a).toNat
    let n := min (f / 2 ^ 48) left.natAbs
    let d : Int := if 0 ≤ left then n else -(n : Int)
    let s := s.fput (Reg.motAxPhase_ph a) (((s.fget (Reg.motAxPhase_ph a) : Int) + d) % 1024).toNat
    let left := left - d
    s.setAxis a { x with restore := some (if left = 0 then .done else .step left (f % 2 ^ 48)) }
  | _ => s

/-- The couch's part of a profile tick (R246): the pair halts in the tick after the decision. -/
def State.couchTick (s : State) : State :=
  if s.couchStep = 1 then
    let s := s.setCouchStep 2
    if s.moving 0 then s.halt 0 else s.couchRest
  else s

/-- One axis in a profile tick (R223, R226, R15): a queued move starts, or the profile goes on; corrective steps; steps still
owed at rest; settings that pend at rest. -/
def State.axisRound (s : State) (a : Nat) : State :=
  let x := s.axis a
  let s :=
    match x.startNext, x.queued with
    | true, some q =>
      ((s.setAxis a { x with queued := none, startNext := false }).fput (Reg.motAxStat_queued a) 0).moveStart a q.kind q.tgt
    | _, _ => s.axisTick a
  let s := s.restoreTick a
  let s := if !s.moving a && s.owed a != 0 then s.emitSteps a (s.axis a).p else s
  if !s.moving a && (s.axis a).queued.isNone && s.mbPending a && !s.holds .mb a then s.mbCommit a else s

/-- The tick is over for an axis: later shadow writes count for the next one, and 1 µs has passed. -/
def State.axisRest (s : State) (a : Nat) : State :=
  s.setAxis a { s.axis a with wrote := false, wait := (s.axis a).wait - 1000 }

/-- A profile tick for every axis (R223, R226, R15). -/
def State.profileTick (s : State) : State :=
  (s.couchTick.each (List.range 8) (fun a s => s.axisRound a)).each (List.range 8) (fun a s => s.axisRest a)

/-- FEED_STOPPED (R236, R253). -/
def State.feedStopped (s : State) (a cause : Nat) : State := s.raise 0xC008 .fault a (pf 22 1 cause)

/-- PH_SAVE and the loss of references when EN_a falls (R231, R232). -/
def State.enableFalls (s : State) (a : Nat) : State :=
  if a < 2 then s.fput (Reg.motAxPhase_ph_save a) (s.fget (Reg.motAxPhase_ph a))
  else (s.fput (Reg.motAxStat_ref a) 0).fput (Reg.motAxStat_unc a) 1

end Sys2Proof.Machine
end

