-- ==== Sys2Proof/Machine/ShdOps.lean ====
section
/-!
DEFINITION. Shared operations of the shading block (chapter 6): bank states, selection, host-supplied tables, the
arithmetic of a calibration, margin drift.
-/

namespace Sys2Proof.Machine

/-- Header byte 0x02 of a bank: bit 0 BINNED, bit 1 VALID (R129, R145). -/
def State.bankMode (s : State) (b : Nat) : Nat := s.ld (bankBase b + 0x780002) 1

def State.bankValid (s : State) (b : Nat) : Bool := bitAt (s.bankMode b) 1

def State.setValid (s : State) (b : Nat) (v : Bool) : State :=
  s.st (bankBase b + 0x780002) 1 (putBit (s.bankMode b) 1 v)

def bankBadFld (b : Nat) : Fld := ⟨Reg.shdBankStat, 4 * b + 3, 1⟩

def State.bankBad (s : State) (b : Nat) : Bool := s.flag (bankBadFld b)

/-- Bank named by a pending selection (R146). -/
def State.bankPend (s : State) : Option Nat :=
  match s.pend.find? (fun p => p.addr == Reg.shdBank) with
  | some p => some (p.val % 2)
  | none => none

/-- A calibration, check or memory test of the bank runs (R147). -/
def State.bankOp (s : State) (b : Nat) : Bool :=
  (match s.shd.cal with
    | some c => c.target == b
    | none => false) || s.shd.check.contains b || s.shd.mbist.contains b

/-- The bank is BUSY (R147). -/
def State.bankBusy (s : State) (b : Nat) : Bool := s.bankOp b || tget (fun _ => 0) s.shd.users b != 0

/-- Colour code of plane `k` of a bank (R129). -/
def State.bankColour (s : State) (b k : Nat) : Nat := s.ld (bankBase b + 0x780004 + k) 1

/-- The bank matches exported phases 0 to c − 1 (R129). -/
def State.bankMatches (s : State) (b : Nat) (bin : Bool) (colours : List Nat) : Bool :=
  bitAt (s.bankMode b) 0 == bin && (List.range colours.length).all (fun k => s.bankColour b k == colours.getD k 0)

/-- Colours of the exported phases. -/
def State.colours (s : State) : List Nat := (List.range s.colourPhases).map s.colour

/-- Refusal reason of a bank selection, 0 when it is accepted (R146, R431). -/
def State.selectReason (s : State) (b : Nat) : Nat :=
  if b = s.fget Reg.shdBank_sel then 0
  else if !s.bankValid b || s.bankBad b then 5
  else if s.bankBusy b then 3
  else if s.running && !s.bankMatches b s.binned s.colours then 5
  else 0

/-- An accepted selection (R146): a pending shadow; naming the bank in force withdraws a pending one. -/
def State.selectBank (s : State) (b : Nat) : State :=
  let s := { s with pend := s.pend.filter (fun p => p.addr != Reg.shdBank) }
  if b = s.fget Reg.shdBank_sel then s else s.shadow .lb 0 Reg.shdBank 1 b

/-- A line still being worked on uses the bank, so it is not yet writable (R19). -/
def State.bankHeld (s : State) (b : Nat) : Bool :=
  s.pxe.lines.any (fun p => p.cfg.bank == b) ||
    s.lff.resv.any (fun r => match r.kind with
      | .line _ => r.cfg.bank == b
      | .mark _ => false)

/-- The same for a linearity set (R130). -/
def State.linHeld (s : State) (l : Nat) : Bool :=
  s.pxe.lines.any (fun p => p.cfg.lin == l) ||
    s.lff.resv.any (fun r => match r.kind with
      | .line _ => r.cfg.lin == l
      | .mark _ => false)

/-- The first write of any kind to a bank clears VALID (R145). -/
def State.bankWritten (s : State) (b : Nat) : State := if s.bankValid b then s.setValid b false else s

/-- Replace `n` bytes of memory at `a` by cells given at rising addresses in that range. -/
def State.region (s : State) (a n : Nat) (cells : List Host.Cell) : State :=
  { s with
    mem := s.mem.filter (fun c => decide (c.1 < a)) ++ cells ++ s.mem.filter (fun c => decide (a + n ≤ c.1)) }

/-- Copy `n` bytes of memory (R151). -/
def State.copyRegion (s : State) (src dst n : Nat) : State :=
  s.region dst n ((s.mem.filter (fun c => decide (src ≤ c.1) && decide (c.1 < src + n))).map
    (fun c => (c.1 - src + dst, c.2)))

/-- CRC of a bank (R148): entries of every plane in use, then header bytes 0x00 to 0x8F with VALID taken as 0. -/
def State.bankCrc (s : State) (b : Nat) : Nat :=
  let planes := (List.range 4).filter (fun k => s.bankColour b k != 0xFF)
  let h := s.bytes (bankBase b + 0x780000) 0x90
  let h := h.take 2 ++ [BitVec.ofNat 8 (putBit (s.bankMode b) 1 false)] ++ h.drop 3
  crc32c (planes.flatMap (fun k => s.bytes (entryAddr b k 0) (6 * 327680)) ++ h)

/-- An entry passes the check of host-supplied tables (R161). -/
def State.entryOk (s : State) (b k x : Nat) : Bool :=
  let e := s.entry b k x
  decide (s.fgetI Reg.shdLimDark0_dark_min ≤ e.dark ∧ e.dark ≤ s.fgetI Reg.shdLimDark0_dark_max ∧
    s.fget Reg.shdLimGain0_gain_min ≤ e.gain ∧ e.gain ≤ s.fget Reg.shdLimGain0_gain_max) && !bitAt e.flags 7

/-- Result of a check (R161): number of failing items and bank offset of the first. -/
def State.checkBank (s : State) (b : Nat) : Nat × Nat :=
  let h := bankBase b + 0x780000
  let cols := (List.range 4).map (s.bankColour b)
  let headOk := s.ld h 2 == 1 && cols.all (fun c => decide (c ≤ 4) || c == 0xFF) && cols.any (· != 0xFF)
  let bad := ((List.range 4).filter (fun k => s.bankColour b k != 0xFF)).flatMap (fun k =>
    ((List.range 327680).filter (fun x => !s.entryOk b k x)).map (fun x => 6 * (327680 * k + x)))
  let crcOk := s.ld (h + 0x90) 4 == s.bankCrc b
  let items := bad ++ (if !headOk then [0x780000] else if !crcOk then [0x780090] else [])
  (items.length, items.headD 0xFFFFFF)

/-- Set VALID with its time (R148). -/
def State.validate (s : State) (b source : Nat) : State :=
  let h := bankBase b + 0x780000
  ((s.st (h + 0x94) 1 source).st (h + 0x98) 8 s.sys.now).setValid b true

/-- A check ends (R161). -/
def State.checkEnd (s : State) (b : Nat) : State :=
  let r := s.checkBank b
  let s := (s.fput Reg.shdCheck0_failing r.1).fput Reg.shdCheck1_first r.2
  let s := { s with shd := { s.shd with check := s.shd.check.filter (· != b) } }
  if r.1 = 0 then (s.validate b 2).raise 0x8004 .info b 0
  else s.raise 0x8005 .warn b (pf 24 4 r.1 + pf 28 4 r.2)

/-- Reason a check or memory test of bank `b` is refused, 0 for none (R431). -/
def State.bankTestReason (s : State) (b : Nat) (check : Bool) : Nat :=
  if b = s.fget Reg.shdBank_sel ∨ s.bankPend = some b ∨ s.bankBusy b then 4
  else if check && s.bankBad b then 5 else 0

/-- Address of a drift record (R158). -/
def driftAddr (z k : Nat) : Nat := 0x15540000 + 16 * (4 * z + k)

def State.showDrift (s : State) (z k : Nat) (d : Int) : State :=
  s.fput ⟨Reg.shdZoneDrift z, 8 * k, 8⟩ (ofInt 8 (clampI (-127) 127 d))

/-- Reset a zone's drift records (R164). -/
def State.driftReset (s : State) (z : Nat) : State :=
  s.each (List.range 4) (fun k s =>
    let s := (s.st (driftAddr z k) 4 0).showDrift z k 0
    { s with shd := { s.shd with driftHigh := tput (fun _ => false) s.shd.driftHigh (4 * z + k) false } })

/-- One zone-phase record is updated from a committed line (R163, R165). -/
def State.driftUpdate (s : State) (z k sum count : Nat) : State :=
  let a := driftAddr z k
  let kd := s.fget Reg.shdDriftCtrl_kd
  let mz := rdiv sum count
  let n := min (s.ld a 4 + 1) 0xFFFFFFFF
  let acc : Int := if n = 1 then 0 else s.ld (a + 4) 4
  let avg : Int := s.ld (a + 8) 4
  let acc' := if n ≤ 2 ^ kd then acc + mz else acc
  let avg' := if n ≤ 2 ^ kd then rdiv (acc' * 256) n else avg + (mz * 256 - avg).fdiv (2 ^ kd : Nat)
  let ref : Int := if n = 2 ^ kd then avg' else s.ld (a + 12) 4
  let drift : Int := if n < 2 ^ kd ∨ ref = 0 then 0 else rdiv (1000 * (avg' - ref)) ref
  let s := s.store a (leBytes 4 n ++ leBytes 4 (ofInt 32 acc') ++ leBytes 4 (ofInt 32 avg') ++ leBytes 4 (ofInt 32 ref))
  let s := s.showDrift z k drift
  let lim := s.fget Reg.shdDriftCtrl_drift_lim
  let high := tget (fun _ => false) s.shd.driftHigh (4 * z + k)
  let sd := ofInt 8 (clampI (-127) 127 drift)
  let mark (s : State) (b : Bool) : State :=
    { s with shd := { s.shd with driftHigh := tput (fun _ => false) s.shd.driftHigh (4 * z + k) b } }
  if !high && decide (drift.natAbs > lim) then (mark s true).raise 0x8007 .warn z (pf 22 1 k + pf 23 1 sd)
  else if high && decide (2 * drift.natAbs ≤ lim) then (mark s false).raise 0x8008 .info z (pf 22 1 k + pf 23 1 sd)
  else s

/-- The drift records of a committed line (R163). -/
def State.driftCommit (s : State) (r : Resv) : State :=
  if s.flag Reg.shdCtrl_drift_en && r.cfg.gate then
    r.drift.foldl (fun s e => if e.2.2 = 0 then s else s.driftUpdate (e.1 / 4) (e.1 % 4) e.2.1 e.2.2) s
  else s

/-- After a commit of LB- or JB-class settings: records reset by a changed bank selection or window (R164). -/
def State.driftAfterCommit (s : State) (bankBefore : Nat) (winBefore : List Nat) : State :=
  if s.fget Reg.shdBank_sel ≠ bankBefore then s.each (List.range 64) (fun z s => s.driftReset z)
  else
    s.each ((List.range 64).filter (fun z => (s.rget (Reg.shdZoneWin z)).toNat != winBefore.getD z 0))
      (fun z s => s.driftReset z)

/-- Key of a tap-phase. -/
def tpKey (seg t k : Nat) : Nat := 16 * seg + 4 * t + k

/-- Address of an accumulator (R158). -/
def calAcc (k x : Nat) : Nat := 0x15280000 + 0x140000 * (k % 2) + 4 * x

/-- Addresses in the calibration scratch of a tap-phase's count of counted readouts and of its gbar sum (R158); the place of
each within the scratch is the model's (DESIGN CHOICE, log entry 59). -/
def calCount (key : Nat) : Nat := 0x15500000 + 4 * key
def calSum (key : Nat) : Nat := 0x15501000 + 8 * key

/-- The staging unit of a calibration's readout (R158): a segment's in two consecutive phases differ (DESIGN CHOICE, log entry
59). -/
def calUnit (seg k : Nat) : Nat := 64 * (k % 2) + seg

def State.setCal (s : State) (c : Option Cal) : State := { s with shd := { s.shd with cal := c } }

/-- Passes of each kind (R152). -/
def State.calPasses (s : State) : Nat := (s.colourPhases + 1) / 2

/-- Warm-up lines of a pass (R152, R156). -/
def Cal.warm (c : Cal) : Nat := if c.step = .verify then 0 else 16

/-- A tap-phase is excluded (R152). -/
def State.calExcluded (s : State) (seg t k : Nat) : Bool :=
  !s.segEn seg || !s.segPresent seg || decide (2 ≤ s.fget (Reg.vfeTapTrain_result seg t)) ||
    (s.serving seg (2 * t)).isNone || (s.serving seg (2 * t + 1)).isNone ||
    (if s.zoneState seg = 2 then bitAt (s.fget (Reg.lmpZoneStat_dark seg)) k else (s.tint seg k).2)

/-- Tap-phases of the pass. -/
def State.passTapPhases (s : State) (c : Cal) : List (Nat × Nat × Nat) :=
  (((List.range 2).map (2 * c.pass + ·)).filter (· < s.colourPhases)).flatMap (fun k =>
    (List.range 64).flatMap (fun g => (List.range 4).map (fun t => (g, t, k))))

/-- The end of a pass's warm-up (R152, R154): exclusions, tint factors, and once the temperatures. -/
def State.calWarmEnd (s : State) (c : Cal) : Cal :=
  let tps := s.passTapPhases c
  let excl := tps.foldl (fun t x =>
    tput (fun _ => false) t (tpKey x.1 x.2.1 x.2.2) (s.calExcluded x.1 x.2.1 x.2.2)) c.excl
  let used := tps.foldl (fun t x =>
    if tget (fun _ => false) excl (tpKey x.1 x.2.1 x.2.2) then t else tput (fun _ => false) t x.1 true) c.used
  if c.step = .gain then
    { c with
      excl := excl, used := used
      tf := tps.foldl (fun t x => tput (fun _ => 16384) t (4 * x.1 + x.2.2)
        (if s.zoneState x.1 = 2 then s.tintOf x.1 x.2.2 else (s.tint x.1 x.2.2).1)) c.tf
      tseg := if c.tsegSet then c.tseg else
        (List.range 64).foldl (fun t z =>
          let m := s.monT (s.fget (Reg.lmpZoneCfg_mon z))
          tput (fun _ => none) t z (if m.2.1 && !m.2.2 then some m.1 else none)) []
      tsegSet := true }
  else { c with excl := excl, used := used }

/-- The calibration with what the end of its pass's warm-up fixes (R152), once that has come; after the entries are written the
first verification pass stands (R156), which has no warm-up. -/
def State.calWarmed (s : State) (c : Cal) : Cal :=
  if c.step = .writing then { c with step := .verify }
  else if c.phase = 0 ∧ (c.step = .dark ∨ c.step = .gain) ∧ c.lines = c.base + c.warm then s.calWarmEnd c
  else c

/-- What one sample contributes to its accumulator (R153, R154, R156). -/
def State.calValue (s : State) (c : Cal) (seg k x : Nat) (clamp : Int) (y : Nat) : Int :=
  let x1 := sat23 (4 * (y : Int) - (if s.flag Reg.pxeCtrl_clamp_en then clamp else 0))
  if c.step = .dark then x1
  else
    let e := s.entry c.target k x
    let g := sat23 (x1 - e.dark)
    let g := if s.flag Reg.pxeCtrl_lin_en then sat23 (s.lin (s.fget Reg.pxeLin_set) seg k g) else g
    let g := if c.step = .verify then sat23 (rshr (g * (e.gain : Int)) 14) else g
    if s.flag Reg.pxeCtrl_tint_en then sat23 (rshr (g * (tget (fun _ => 16384) c.tf (4 * seg + k) : Nat)) 14) else g

/-- Pixel index at which sample `i` of a tap accumulates (R152). -/
def State.calIndex (s : State) (seg t i : Nat) : Nat :=
  if s.binned then 5120 * seg + 1280 * t + 2 * i else 5120 * seg + 1280 * t + i

/-- One counted readout of a tap-phase is accumulated (R152). -/
def State.calAccumulate (s : State) (c : Cal) (seg t k : Nat) (clamp : Int) (y : List Nat) : State :=
  let vals := (List.range y.length).map (fun i =>
    let x := s.calIndex seg t i
    (x, s.ldI (calAcc k x) 4 + s.calValue c seg k x clamp (y.getD i 0)))
  vals.foldl (fun s v => s.st (calAcc k v.1) 4 (ofInt 32 v.2)) s

/-- A segment's readout of a capture (R152): sable clamps, calibration staging, accumulation of what counts. -/
def State.calReadout (s : State) (seg n k : Nat) (taps : List TapStage) : State :=
  match s.shd.cal with
  | none => s
  | some c =>
    let s := s.store (0x14A00000 + 10240 * calUnit seg k) (taps.flatMap (fun x => x.y.flatMap (leBytes 2)))
    let s := s.store (0x14BFE000 + 32 * calUnit seg k) (taps.flatMap (fun x => x.desc.flatMap (leBytes 4)))
    s.each (List.range 4) (fun t s =>
      let tp := taps.getD t TapStage.none
      let r := s.clampUpdate seg t k tp.sum
      let s := r.2
      match s.shd.cal with
      | none => s
      | some c' =>
        let key := tpKey seg t k
        let cnt := tget (fun _ => 0) c'.counts key
        let clean := tp.sum.isSome && !tp.suspect && tp.desc.all (fun d => d % 4 == 0)
        if k / 2 = c.pass ∧ c.base + c.warm ≤ n ∧ cnt < 2 ^ c.n ∧ clean ∧ tget (fun _ => false) c.excl key = false then
          ((s.calAccumulate c seg t k r.1 tp.y).st (calCount key) 4 (cnt + 1)).setCal (some { c' with counts := tput (fun _ => 0) c'.counts key (cnt + 1) })
        else s)

/-- The pass has its counted readouts, or its lines are used up (R152). -/
def State.calPassDone (s : State) (c : Cal) : Bool :=
  decide (c.base + c.warm ≤ c.lines) &&
    (decide (c.base + c.warm + 2 ^ (c.n + 1) ≤ c.lines) ||
      (s.passTapPhases c).all (fun x =>
        tget (fun _ => false) c.excl (tpKey x.1 x.2.1 x.2.2) ||
          tget (fun _ => 0) c.counts (tpKey x.1 x.2.1 x.2.2) == 2 ^ c.n))

/-- Entries of a tap-phase: pixel indexes of its samples. -/
def State.tapIndexes (s : State) (seg t : Nat) : List Nat := (List.range (tapPx s.binned)).map (s.calIndex seg t)

/-- Write an entry's field for a pixel, and for its twin in binned captures (R155). -/
def State.putEntry (s : State) (b k x off n v : Nat) : State :=
  let s := s.st (entryAddr b k x + off) n v
  if s.binned then s.st (entryAddr b k (x + 1) + off) n v else s

/-- The flags of a pixel-phase after its checks (R155): the new flags, and whether it counts as marked. -/
def newFlags (old : Nat) (fail replaced : Bool) (defectN : Nat) : Nat × Bool :=
  let f := if replaced then putBit old 6 false else old
  if fail then
    let n := min 7 (bitsAt f 3 3 + 1)
    let f := putBits (putBit f 2 true) 3 3 n
    if defectN ≠ 0 ∧ defectN ≤ n ∧ f % 4 = 0 then (putBits f 0 2 3, true) else (f, false)
  else (putBits (putBit f 2 false) 3 3 0, false)

/-- The outcome of one pixel-phase enters flags and counts (R155). -/
def State.calSettle (s : State) (c : Cal) (k x : Nat) (fail replaced : Bool) : State × Cal :=
  let f := newFlags (s.entry c.target k x).flags fail replaced (bitsAt (c.lat.getD 6 0) 24 3)
  let s := s.putEntry c.target k x 5 1 f.1
  (s, { c with
    failed := c.failed + b2n fail, kept := c.kept + b2n fail, marked := c.marked + b2n f.2, total := c.total + 1 })

/-- The new dark values of a pass (R153, R155). -/
def State.calDark (s : State) (c : Cal) : State × Cal :=
  let hi := toInt 16 (bitsAt (c.lat.getD 2 0) 16 16)
  let lo := toInt 16 (bitsAt (c.lat.getD 2 0) 0 16)
  let step := bitsAt (c.lat.getD 3 0) 0 16
  ((s.passTapPhases c).filter (fun x => !tget (fun _ => false) c.excl (tpKey x.1 x.2.1 x.2.2))).foldl
    (fun (sc : State × Cal) x =>
      let short := tget (fun _ => 0) c.counts (tpKey x.1 x.2.1 x.2.2) != 2 ^ c.n
      (sc.1.tapIndexes x.1 x.2.1).foldl (fun (sc : State × Cal) px =>
        let s := sc.1
        let c := sc.2
        let k := x.2.2
        let v := rdiv (s.ldI (calAcc k px) 4) (2 ^ c.n : Nat)
        let old := (s.entry c.target k px).dark
        let fail := short || decide (v < lo ∨ hi < v) || (c.trusted && decide ((v - old).natAbs > step))
        let s := if fail then s else s.putEntry c.target k px 0 2 (ofInt 16 v)
        if c.kind = 1 then s.calSettle c k px fail (!fail)
        else
          let s := if fail then s else
            s.putEntry c.target k px 5 1 (putBit (s.entry c.target k px).flags 6 false)
          (s, if fail then { c with darkFail := tput (fun _ => false) c.darkFail (327680 * k + px) true } else c)) sc)
    (s, c)

/-- The new gain of a pixel-phase, before its checks (R154). -/
def State.gainNew (s : State) (c : Cal) (k x : Nat) : Option Int :=
  let m := rdiv (s.ldI (calAcc k x) 4) (2 ^ c.n : Nat)
  let target := bitsAt (c.lat.getD (k / 2) 0) (16 * (k % 2)) 16
  if 0 < m then some (rdiv (4 * target * 16384 : Nat) m) else none

/-- The new gain values of a pass (R154, R155). -/
def State.calGain (s : State) (c : Cal) : State × Cal :=
  let hi : Int := bitsAt (c.lat.getD 4 0) 16 16
  let lo : Int := bitsAt (c.lat.getD 4 0) 0 16
  let dev : Int := bitsAt (c.lat.getD 5 0) 16 10
  let step : Int := bitsAt (c.lat.getD 5 0) 0 10
  ((s.passTapPhases c).filter (fun x => !tget (fun _ => false) c.excl (tpKey x.1 x.2.1 x.2.2))).foldl
    (fun (sc : State × Cal) x =>
      let short := tget (fun _ => 0) c.counts (tpKey x.1 x.2.1 x.2.2) != 2 ^ c.n
      let k := x.2.2
      let idx := sc.1.tapIndexes x.1 x.2.1
      let good := idx.filterMap (fun px => match sc.1.gainNew c k px with
        | some g => if lo ≤ g ∧ g ≤ hi then some g else none
        | none => none)
      let gbar : Option Int := if good = [] then none else some (rdiv (sumI good) good.length)
      let sc := (sc.1.st (calSum (tpKey x.1 x.2.1 k)) 8 (ofInt 64 (sumI good)), sc.2)
      idx.foldl (fun (sc : State × Cal) px =>
        let s := sc.1
        let c := sc.2
        let old : Int := (s.entry c.target k px).gain
        let g := s.gainNew c k px
        let fail := short || match g, gbar with
          | some g, some m =>
            decide (g < lo ∨ hi < g) || (c.trusted && decide (1000 * ((g - old).natAbs : Int) > step * old)) ||
              decide (1000 * ((g - m).natAbs : Int) > dev * m)
          | _, _ => true
        let s := if fail then s else s.putEntry c.target k px 2 2 (ofInt 16 (g.getD 0))
        s.calSettle c k px (fail || tget (fun _ => false) c.darkFail (327680 * k + px)) (!fail)) sc)
    (s, c)

/-- The reference temperatures of the segments that took part (R154). -/
def State.calTref (s : State) (c : Cal) : State :=
  s.each ((List.range 64).filter (fun g => tget (fun _ => false) c.used g)) (fun g s =>
    s.st (bankBase c.target + 0x780010 + 2 * g) 2 (match tget (fun _ => none) c.tseg g with
      | some t => ofInt 16 t
      | none => 0x8000))

/-- Residual non-uniformity from the pixels' means (R156). -/
def rnuOf (mv : List Int) : Nat :=
  let n : Int := mv.length
  let sum := sumI mv
  let sq := sumI (mv.map (fun v => v * v))
  if mv.length < 2 then 0xFFFF
  else if sum ≤ 0 then 0xFFFF
  else
    let d := (n * sq - sum * sum).toNat
    let q := isqrt (400000000 * d)
    min ((q + sum.toNat) / (2 * sum.toNat)) 0xFFFE

/-- The verification of a pass: rnu of every zone and phase (R156). -/
def State.calRnu (s : State) (c : Cal) : State :=
  (((List.range 2).map (2 * c.pass + ·)).filter (· < s.colourPhases)).foldl (fun s k =>
    s.each (List.range 64) (fun z s =>
      let px := ((List.range 4).filter (fun t => !tget (fun _ => false) c.excl (tpKey z t k))).flatMap (fun t =>
        (s.tapIndexes z t).filter (fun x => (s.entry c.target k x).flags % 8 == 0))
      let v := rnuOf (px.map (fun x => rdiv (s.ldI (calAcc k x) 4) (2 ^ c.n : Nat)))
      let s := s.st (bankBase c.target + 0x780100 + 8 * z + 2 * k) 2 v
      let a := if k < 2 then Reg.shdZoneRnu0 z else Reg.shdZoneRnu1 z
      let s := s.fput ⟨a, 16 * (k % 2), 16⟩ v
      if v ≠ 0xFFFF ∧ v > bitsAt (c.lat.getD 6 0) 12 12 then s.raise 0x8003 .warn z (pf 22 1 k + pf 24 2 v) else s)) s

/-- Clear the accumulators and the counts of a pass. -/
def State.calClear (s : State) : State := (s.clear 0x15280000 0x280000).clear 0x15500000 0x1000

/-- The target bank is prepared (R151). -/
def State.calPrepare (s : State) (c : Cal) : State :=
  let b := c.target
  let f := s.fget Reg.shdBank_sel
  let t := bankBase b
  let s := s.bankWritten b
  let s :=
    if c.src then s
    else if s.bankValid f then
      let s := s.copyRegion (bankBase f) t 0x780000
      let s := s.copyRegion (bankBase f + 0x780010) (t + 0x780010) 0x80
      s.copyRegion (bankBase f + 0x780100) (t + 0x780100) 0x200
    else
      let s := s.region t 0x780000 ((List.range (4 * 327680)).map (fun i => (t + 6 * i + 3, (0x40 : Byte))))
      let s := s.store (t + 0x780010) ((List.replicate 64 ([0x00, 0x80] : List Byte)).flatten)
      s.store (t + 0x780100) (List.replicate 0x200 (0xFF : Byte))
  let s :=
    if c.clrdef then
      { s with
        mem := (s.mem.map (fun e =>
          if t ≤ e.1 ∧ e.1 < t + 0x780000 ∧ (e.1 - t) % 6 = 5 ∧ bitAt e.2.toNat 6 = false then
            (e.1, BitVec.ofNat 8 (putBits e.2.toNat 0 2 0)) else e)).filter (fun e => e.2 != 0) }
    else s
  let s := (s.clear (t + 0x780000) 16).clear 0x15501000 0x2000
  let s := (s.st (t + 0x780000) 2 1).st (t + 0x780002) 1 (b2n s.binned)
  s.each (List.range 4) (fun k s =>
    s.st (t + 0x780004 + k) 1 (if k < s.colourPhases then s.colour k else 0xFF))

/-- The rest of the header after a calibration that is accepted, reserved bytes 0 (R148, R157). -/
def State.calHeader (s : State) (c : Cal) : State :=
  let h := bankBase c.target + 0x780000
  let s := (s.st (h + 0x95) 1 c.kind).st (h + 0x96) 1 c.n
  let s := ((s.clear (h + 0x97) 1).clear (h + 0xA8) 0x58).clear (h + 0x300) 0x7FD00
  let s := (s.st (h + 0xA0) 4 c.kept).st (h + 0xA4) 4 c.marked
  let s := s.st (h + 0x90) 4 (s.bankCrc c.target)
  s.validate c.target 1

/-- The failed fraction of a calibration (R157): the cause of its failure, if any, and the fraction. -/
def Cal.verdict (c : Cal) : Option Nat × Nat :=
  if c.total = 0 then (some 2, 0)
  else
    let fr := 1000 * c.failed / c.total
    if 1000 * c.failed ≤ min 1000 (bitsAt (c.lat.getD 6 0) 0 10) * c.total then (none, fr) else (some 1, fr)

/-- The calibration ends (R157, R159): the bank stops being BUSY, AUTO selects it, CAL_DONE or CAL_FAIL. A target bank whose
calibration fails is not VALID, also when it ends early after VALID was set (R159). -/
def State.calFinish (s : State) (c : Cal) : State :=
  let s := s.setCal none
  let s := ((s.fput Reg.shdStat_busy 0).fput Reg.shdStat_step 0).fput Reg.shdStat_result
    (match c.outcome with
      | none => 1
      | some n => if n ≤ 2 then 2 else 3)
  let s := (s.fput Reg.shdResult0_failed c.failed).fput Reg.shdResult1_marked c.marked
  match c.outcome with
  | none =>
    let s := if c.auto then s.selectBank c.target else s
    s.raise 0x8001 .info c.target (pf 24 4 c.kept + pf 28 4 c.marked)
  | some n => (s.bankWritten c.target).raise 0x8002 .warn c.target (pf 22 1 n + pf 23 1 (min 255 c.verdict.2))

end Sys2Proof.Machine
end

