-- ==== Sys2Proof/Machine/DmaOps.lean ====
section
/-!
DEFINITION. Writes and reads of on-chip memory that come from outside its owner (R32, R314, R392): what each region does
with a write, and the DMA channels (R310 to R322).
-/

namespace Sys2Proof.Machine

/-- What a region does with a write of DMA, TABLE_LOAD, the two-wire target or the debug port (R314). -/
inductive DstRule where
  | ok
  /-- The waiting rule of R19. -/
  | wait
  /-- The owning chapter refuses it: CONFLICT. -/
  | refuse
  deriving DecidableEq, Repr

/-- The ranges `[a, a + n)` and `[lo, hi]` overlap. -/
def hits (a n lo hi : Nat) : Bool := decide (a ≤ hi) && decide (lo < a + n)

/-- The first and last addresses of the regions of R32. -/
def regionsR32 : List (Nat × Nat) :=
  [(0x10000000, 0x12FFFFFF), (0x13000000, 0x137FFFFF), (0x13800000, 0x13FFFFFF), (0x14000000, 0x149FFFFF),
   (0x14A00000, 0x151FFFFF), (0x15200000, 0x155FFFFF), (0x15600000, 0x157FFFFF), (0x15800000, 0x158FFFFF),
   (0x15900000, 0x159FFFFF), (0x15A00000, 0x15FFFFFF)]

/-- The range lies within one region (R310, R313). -/
def inRegion (a n : Nat) : Bool := regionsR32.any (fun r => decide (r.1 ≤ a ∧ a + n ≤ r.2 + 1))

/-- A write into a shading bank (R147, R19). -/
def State.bankRule (s : State) (b : Nat) : DstRule :=
  if b = s.fget Reg.shdBank_sel ∨ s.bankPend = some b ∨ s.bankOp b then .refuse
  else if s.bankHeld b then .wait else .ok

/-- A write into a linearity set (R130). -/
def State.linRule (s : State) (l : Nat) : DstRule :=
  if s.running && l == s.fget Reg.pxeLin_set then .refuse else if s.linHeld l then .wait else .ok

/-- Areas that their owner keeps now (R117, R158, R171, R172, R188, R195, R197, R202, R206, R213, R248, R309, R38). -/
def State.kept (s : State) : List (Bool × Nat × Nat) :=
  let run := s.running
  let cal := s.shd.cal.isSome
  [(true, 0x10000000, 0x12FFFFFF), (run, 0x14000000, 0x149FFFFF), (run, 0x14A00000, 0x151FFFFF),
   (cal, 0x14A00000, 0x14BFFFFF), (run, 0x15200000, 0x1553FFFF), (cal, 0x15280000, 0x1553FFFF),
   (run, 0x15540000, 0x155FFFFF), (true, 0x15718000, 0x1571FFFF), (run && s.flag Reg.fedCtrl_learn, 0x15720000, 0x157203FF),
   (true, 0x15720400, 0x157207FF), (true, 0x15722000, 0x15722FFF), (true, 0x15723000, 0x15723FFF),
   (true, 0x15724000, 0x157243FF), (run, 0x15740000, 0x1574407F), (s.isSafe, 0x157C0000, 0x157C07FF)]

/-- The rule for a write of `n` bytes at `a` (R314). -/
def State.dstRule (s : State) (a n : Nat) : DstRule :=
  let rs := [0, 1].flatMap (fun b =>
    (if hits a n (bankBase b) (bankBase b + 0x7FFFFF) then [s.bankRule b] else []) ++
      (if hits a n (0x15600000 + 0x80000 * b) (0x1567FFFF + 0x80000 * b) then [s.linRule b] else []))
  if s.kept.any (fun k => k.1 && hits a n k.2.1 k.2.2) || rs.contains .refuse then .refuse
  else if rs.contains .wait then .wait else .ok

/-- The 4-byte entries of a table that mirrors registers, within a written range. -/
def entriesIn (a n base size cnt : Nat) : List Nat :=
  (List.range cnt).filter (fun i => hits a n (base + size * i) (base + size * i + size - 1))

/-- A joint offset is out of range (R125). -/
def jointBad (d : Int) : Bool := decide (d < -63) || decide (255 < d)

/-- Effects of a write beside the bytes (R116, R131, R145): the first write of a bank clears VALID, the lamp and joint
tables write the registers they stand for, as register writes of path `p` do: a joint offset out of range (R125) is refused.
The spec does not say what a read of the lamp table gives after BASE or REF has been set by a register write: it gives the
bytes last stored in the table (the model's choice: log entry 93). -/
def State.wrote (s : State) (p : Path) (a n : Nat) : State :=
  let s := s.each [0, 1] (fun b s => if hits a n (bankBase b) (bankBase b + 0x7FFFFF) then s.bankWritten b else s)
  let s := s.each (entriesIn a n 0x15700000 4 63) (fun j s =>
    let d := s.ldI (0x15700000 + 4 * j) 2
    if jointBad d then s.regRefused p (Reg.pxeJoint j) (BitVec.ofInt 32 d) 1
    else s.shadow .jb 0 (Reg.pxeJoint j) 0x3FF (ofInt 10 d))
  s.each (entriesIn a n 0x157C0000 8 256) (fun i s =>
    let s := s.shadow .lb 0 (Reg.lmpZoneStrLvl (i / 4) (i % 4)) 0xFFFF (s.ld (0x157C0000 + 8 * i) 2)
    s.fput (Reg.lmpZoneStrRef_ref (i / 4) (i % 4)) (s.ld (0x157C0000 + 8 * i + 2) 2))

/-- A write from outside that is let through, on a path. -/
def State.outerStore (s : State) (p : Path) (a : Nat) (bs : List Byte) : State :=
  let s :=
    if 0x15F80000 ≤ a ∧ a ≤ 0x15FFFFFF then
      { s with cfg := { s.cfg with
          scratch := tputs (fun _ => false) s.cfg.scratch (a / 4) (List.replicate (bs.length / 4) true) } }
    else if 0x14E00000 ≤ a ∧ a ≤ 0x151FFFFF then
      { s with nzl := { s.nzl with
          wrote := tputs (fun _ => false) s.nzl.wrote (a / 4) (List.replicate (bs.length / 4) true) } }
    else s
  (s.store a bs).wrote p a bs.length

/-- Areas whose bytes the spec does not give: the streak profile in a job and what a job left of it, the event staging area while
it holds something, the
service scratch where nothing has been written since the load (R368). -/
def State.unlaid (s : State) (a : Nat) : Bool :=
  (decide (0x14E00000 ≤ a ∧ a ≤ 0x151FFFFF) &&
      (s.running || (s.nzl.used && !tget (fun _ => false) s.nzl.wrote (a / 4)))) ||
    (decide (0x15800000 ≤ a ∧ a ≤ 0x1587FFFF) && decide (0 < s.evq.taken)) ||
    (decide (0x15F80000 ≤ a ∧ a ≤ 0x15FFFFFF) && !tget (fun _ => false) s.cfg.scratch (a / 4))

/-- A read from outside: bytes as stored (R309), a free value where the spec gives the bytes no layout. -/
def State.outerByte (s : State) (a : Nat) : Byte := if s.unlaid a then Config.openByte s.fresh a else s.byte a

def State.outerBytes (s : State) (a n : Nat) : List Byte := (List.range n).map (fun i => s.outerByte (a + i))

/-- A channel's own state. -/
def State.ch (s : State) (c : Nat) : DmaCh := tget (fun _ => DmaCh.init) s.dma.ch c

def State.setCh (s : State) (c : Nat) (x : DmaCh) : State :=
  { s with dma := { s.dma with ch := tput (fun _ => DmaCh.init) s.dma.ch c x } }

/-- STATE of a channel: 0 idle, 1 armed, 2 running, 3 waiting, 4 stopping, 5 halted; BUSY and HALTED follow it. -/
def State.setChState (s : State) (c v : Nat) : State :=
  let s := s.fput (Reg.dmaChStat_state c) v
  let s := s.fput Reg.dmaBusy_val (putBit (s.fget Reg.dmaBusy_val) c (1 ≤ v ∧ v ≤ 4))
  s.fput Reg.dmaHalted_val (putBit (s.fget Reg.dmaHalted_val) c (v == 5))

def State.chState (s : State) (c : Nat) : Nat := s.fget (Reg.dmaChStat_state c)

/-- Remote window `w` of the key store (R373): base, size, key, key through the partner slot, slot, flags. -/
structure Window where
  base : Nat
  size : Nat
  key : Nat
  key2 : Nat
  slot : Nat
  valid : Bool
  read : Bool
  write : Bool
  deriving DecidableEq, Repr

def State.keyBytes (s : State) : List Byte := s.sec.keys.getD []

def State.window (s : State) (w : Nat) : Window :=
  let k := s.keyBytes.drop (1216 + 32 * w)
  let f := leAt k 25 1
  { base := leAt k 0 8, size := leAt k 8 8, key := leAt k 16 4, key2 := leAt k 20 4, slot := leAt k 24 1, valid := bitAt f 0,
    read := bitAt f 1, write := bitAt f 2 }

/-- A host address (R310): bit 63. -/
def isHost (a : Nat) : Bool := bitAt a 63

def hostWin (a : Nat) : Nat := bitsAt a 56 4

def hostOff (a : Nat) : Nat := bitsAt a 0 48

/-- An address range obeys R310 and lies within its region or window; a window must allow the direction. -/
def State.rangeOk (s : State) (a n : Nat) (write : Bool) : Bool :=
  if isHost a then
    let w := s.window (hostWin a)
    bitsAt a 60 3 == 0 && bitsAt a 48 8 == 0 && w.valid && decide (hostOff a + n ≤ w.size) &&
      (if write then w.write else w.read)
  else a / 2 ^ 32 == 0 && inRegion a n

def Desc.op (d : Desc) : Nat := bitsAt d.ctrl 0 3

def Desc.som (d : Desc) : Bool := bitAt d.ctrl 3

def Desc.notify (d : Desc) : Bool := bitAt d.ctrl 4

def Desc.own (d : Desc) : Bool := bitAt d.ctrl 31

/-- The checks of R313; `mem` tells a descriptor of memory from the register descriptor. -/
def State.descOk (s : State) (d : Desc) : Bool :=
  let fill := d.op == 1
  let both := fun a b n => decide (a < b + n) && decide (b < a + n)
  (fill || d.src % 64 == 0) && d.dst % 64 == 0 && d.count % 64 == 0 && d.next % 64 == 0 && d.count != 0 && decide (d.op ≤ 2) &&
    bitsAt d.ctrl 5 26 == 0 && (fill || s.rangeOk d.src d.count false) && s.rangeOk d.dst d.count (d.op != 2) &&
    (d.next == 0 || s.rangeOk d.next 64 false) && !(!fill && isHost d.src && isHost d.dst) &&
    !(!fill && !isHost d.src && !isHost d.dst && both d.src d.dst d.count)

/-- The register descriptor of a channel (R311). -/
def State.regDesc (s : State) (c : Nat) : Desc :=
  { ctrl := bitsAt (s.rget (Reg.dmaChCtrl c)).toNat 0 5 + 2 ^ 31, count := s.fget (Reg.dmaChCount_val c),
    src := s.wget (Reg.dmaChSrc0 c), dst := s.wget (Reg.dmaChDst0 c), next := s.wget (Reg.dmaChNext0 c) }

/-- A descriptor of memory (R311). -/
def memDesc (b : List Byte) : Desc :=
  { ctrl := leAt b 0 4, count := leAt b 4 4, src := leAt b 8 8, dst := leAt b 16 8, next := leAt b 24 8 }

/-- Address of the descriptor in progress or last run. -/
def State.chCur (s : State) (c : Nat) : Nat := s.wget (Reg.dmaChCur0 c)

/-- CONFLICT of a channel's destination (R350): kind 4 for a TABLE_LOAD, else kind 3. -/
def State.dmaConflict (s : State) (c dst : Nat) : State :=
  match (s.ch c).use with
  | .tableLoad tag _ => s.raise 0x0007 .warn 0 (pf 22 1 4 + pf 24 4 dst + pf 28 2 tag + pf 30 1 c)
  | _ => s.raise 0x0007 .warn 2 (pf 22 1 3 + pf 24 4 dst + pf 28 2 c)

/-- The descriptor no longer counts among the users of its banks (R147). -/
def State.dropUsers (s : State) (c : Nat) : State :=
  let s := s.each (s.ch c).banks (fun b s =>
    { s with shd := { s.shd with users := tput (fun _ => 0) s.shd.users b (tget (fun _ => 0) s.shd.users b - 1) } })
  s.setCh c { s.ch c with banks := [] }

/-- Banks a range lies in. -/
def banksOf (a n : Nat) : List Nat := [0, 1].filter (fun b => hits a n (bankBase b) (bankBase b + 0x7FFFFF))

/-- Banks a descriptor writes into. -/
def Desc.banks (d : Desc) : List Nat := if d.op == 2 || isHost d.dst then [] else banksOf d.dst d.count

/-- A transfer whose destination lies in banks counts among their users, once (R147). -/
def State.useBanks (s : State) (c : Nat) (bs : List Nat) : State :=
  let s := s.dropUsers c
  let s := s.each bs (fun b s =>
    { s with shd := { s.shd with users := tput (fun _ => 0) s.shd.users b (tget (fun _ => 0) s.shd.users b + 1) } })
  s.setCh c { s.ch c with banks := bs }

/-- CMD_FAILED of a TABLE_LOAD (R346, R350). -/
def State.loadFailed (s : State) (c code : Nat) : State :=
  match (s.ch c).use with
  | .tableLoad tag _ => (s.raise 0x3006 .warn tag (pf 22 1 7 + pf 23 1 code)).setCh c { s.ch c with use := .none }
  | _ => s

/-- A channel halts (R319): it keeps CUR and RESULT, and raises DMA_HALT. -/
def State.dmaHalt (s : State) (c code : Nat) : State :=
  let s := s.dropUsers c
  let s := s.fput (Reg.dmaChResult_result c) code
  let s := s.fput (Reg.dmaChStat_cause c) code
  let s := (s.fput (Reg.dmaChStat_pend c) 0).setChState c 5
  let s := s.raise 0x4006 .warn c (pf 22 1 code + pf 24 8 (s.chCur c))
  let s := s.loadFailed c code
  s.setCh c { s.ch c with cur := none, nextAt := none, go := false, wait := none }

/-- CMD_DONE of a command (R345, R350): counts, CMD_LAST, and the event with NOTIFY. -/
def State.cmdDoneEvent (s : State) (op tag : Nat) (pay : Nat) : State := s.raise 0x3001 .info tag (pf 22 1 op + pay)

/-- A channel comes to rest: its chain is over or a STOP has been taken (R319). -/
def State.dmaRest (s : State) (c : Nat) (stopped : Bool) : State :=
  let s := (s.dropUsers c).setChState c 0
  let s := s.fput (Reg.dmaChStat_pend c) 0
  let s := if stopped then s.fput (Reg.dmaChStat_stopped c) 1 else s
  let s := match (s.ch c).use with
    | .tableLoad tag flags => if bitAt flags 0 then s.cmdDoneEvent 7 tag 0 else s
    | _ => s
  s.setCh c { s.ch c with cur := none, nextAt := none, go := false, wait := none, use := .none }

/-- A trigger is taken (R315): one that was itself lost to an overrun behind it does not end the silence of DMA_TRIG_OVR. -/
def DmaCh.take (x : DmaCh) : DmaCh := { x with go := true, ovr := x.ovr && x.lostTrig, lostTrig := false }

/-- A trigger reaches a channel (R315). -/
def State.dmaTrigger (s : State) (c : Nat) : State :=
  let x := s.ch c
  let st := s.chState c
  if st = 0 ∨ st = 5 then s
  else if x.cur.isNone && !x.go then
    let s := s.setChState c 2
    s.setCh c x.take
  else if !s.flag (Reg.dmaChStat_pend c) then s.fput (Reg.dmaChStat_pend c) 1
  else
    let s := s.bump (Reg.dmaChOvr_val c) 1
    let s := s.setCh c { x with ovr := true, lostTrig := true }
    if x.ovr then s else s.raise 0x4007 .warn c 0

/-- What starts the next descriptor of a chain (R315): nothing is awaited with TRIG = 0, else a held trigger is taken. -/
def State.dmaNext (s : State) (c next : Nat) : State :=
  let x := { s.ch c with nextAt := some next, go := false, cur := none, moved := 0, dropped := 0, miss := none,
                            discard := false, poison := false, wait := none }
  let s := s.setCh c x
  if s.fget (Reg.dmaChCfg_trig c) = 0 then (s.setCh c { x with go := true }).setChState c 2
  else if s.flag (Reg.dmaChStat_pend c) then
    ((s.setCh c x.take).fput (Reg.dmaChStat_pend c) 0).setChState c 2
  else s.setChState c 1

/-- START (R315): the channel is armed at its register descriptor. -/
def State.dmaArm (s : State) (c : Nat) (use : DmaUse) : State :=
  let s := s.fput (Reg.dmaChStat_stopped c) 0
  let s := s.fput (Reg.dmaChStat_pend c) 0
  let s := s.fput (Reg.dmaChStat_ndesc c) 0
  let s := s.wput (Reg.dmaChCur0 c) 0
  let s := s.setCh c { DmaCh.init with nextAt := some 0, use := use, go := s.fget (Reg.dmaChCfg_trig c) == 0 }
  s.setChState c 1

/-- STOP (R319): at once when no descriptor has started, else at the next boundary; one held at its start (R314) counts as
started. -/
def State.dmaStop (s : State) (c : Nat) : State :=
  let st := s.chState c
  if st = 0 ∨ st = 5 then s
  else if (s.ch c).cur.isNone && (s.ch c).wait.isNone then s.dmaRest c true
  else s.setChState c 4

/-- Bytes of the next burst (R321). -/
def Desc.burst (d : Desc) (moved : Nat) : Nat :=
  min (d.count - moved) (if (d.op != 1 && isHost d.src) || isHost d.dst then 4096 else 256)

/-- The constant of a fill, little-endian and repeated (R312). -/
def fillBytes (v n : Nat) : List Byte := (List.replicate (n / 8) (leBytes 8 v)).flatten

/-- Offset of the first difference of two byte strings. -/
def firstDiff : List Byte → List Byte → Nat → Option Nat
  | a :: as, b :: bs, i => if a = b then firstDiff as bs (i + 1) else some i
  | _, _, _ => none

end Sys2Proof.Machine
end

