-- ==== Sys2Proof/Machine/HostOps.lean ====
section
/-!
DEFINITION. Shared operations of the host port (chapter 13): queue pairs and messages, retransmission and errors, ports
and failover, the exporter, event records, polls.
-/

namespace Sys2Proof.Machine

/-- Port of a slot (R331). -/
def slotPort (q : Nat) : Nat := q / 8

def State.qp (s : State) (q : Nat) : Qp := tget (fun _ => Qp.init) s.hst.qp q

def State.setQp (s : State) (q : Nat) (x : Qp) : State :=
  { s with hst := { s.hst with qp := tput (fun _ => Qp.init) s.hst.qp q x } }

/-- Bursts of a descriptor that a slot holds unacknowledged: messages into its host destination (R321). -/
def State.openBursts (s : State) (d : Desc) (q : Nat) : Nat :=
  ((s.qp q).msgs.filter (fun m => match m.body with
    | .win w off _ => d.op != 2 && isHost d.dst && w == hostWin d.dst &&
        decide (hostOff d.dst ≤ off ∧ off < hostOff d.dst + d.count)
    | _ => false)).length

/-- Bursts of a descriptor outstanding on any slot (R321). -/
def State.outstanding (s : State) (d : Desc) : Nat := ((List.range 16).map (s.openBursts d)).sum

/-- A channel has a burst to move (R321): at most 8 are outstanding. -/
def State.burstDue (s : State) (c : Nat) : Bool :=
  (s.chState c == 2 || s.chState c == 4) &&
    match (s.ch c).cur with
    | some (_, d) => decide ((s.ch c).moved < d.count) && !(s.ch c).poison && decide (s.outstanding d < 8)
    | none => false

/-- Address of the descriptor of memory that a channel is to fetch (R317). -/
def State.fetchDue (s : State) (c : Nat) : Option Nat :=
  let x := s.ch c
  if x.go && x.cur.isNone && x.wait.isNone then x.nextAt.filter (fun a => a != 0) else none

/-- The READ of the host that a channel's next burst, or its fetch, needs (R310, R317): address and length. -/
def State.dueRead (s : State) (c : Nat) : Option (Nat × Nat) :=
  let x := s.ch c
  match x.cur with
  | some (_, d) =>
    let n := d.burst x.moved
    if !s.burstDue c then none
    else if d.op != 1 && isHost d.src then some (d.src + x.moved, n)
    else if d.op == 2 && isHost d.dst then some (d.dst + x.moved, n)
    else none
  | none => (s.fetchDue c).bind (fun a => if isHost a then some (a, 64) else none)

def State.port (s : State) (p : Nat) : PortSt := tget (fun _ => PortSt.init) s.hst.port p

def State.setPort (s : State) (p : Nat) (x : PortSt) : State :=
  { s with hst := { s.hst with port := tput (fun _ => PortSt.init) s.hst.port p x } }

def State.qpOn (s : State) (q : Nat) : Bool := s.flag (Reg.qptQpCfg_en q)

def State.qpRts (s : State) (q : Nat) : Bool := s.fget (Reg.qptQpStat_state q) == 1

def State.qpMoved (s : State) (q : Nat) : Bool := s.flag (Reg.qptQpStat_moved q)

def State.portState (s : State) (p : Nat) : Nat := s.fget (Reg.hstPortStat_state p)

def State.portUp (s : State) (p : Nat) : Bool := s.portState p == 2

/-- HST_CTRL.MODE: 0 SINGLE, 1 STANDBY, 2 BONDED. -/
def State.portMode (s : State) : Nat := s.fget Reg.hstCtrl_mode

def State.primary (s : State) : Nat := s.fget Reg.hstCtrl_primary

/-- Time a port has been paused since the last read of HST_PORT_p_PAUSE, ns (R330, R354). -/
def State.pauseTime (s : State) (p : Nat) : Nat :=
  (s.port p).pausedNs + if s.flag (Reg.hstPortStat_paused p) then s.sys.now - (s.port p).pausedAt else 0

/-- Slots of a port. -/
def portSlots (p : Nat) : List Nat := (List.range 8).map (8 * p + ·)

/-- The LINES and the CONTROL slot of a port (R331). -/
def State.linesSlot (s : State) (p : Nat) : Option Nat :=
  (portSlots p).find? (fun q => s.qpOn q && s.flag (Reg.qptQpCfg_lines q))

def State.ctrlSlot (s : State) (p : Nat) : Option Nat :=
  (portSlots p).find? (fun q => s.qpOn q && s.flag (Reg.qptQpCfg_control q))

/-- The partner of a slot. -/
def State.partner (s : State) (q : Nat) : Option Nat :=
  if s.flag (Reg.qptQpCfg_pen q) then some (s.fget (Reg.qptQpCfg_partner q)) else none

/-- The slot that carries the traffic of a slot: its partner while it is MOVED (R352). -/
def State.carrier (s : State) (q : Nat) : Nat := if s.qpMoved q then (s.partner q).getD q else q

/-- The port that carries control traffic (R327). -/
def State.ctrlPort (s : State) : Nat :=
  if s.portMode = 0 then s.primary
  else if s.portMode = 1 then s.hst.active
  else if !s.portUp s.primary && s.portUp (1 - s.primary) then 1 - s.primary else s.primary

/-- The queue pair of control traffic, while its port is up. -/
def State.ctrlQp (s : State) : Option Nat := if s.portUp s.ctrlPort then s.ctrlSlot s.ctrlPort else none

/-- Whether a port carries lines (R327). -/
def State.carriesLines (s : State) (p : Nat) : Bool :=
  s.portUp p &&
    (if s.portMode = 0 then p == s.primary else if s.portMode = 1 then p == s.hst.active else true)

/-- WAIT of EVQ_STAT (R357): the ring is full by CI_EVENT, or no port carries control traffic. -/
def State.evqFull (s : State) : Bool :=
  decide (s.fget Reg.evqCount_ecount ≤ s.wget Reg.evqPi0 - s.wget Reg.evqCi0) || s.ctrlQp.isNone

/-- HST_STAT follows the ports (R354), and so does WAIT of EVQ_STAT (R357). -/
def State.showPorts (s : State) : State :=
  let l := match s.carriesLines 0, s.carriesLines 1 with
    | true, true => 2
    | true, false => 0
    | false, true => 1
    | false, false => 3
  let s := (s.fput Reg.hstStat_lines l).fput Reg.hstStat_ctrlport s.ctrlPort
  s.fputB Reg.evqStat_wait s.evqFull

/-- MAC of a port. -/
def State.portMac (s : State) (p : Nat) : Nat := s.wget (Reg.hstPortMac0 p) % 2 ^ 48

/-- Image block of port `p` (R373): IPv4 and IPv6 address, fields of an image section and so little-endian (R3). -/
def State.portIp4 (s : State) (p : Nat) : Nat := leAt s.keyBytes (32 * p) 4

def State.portIp6 (s : State) (p : Nat) : Nat := leAt s.keyBytes (32 * p + 4) 16

/-- The 802.1Q tag of the frames that are sent (R328): VID and PCP. -/
def State.vlanTag (s : State) : Option (Nat × Nat) :=
  if s.flag Reg.hstNet_vlan_en then some (s.fget Reg.hstNet_vid, s.fget Reg.hstNet_pcp) else none

/-- The headers of a slot's frames (R328). -/
def State.netHdr (s : State) (q : Nat) : NetHdr :=
  let k := s.keyBytes.drop (192 + 64 * q)
  let v6 := s.flag (Reg.qptQpCfg_ipv6 q)
  let p := slotPort q
  { dmac := leAt k 16 6, smac := s.portMac p,
    vlan := s.vlanTag,
    ipv6 := v6, srcIp := if v6 then s.portIp6 p else s.portIp4 p,
    dstIp := if v6 then leAt k 28 16 else leAt k 28 4,
    dscp := leAt k 7 1 % 64, ecn := 2, df := !v6, ttl := 64, udpDst := 4791, udpSum := 0
    flow := if v6 then leAt k 24 4 % 2 ^ 20 else 0, udpSrc := leAt k 2 2 }

/-- A frame goes out on a port; while the priority is paused it waits (R330). -/
def State.emit (s : State) (p : Nat) (o : Output) : State :=
  if s.flag (Reg.hstPortStat_paused p) then s.setPort p { s.port p with held := (s.port p).held ++ [o] } else s.out o

/-- Half `h` of item `p` is poisoned (R291). -/
def State.poisoned (s : State) (p h : Nat) : Bool := tget (fun _ => false) s.lff.poison (2 * (p % fifoItems) + h)

def State.poisonedItem (s : State) (p : Nat) : Bool := s.poisoned p 0 || s.poisoned p 1

/-- The entry of the issue ring with an issue index. -/
def State.issue (s : State) (i : Nat) : Option Issue := s.lff.ring.find? (fun e => e.idx == i)

/-- Payload bytes of a packet as delivered (R297): poisoned words read as 16 bytes of 0xFF. -/
def State.payloadItem (s : State) (p : Nat) : List Byte :=
  if s.poisonedItem p then List.replicate 16 0xFF else s.fLoad p 16

/-- `len` payload bytes of an issued packet from payload byte `off`, a multiple of 16. -/
def State.payload (s : State) (e : Issue) (off len : Nat) : List Byte :=
  (List.range (len / 16)).flatMap (fun i => s.payloadItem (fAdv e.pos (4 + off / 16 + i)))

/-- Poisoned payload words of a packet. -/
def State.poisonCount (s : State) (pos items : Nat) : Nat :=
  ((List.range (items - 4)).filter (fun i => s.poisonedItem (fAdv pos (4 + i)))).length

/-- The header of a packet as delivered (R296): POISON counted and CRC computed anew. -/
def State.deliveredHeader (s : State) (e : Issue) : List Byte :=
  match e.wm with
  | some h => h
  | none =>
    let h := s.fLoad e.pos 64
    if leAt h 0 1 = 0x57 then h
    else
      let b := h.take 44 ++ leBytes 4 (s.poisonCount e.pos e.items) ++ (h.drop 48).take 12
      b ++ leBytes 4 (crc32c b)

/-- Region block of a port (R373). -/
def State.regionKey (s : State) (p o n : Nat) : Nat := leAt s.keyBytes (64 + 64 * p + o) n

/-- Address, key and bytes of a message as slot `q` sends it (R335, R336, R373). -/
def State.msgTarget (s : State) (q : Nat) (b : MsgBody) : Nat × Nat × List Byte :=
  let p := slotPort q
  let slotAddr := fun i =>
    s.regionKey p 0 8 + 0x1000 + s.fget Reg.hstLineSlot_val * (i % s.fget Reg.hstLineCount_lcount)
  match b with
  | .payload i off len =>
    (slotAddr i + 64 + off, s.regionKey p 16 4, ((s.issue i).map (fun e => s.payload e off len)).getD [])
  | .header i => (slotAddr i, s.regionKey p 16 4, ((s.issue i).map s.deliveredHeader).getD [])
  | .status pi line time =>
    (s.regionKey p 0 8, s.regionKey p 16 4, padTo 64 (leBytes 8 pi ++ leBytes 6 line ++ zeros 2 ++ leBytes 8 time))
  | .ctl off data => (s.regionKey p 32 8 + off, s.regionKey p 28 4, data)
  | .ev0 _ off byte => (s.regionKey p 32 8 + off, s.regionKey p 28 4, [byte])
  | .win w off data =>
    let x := s.window w
    (x.base + off, if x.slot = q then x.key else x.key2, data)

/-- Length in bytes of a message. -/
def MsgBody.len : MsgBody → Nat
  | .payload _ _ len => len
  | .header _ => 64
  | .status _ _ _ => 64
  | .ctl _ data => data.length
  | .ev0 _ _ _ => 1
  | .win _ _ data => data.length

/-- Packets of a message of `n` bytes at a path MTU of 4,096 bytes (R332). -/
def packets (n : Nat) : Nat := max 1 (ceilDiv n 4096)

/-- A slot sends on its own port (R333, R351, R352): in RTS, not MOVED, its port up. -/
def State.sends (s : State) (q : Nat) : Bool := s.qpRts q && !s.qpMoved q && s.portUp (slotPort q)

/-- Number of a packet's kind among the fields of its ICRC. -/
def Bth.code : Bth → Nat
  | .writeFirst => 0
  | .writeMiddle => 1
  | .writeLast => 2
  | .writeOnly => 3
  | .readRequest => 4

/-- A frame of a slot; one that may not send now sends it again when it may. -/
def State.emitQp (s : State) (q : Nat) (op : Bth) (psn : Nat) (ackReq : Bool) (reth : Option (Nat × Nat × Nat))
    (data : List Byte) : State :=
  if s.sends q then
    let h := s.netHdr q
    let rqpn := s.fget (Reg.qptQpRqpn_qpn q)
    let r := reth.getD (0, 0, 0)
    let crc := Config.icrc
      [h.srcIp, h.dstIp, b2n h.ipv6, h.udpSrc, h.udpDst, op.code, rqpn, psn, b2n ackReq, r.1, r.2.1, r.2.2] data
    s.emit (slotPort q) (.rdma (slotPort q) q h op rqpn psn ackReq reth data crc)
  else s

/-- The frames of a message (R332): First, Middle, Last or Only; AckReq on the last packet and on every 64th. -/
def State.sendMsg (s : State) (q : Nat) (m : Msg) : State :=
  let t := s.msgTarget q m.body
  s.each (List.range m.pkts) (fun i s =>
    let last := i + 1 == m.pkts
    let op := if m.pkts = 1 then Bth.writeOnly else if i = 0 then .writeFirst else if last then .writeLast else .writeMiddle
    s.emitQp q op ((m.psn + i) % 2 ^ 24) (last || (i + 1) % 64 == 0)
      (if i = 0 then some (t.1, t.2.1, t.2.2.length) else none) ((t.2.2.drop (4096 * i)).take 4096))

/-- Host address and length of a READ. -/
def State.readTarget (s : State) (q : Nat) (k : RdKind) : Nat × Nat × Nat :=
  let p := slotPort q
  let base := s.regionKey p 32 8
  match k with
  | .credits => (base, s.regionKey p 28 4, 16)
  | .standby => (base, s.regionKey p 28 4, 16)
  | .cmds first n =>
    (base + s.regionKey p 56 4 + 64 * (first % s.fget Reg.cmdCount_ccount), s.regionKey p 28 4, 64 * n)
  | .dma _ a n =>
    let w := s.window (hostWin a)
    (w.base + hostOff a, if w.slot = q then w.key else w.key2, n)

/-- The READ request frame (R332). -/
def State.sendRead (s : State) (q : Nat) (r : Rd) : State :=
  s.emitQp q .readRequest r.psn true (some (s.readTarget q r.kind)) []

/-- The next PSN of a slot, advanced by `k`. -/
def State.takePsn (s : State) (q k : Nat) : Nat × State :=
  let n := s.fget (Reg.qptQpPsn_psn q)
  (n, s.fput (Reg.qptQpPsn_psn q) (n + k))

/-- A new WRITE message on a slot. -/
def State.post (s : State) (q : Nat) (b : MsgBody) : State :=
  let k := packets b.len
  let m : Msg := { psn := (s.takePsn q k).1, pkts := k, body := b }
  let s := (s.takePsn q k).2
  let s := s.setQp q { s.qp q with msgs := (s.qp q).msgs ++ [m] }
  s.sendMsg q m

/-- A new READ on a slot; with 8 outstanding it waits (R332). -/
def State.postRead (s : State) (q : Nat) (k : RdKind) : State :=
  if 8 ≤ (s.qp q).reads.length then s.setQp q { s.qp q with rdWait := (s.qp q).rdWait ++ [k] }
  else
    let r : Rd := { psn := (s.takePsn q 1).1, kind := k }
    let s := (s.takePsn q 1).2
    let s := s.setQp q { s.qp q with reads := (s.qp q).reads ++ [r] }
    (s.fput (Reg.qptQpStat_reads q) (s.qp q).reads.length).sendRead q r

/-- `l` are the READs still outstanding on a slot; one that waits takes the place of one answered (R332). -/
def State.readsLeft (s : State) (q : Nat) (l : List Rd) : State :=
  let s := (s.setQp q { s.qp q with reads := l }).fput (Reg.qptQpStat_reads q) l.length
  match (s.qp q).rdWait with
  | k :: rest => if l.length < 8 then (s.setQp q { s.qp q with rdWait := rest }).postRead q k else s
  | [] => s

/-- The slot an access to a host address uses (R310, R352): its window's, or the partner while that is MOVED. -/
def State.hostSlot (s : State) (a : Nat) : Nat := s.carrier (s.window (hostWin a)).slot

/-- The READ of a channel can be sent, or has been (R332, R333): its slot sends, is not paused, and has room for it. On a slot
in ERROR, or whose port is down, it waits (DESIGN CHOICE, log entry 96). -/
def State.readable (s : State) (c : Nat) : Bool :=
  match s.dueRead c with
  | none => true
  | some (a, n) =>
    let q := s.hostSlot a
    s.sends q && !s.flag (Reg.hstPortStat_paused (slotPort q)) &&
      ((s.qp q).reads.any (fun r => r.kind == .dma c a n) || decide ((s.qp q).reads.length < 8))

/-- A channel has a burst ready, the fetch of a descriptor among them (R317, R321). -/
def State.burstReady (s : State) (c : Nat) : Bool := (s.burstDue c || (s.fetchDue c).isSome) && s.readable c

/-- A channel has been granted a burst (R317, R321): the round-robin order of its level goes on after it. -/
def State.dmaServed (s : State) (c : Nat) : State :=
  { s with dma := { s.dma with last := tput (fun _ => 31) s.dma.last (s.fget (Reg.dmaChCfg_prio c)) c } }

/-- The channel the arbiter grants (R321): the highest PRIO, round robin within a level after the one last granted. -/
def State.dmaGrant (s : State) : Option Nat :=
  [3, 2, 1, 0].findSome? (fun p =>
    let l := tget (fun _ => 31) s.dma.last p
    ((List.range 32).map (fun i => (l + 1 + i) % 32)).find? (fun c => s.fget (Reg.dmaChCfg_prio c) == p && s.burstReady c))

/-- A READ of DMA (R310, R318), with the response that its row brings, which resets the count of failures (R333). One that a
timeout has shown outstanding is answered; else the request goes out now. -/
def State.dmaRead (s : State) (c a n : Nat) : State :=
  let q := s.hostSlot a
  let k : RdKind := .dma c a n
  let s := if (s.qp q).reads.any (fun r => r.kind == k) then s else s.postRead q k
  (s.readsLeft q ((s.qp q).reads.filter (fun r => r.kind != k))).fput (Reg.qptQpStat_run q) 0

/-- A WRITE of DMA to a host address. -/
def State.dmaWrite (s : State) (a : Nat) (bs : List Byte) : State :=
  s.post (s.hostSlot a) (.win (hostWin a) (hostOff a) bs)

/-- A descriptor of memory is fetched: one burst of the channel (R317), from the host a READ. -/
def State.dmaFetch (s : State) (c a : Nat) : State :=
  let s := s.dmaServed c
  if isHost a then s.dmaRead c a 64 else s

/-- A descriptor is fetched, counted and checked (R313, R314, R317). `fetched` is what a fetch from the host brings. A fetch
comes when the arbiter grants it, as a burst of its channel (R317, R321). -/
def State.dmaDescStart (s : State) (c : Nat) (fetched : List Byte) : State :=
  let x := s.ch c
  match x.nextAt with
  | none => s
  | some a =>
    if !x.go || x.cur.isSome || ((s.fetchDue c).isSome && s.dmaGrant != some c) then s
    else
      let d := x.wait.getD (if a = 0 then s.regDesc c
        else if isHost a then memDesc (padTo 64 fetched) else memDesc (s.outerBytes a 64))
      let clim := if s.fget (Reg.dmaChCfg_clim c) = 0 then 65535 else s.fget (Reg.dmaChCfg_clim c)
      let nd := if x.wait.isSome then x.ndesc else x.ndesc + 1
      let s := if x.wait.isSome || a = 0 then s else s.dmaFetch c a
      if !d.own then s.dmaRest c false
      else if clim < nd then s.dmaHalt c 7
      else
        let s := s.fput (Reg.dmaChStat_ndesc c) (min nd 65535)
        let s := s.wput (Reg.dmaChCur0 c) a
        let s := s.setCh c { x with
          ndesc := nd, moved := 0, dropped := 0, miss := none, discard := false, poison := false, wait := none }
        if !s.descOk d then (s.fput (Reg.dmaChDone_val c) 0).dmaHalt c 2
        else
          let rule := if d.op == 2 || isHost d.dst then .ok else s.dstRule d.dst d.count
          match rule with
          | .refuse => ((s.fput (Reg.dmaChDone_val c) 0).dmaConflict c d.dst).dmaHalt c 3
          | .wait =>
            let s := s.useBanks c d.banks
            (s.setCh c { s.ch c with wait := some d }).setChState c (if s.chState c = 4 then 4 else 3)
          | .ok =>
            let s := s.useBanks c d.banks
            (s.setCh c { s.ch c with cur := some (a, d) }).setChState c (if s.chState c = 4 then 4 else 2)

/-- A WRITE to the control region (R335); none while no port carries control traffic. -/
def State.ctlWrite (s : State) (off : Nat) (bs : List Byte) : State :=
  match s.ctrlQp with
  | some q => s.post q (.ctl off bs)
  | none => s

/-- A WRITE to the control region that is due whatever becomes of the ports (R347): while none carries control traffic it waits
on the CONTROL slot that will. -/
def State.ctlPost (s : State) (off : Nat) (bs : List Byte) : State :=
  match s.ctrlSlot s.ctrlPort with
  | some q => s.post q (.ctl off bs)
  | none => s

/-- The status block (R335). -/
def State.statusBlock (s : State) : State :=
  s.ctlWrite 0x40 (padTo 64 (leBytes 8 (s.wget Reg.cmdCi0) ++ leBytes 8 s.sys.now ++
    leBytes 6 (s.wget Reg.lffLastCommit0) ++ leBytes 2 (s.rget Reg.sysState).toNat ++ leBytes 4 (s.rget Reg.sysSafeCause).toNat))

/-- Distance of PSNs (R332: 24 bits): `a` is at or after `b`. -/
def psnGe (a b : Nat) : Bool := decide ((a + 2 ^ 24 - b) % 2 ^ 24 < 2 ^ 23)

/-- PSN of a message's last packet. -/
def Msg.last (m : Msg) : Nat := (m.psn + m.pkts - 1) % 2 ^ 24

/-- Whether a message stays listed for a resend of its FIFO entry (R333): line messages of an entry not released. -/
def State.keepsMsg (s : State) (m : Msg) : Bool :=
  let open_ := fun i => match s.issue i with
    | some e => !e.released
    | none => false
  match m.body with
  | .payload i _ _ => open_ i
  | .header i => open_ i
  | _ => false

/-- A release (R306): the entries of a port up to and including the one named, in the order in which the port sends them, an
entry that a failover moved in behind its own. -/
def State.release (s : State) (p idx : Nat) : State :=
  match s.issue idx with
  | none => s
  | some x =>
    { s with
      lff := { s.lff with
        ring := s.lff.ring.map (fun e => if e.port = p && e.ord ≤ x.ord then { e with released := true } else e) } }

/-- Entries take the next places in the order of a port (R306, R307): those of packets handed to it now. -/
def State.reorder (s : State) (p : Nat) (l : List Issue) : State :=
  l.foldl (fun s x =>
    { s with
      lff := { s.lff with
        ring := s.lff.ring.map (fun e => if e.idx = x.idx then { e with port := p, ord := s.lff.order } else e)
        order := s.lff.order + 1 } }) s

/-- Poisoned words of a packet are counted, and reported once for it (R297, R322). -/
def State.reportPoison (s : State) (line n : Nat) (told : Bool) : State :=
  if n = 0 then s
  else
    let s := s.bump Reg.lffCntPoison_val n
    if told then s else s.raiseAt 0x4003 .warn 0 line (pf 24 4 n)

/-- Some half of a header is poisoned. -/
def State.headerPoisoned (s : State) (p : Nat) : Bool := [0, 1, 2, 3].any (fun i => s.poisonedItem (fAdv p i))

/-- Poisoned words among the header and the payload of a packet; a watermark has no payload to read (R296). -/
def State.poisonedWords (s : State) (pos items : Nat) : Nat :=
  (if leAt (s.fLoad pos 1) 0 1 = 0x57 then 0 else s.poisonCount pos items) +
    ([0, 1, 2, 3].filter (fun k => s.poisonedItem (fAdv pos k))).length

/-- The watermark delivered for lost packets (R297). -/
def State.lostWatermark (s : State) (first last : Nat) : List Byte :=
  (wmHeader s.format 1 (s.fget Reg.sysState_job) first s.sys.now 0 last 0x40).bytes

/-- The exporter reads an issued packet again (R296, R297, R307): its poisoned words are counted afresh, and it becomes a
watermark when a half of its header has been poisoned since. -/
def State.reread (s : State) (e : Issue) : State :=
  if e.items = 0 then s
  else
    let n := s.poisonedWords e.pos e.items
    let wm := if s.headerPoisoned e.pos && e.wm.isNone then some (s.lostWatermark e.line e.line) else e.wm
    let s := s.reportPoison e.line n e.told
    { s with
      lff := { s.lff with
        ring := s.lff.ring.map (fun x => if x.idx = e.idx then { x with wm := wm, told := x.told || n != 0 } else x) } }

/-- A slot's resend (R333): its messages with their PSNs, its unanswered READs; a LINES slot's resend is a rewind. -/
def State.resend (s : State) (q : Nat) : State :=
  let s :=
    if s.flag (Reg.qptQpCfg_lines q) && (s.qp q).msgs.any (fun m => s.keepsMsg m) then
      (s.lff.ring.filter (fun e => e.port == slotPort q && !e.released)).foldl (fun s e => s.reread e)
        (s.bump Reg.lffCntRewind_val 1)
    else s
  let s := (s.qp q).msgs.foldl (fun s m => s.sendMsg q m) s
  (s.qp q).reads.foldl (fun s r => s.sendRead q r) s

/-- The line status write of a port (R336 step 3). Every packet below the first one that is neither acknowledged nor sent
on this queue pair lets PI pass; the status of a packet beyond it waits, merged into the next write. -/
def State.lineStatus (s : State) (p : Nat) : State :=
  match s.linesSlot p with
  | none => s
  | some q =>
    let f := ((s.lff.ring.find? (fun e => !e.released && e.port != p)).map (·.idx)).getD (s.wget Reg.hstLineIssue0)
    let due := (s.qp q).statusDue
    if due.any (fun d => decide (d.1 < f)) then
      let line := ((s.issue (f - 1)).map (·.line)).getD ((due.getLast?.map (·.2)).getD 0)
      let s := s.setQp q { s.qp q with statusDue := due.filter (fun d => decide (f ≤ d.1)) }
      (s.wput Reg.hstLinePi0 f).post q (.status f line s.sys.now)
    else s

/-- Line status writes that waited and may now go (R336). -/
def State.statusWaiters (s : State) : State := s.each [0, 1] (fun p s => if s.portUp p then s.lineStatus p else s)

/-- Messages of one packet (R336 steps 1 and 2): payload in WRITEs of at most 1 MiB, then the header. -/
def State.sendPacket (s : State) (q : Nat) (e : Issue) : State :=
  let len := if e.wm.isSome || leAt (s.fLoad e.pos 1) 0 1 == 0x57 then 0 else 16 * (e.items - 4)
  let s := s.each (List.range (ceilDiv len 1048576)) (fun i s =>
    s.post q (.payload e.idx (1048576 * i) (min 1048576 (len - 1048576 * i))))
  s.post q (.header e.idx)

/-- The result code of a descriptor whose bytes have moved (R319). -/
def DmaCh.result (x : DmaCh) (d : Desc) : Nat :=
  if x.poison then 6 else if x.discard then 3 else if d.op = 2 ∧ x.miss.isSome then 1 else 0

/-- Write-back of a descriptor of memory with a result code (R311, R320): bytes 32 to 63, then bytes 0 to 3 with OWN cleared. -/
def State.writeBack (s : State) (a r : Nat) (d : Desc) (x : DmaCh) : State :=
  let b := leBytes 4 r ++ leBytes 4 (x.moved - x.dropped) ++ leBytes 8 (x.miss.getD (2 ^ 64 - 1)) ++ leBytes 8 s.sys.now ++ zeros 8
  let h := leBytes 4 (d.ctrl % 2 ^ 31)
  if isHost a then (s.dmaWrite (a + 32) b).dmaWrite a h
  else if s.dstRule a 64 = .refuse then s
  else (s.outerStore .ring (a + 32) b).outerStore .ring a h

/-- Completion as CFG.CMODE selects (R320): write-back and DMA_DONE, or a pulse. -/
def State.dmaReport (s : State) (c a r : Nat) (d : Desc) (x : DmaCh) : State :=
  if !s.flag (Reg.dmaChCfg_cmode c) then
    let s := if a = 0 then s else s.writeBack a r d x
    if d.notify then s.raise 0x4005 .info c (pf 24 8 a) else s
  else if s.flag (Reg.dmaChCfg_evo_en c) && !s.isSafe then
    { s with dma := { s.dma with evo := tput (fun _ => false) s.dma.evo (s.fget (Reg.dmaChCfg_evo c)) true } }
  else s

/-- Channels that follow a channel get a trigger (R315). -/
def State.dmaFollow (s : State) (c : Nat) : State :=
  s.each (List.range 32) (fun i s =>
    if s.fget (Reg.dmaChCfg_trig i) == 2 && s.fget (Reg.dmaChCfg_chsrc i) == c && i != c then s.dmaTrigger i else s)

/-- The descriptor in progress completes with a result code (R318 to R320): DONE, RESULT, the count, the report, and the
triggers of the channels that follow. -/
def State.dmaComplete (s : State) (c a r : Nat) (d : Desc) : State :=
  let x := s.ch c
  let s := s.dropUsers c
  let s := ((s.fput (Reg.dmaChDone_val c) (x.moved - x.dropped)).fput (Reg.dmaChResult_result c) r).bump (Reg.dmaChCnt_val c) 1
  (s.dmaReport c a r d x).dmaFollow c

/-- A descriptor whose bytes have moved and are acknowledged completes (R318 to R320), and the chain goes on, stops or halts. -/
def State.dmaDescDone (s : State) (c : Nat) : State :=
  match (s.ch c).cur with
  | none => s
  | some (a, d) =>
    let x := s.ch c
    if (x.moved < d.count ∧ x.poison = false) ∨ s.outstanding d ≠ 0 then s
    else
      let r := x.result d
      let s := s.dmaComplete c a r d
      if r = 3 ∨ r = 6 ∨ (r = 1 ∧ d.som) then s.dmaHalt c r
      else if s.chState c = 4 then s.dmaRest c true
      else if d.next = 0 then s.dmaRest c false
      else s.dmaNext c d.next

/-- A channel has a READ of the host to wait for on a slot (R310, R317): its next burst's, or a descriptor's. -/
def State.readsSlot (s : State) (c q : Nat) : Bool :=
  match s.dueRead c with
  | some (a, _) => s.hostSlot a == q
  | none => false

/-- READs of channels among those outstanding on a slot that their channels no longer wait for are forgotten. -/
def State.readsPrune (s : State) (q : Nat) : State :=
  let l := (s.qp q).reads.filter (fun r => match r.kind with
    | .dma c a n => s.dueRead c == some (a, n)
    | _ => true)
  if l = (s.qp q).reads then s else s.readsLeft q l

/-- The READs that channels wait for on a slot are outstanding there (R318): a timeout finds them so. -/
def State.readsShow (s : State) (q : Nat) : State :=
  (s.readsPrune q).each ((List.range 32).filter (fun c => s.readsSlot c q)) (fun c s =>
    match s.dueRead c with
    | some (a, n) =>
      if (s.qp q).reads.any (fun r => r.kind == .dma c a n) || decide (8 ≤ (s.qp q).reads.length) then s
      else s.postRead q (.dma c a n)
    | none => s)

/-- Channels whose descriptor, or its fetch, uses a slot (R318). -/
def State.usesSlot (s : State) (c q : Nat) : Bool :=
  s.readsSlot c q ||
    match (s.ch c).cur with
    | some (_, d) =>
      let u := fun a => isHost a && s.hostSlot a == q
      (d.op != 1 && u d.src) || u d.dst || s.openBursts d q != 0
    | none => false

/-- The channels of a slot in ERROR complete their descriptors with REMOTE_TIMEOUT or REMOTE_ERR and halt (R318). -/
def State.haltSlot (s : State) (q code : Nat) : State :=
  s.each (List.range 32) (fun c s =>
    if s.usesSlot c q then
      let s := match (s.ch c).cur with
        | some (a, d) => s.dmaComplete c a code d
        | none => s
      s.dmaHalt c code
    else s)

/-- A slot enters ERROR and raises QP_ERROR (R333, R350); the PSN is that of its oldest unacknowledged packet. -/
def State.slotError (s : State) (q cause : Nat) : State :=
  let s := s.fput (Reg.qptQpStat_state q) 2
  let s := s.fput (Reg.qptQpStat_err q) cause
  let psn := ((s.qp q).msgs.map (·.psn)).headD (s.fget (Reg.qptQpPsn_psn q))
  let s := s.raise 0x2004 .fault q (pf 22 1 cause + pf 24 3 psn)
  if s.flag (Reg.qptQpCfg_lines q) || s.flag (Reg.qptQpCfg_control q) then s
  else
    let s := s.haltSlot q (if cause = 1 then 4 else 5)
    (s.setQp q { s.qp q with msgs := [], reads := [], rdWait := [] }).fput (Reg.qptQpStat_reads q) 0

/-- Failover of port `p` to port `o` (R351): entries, messages and READs move to the partners, slots without one enter
ERROR, control traffic moves. A line status that was posted and not acknowledged becomes due on the partner (R336).
The answer carries the number of entries moved. -/
def State.moveTraffic (s : State) (p o : Nat) : Nat × State :=
  let moved := s.lff.ring.filter (fun e => e.port == p && !e.released)
  let s := (moved.foldl (fun s e => s.reread e) s).reorder o moved
  let moved := moved.map (fun e => (s.issue e.idx).getD e)
  let s := s.each ((portSlots p).filter (fun q => s.qpOn q)) (fun q s =>
    match s.partner q with
    | some r =>
      let x := s.qp q
      let s := (s.setQp q { x with msgs := [], reads := [], rdWait := [], statusDue := [] }).fput (Reg.qptQpStat_moved q) 1
      let s := s.fput (Reg.qptQpStat_reads q) 0
      if s.flag (Reg.qptQpCfg_lines q) then
        let posted := x.msgs.filterMap (fun m => match m.body with
          | .status pi line _ => some (pi - 1, line)
          | _ => none)
        let s := s.setQp r { s.qp r with statusDue := (s.qp r).statusDue ++ posted ++ x.statusDue }
        (moved.foldl (fun s e => s.sendPacket r e) s).lineStatus o
      else
        let s := x.msgs.foldl (fun s m => s.post r m.body) s
        (x.reads.map (·.kind) ++ x.rdWait).foldl (fun s k => if k = .standby then s else s.postRead r k) s
    | none =>
      if s.qpRts q then
        (s.slotError q 6)
      else s)
  (moved.length, { s with hst := { s.hst with active := if s.hst.active = p then o else s.hst.active } })

/-- FAILOVER (R351). -/
def State.failover (s : State) (p o : Nat) : State :=
  let r := s.moveTraffic p o
  r.2.showPorts.raise 0x2003 .warn o (pf 22 1 p + pf 24 4 r.1)

/-- The lanes of a port carry no signal (R327, R12): its PCS is not aligned. -/
def State.linkDark (s : State) (p : Nat) : State := s.fput (Reg.hstPortStat_link p) 0

/-- A port goes down (R351, R432): the cause, the slot for TRANSPORT. Link training runs again after cause LINK; after every
other cause the link is still steady. -/
def State.portDown (s : State) (p cause slot : Nat) : State :=
  let s := s.fput (Reg.hstPortStat_state p) (b2n (cause != 1 && s.flag (Reg.hstPortStat_link p)))
  let s := s.fput (Reg.hstPortStat_cause p) cause
  let s := s.bump (Reg.hstPortDowns_val p) 1
  let other := s.portUp (1 - p) && s.portMode != 0
  let x := s.port p
  let s := s.setPort p { x with holding := false, train := x.train || cause == 1, alone := !other && s.portMode != 0, held := [] }
  let pay := pf 22 1 cause + pf 23 1 (if cause = 2 then slot else 0)
  if other then
    let r := s.moveTraffic p (1 - p)
    (r.2.showPorts.raise 0x2001 .fault p pay).raise 0x2003 .warn (1 - p) (pf 22 1 p + pf 24 4 r.1)
  else s.showPorts.raise 0x2001 .fault p pay

/-- A queue pair error that a NAK or the eighth failure causes (R333). -/
def State.qpError (s : State) (q cause : Nat) : State :=
  let s := s.slotError q cause
  if (s.flag (Reg.qptQpCfg_lines q) || s.flag (Reg.qptQpCfg_control q)) && s.portUp (slotPort q) then s.portDown (slotPort q) 2 q
  else s

/-- A failed attempt of a slot (R333): the eighth without progress is an error, else the slot resends. -/
def State.qpFailed (s : State) (q : Nat) : State :=
  let r := s.fget (Reg.qptQpStat_run q)
  if r = 7 then s.qpError q 1 else (s.fput (Reg.qptQpStat_run q) (r + 1)).resend q

/-- The announcement of a port that comes up (R329): a gratuitous ARP, or an unsolicited neighbour advertisement where its
slots use IPv6. -/
def State.announce (s : State) (p : Nat) : State :=
  let v6 := (portSlots p).any (fun q => s.qpOn q && s.flag (Reg.qptQpCfg_ipv6 q))
  let mac := s.portMac p
  if v6 then s.emit p (.nadv p s.vlanTag 0x333300000001 (0xFF02 * 2 ^ 112 + 1) mac (s.portIp6 p) false)
  else s.emit p (.arp p s.vlanTag false 0xFFFFFFFFFFFF mac (s.portIp4 p) 0 (s.portIp4 p))

/-- The LINES and CONTROL slots of a port are in RTS and not MOVED (R351). -/
def State.slotsClear (s : State) (p : Nat) : Bool :=
  ((portSlots p).filter (fun q => s.qpOn q && (s.flag (Reg.qptQpCfg_lines q) || s.flag (Reg.qptQpCfg_control q)))).all
    (fun q => s.qpRts q && !s.qpMoved q)

/-- A port comes up (R351, R352, R432). -/
def State.portComesUp (s : State) (p : Nat) : State :=
  let s := s.fput (Reg.hstPortStat_state p) 2
  let s := s.setPort p { s.port p with alone := false }
  let s := if s.portMode = 1 && !s.portUp (1 - p) then { s with hst := { s.hst with active := p } } else s
  let s := (s.showPorts.announce p).raise 0x2002 .info p 0
  let s := s.clearActive .ports
  let s := s.each ((portSlots p).filter (fun q => s.qpRts q)) (fun q s => s.resend q)
  let o := 1 - p
  if s.portMode != 0 && (s.port o).alone && !s.portUp o then
    (s.setPort o { s.port o with alone := false }).failover o p
  else s

/-- A port with a steady link comes up if it may (R351): a port forced down stays down, and so does one without its remote
keys (R386). -/
def State.portTry (s : State) (p : Nat) : State :=
  if s.portState p = 1 && !s.flag (Reg.hstPortCtrl_down p) && s.sec.keys.isSome && s.slotsClear p then s.portComesUp p else s

/-- The link of a port has been steady for 10 ms (R351). -/
def State.portSteady (s : State) (p : Nat) : State :=
  if decide (2 ≤ s.portState p) || !s.flag (Reg.hstPortStat_link p) then s
  else (s.fput (Reg.hstPortStat_state p) 1).portTry p

/-- An acknowledgement up to a PSN (R332, R333): what it covers leaves the slot, FIFO entries are released, records leave
the staging area, waiting line status writes go. -/
def State.ack (s : State) (q psn : Nat) : State :=
  let x := s.qp q
  let next := s.fget (Reg.qptQpPsn_psn q)
  let old : Bool := match x.acked with
    | some a => psnGe a psn
    | none => false
  let first := (x.msgs.map (·.psn)).headD next
  if old || !psnGe psn first || psnGe psn next then s
  else
    let s := (s.fput (Reg.qptQpAckpsn_psn q) psn).fput (Reg.qptQpStat_run q) 0
    let cov := x.msgs.filter (fun m => psnGe psn m.last)
    let s := cov.foldl (fun s m =>
      match m.body with
      | .header i => s.release (slotPort q) i
      | .ev0 e _ _ => { s with evq := { s.evq with flying := s.evq.flying.filter (· != e) } }
      | _ => s) s
    let s := s.setQp q { s.qp q with acked := some psn, msgs := x.msgs.filter (fun m => !psnGe psn m.last || s.keepsMsg m) }
    let s := s.statusWaiters
    s.advanceFree

/-- CI_LINE as read (R338). -/
def State.creditLine (s : State) (v : Nat) : State :=
  if s.wget Reg.hstLineCi0 ≤ v ∧ v ≤ s.wget Reg.hstLineIssue0 then
    let s := s.wput Reg.hstLineCi0 v
    { s with hst := { s.hst with creditErr := false } }
  else if s.hst.creditErr then s
  else
    let s := s.raise 0x3004 .warn 0 (pf 22 1 1 + pf 24 8 v)
    { s with hst := { s.hst with creditErr := true } }

/-- CI_EVENT as read (R341). -/
def State.creditEvent (s : State) (v : Nat) : State :=
  if s.wget Reg.evqCi0 ≤ v ∧ v ≤ s.wget Reg.evqPi0 then
    let s := s.wput Reg.evqCi0 v
    let s : State := { s with hst := { s.hst with creditErrEv := false } }
    s.fputB Reg.evqStat_wait s.evqFull
  else if s.hst.creditErrEv then s
  else
    let s := s.raise 0x3004 .warn 0 (pf 22 1 2 + pf 24 8 v)
    { s with hst := { s.hst with creditErrEv := true } }

/-- The 32 bytes of an event record (R340). -/
def Event.bytes (e : Event) (phase lost : Bool) (seq : Nat) : List Byte :=
  let sev := match e.sev with
    | .info => 0
    | .warn => 1
    | .fault => 2
    | .safe => 3
  leBytes 1 (128 * b2n phase + sev) ++ leBytes 1 (b2n lost) ++ leBytes 2 e.code ++ leBytes 2 e.src ++ leBytes 2 seq ++
    leBytes 8 e.time ++ leBytes 6 e.line ++ leBytes 10 e.pay

/-- The record to write next (R342): the oldest SAFE record, else the oldest. -/
def EvqSt.head (q : EvqSt) : Option (Event × List Event) :=
  match q.staged.find? (fun e => e.sev == .safe), q.staged with
  | some e, l => some (e, l.erase e)
  | none, e :: l => some (e, l)
  | none, [] => none

/-- The record after one that carries LOST (R342): EVQ_LOST with the number lost. -/
def State.lostRecord (s : State) : Event :=
  { code := 0x3005, sev := .warn, src := 0, time := s.sys.now, line := s.evLine, pay := pf 24 4 s.evq.lost }

/-- Write one record (R341): bytes 1 to 31, then byte 0, while there is room by CI_EVENT and a control port. EVQ_LOST is a WARN
record (R350) and takes such a place of the staging area; without one it is itself discarded (R342). -/
def State.writeEvent (s : State) : State :=
  match s.evq.head, s.ctrlQp with
  | some (e, rest), some q =>
    let i := s.wget Reg.evqPi0
    let n := s.fget Reg.evqCount_ecount
    if n ≤ i - s.wget Reg.evqCi0 ∨ n = 0 then s.fput Reg.evqStat_wait 1
    else
      let lost := s.flag Reg.evqStat_lost
      let seq := s.fget Reg.evqStat_seq
      let b := e.bytes (i / n % 2 == 0) lost seq
      let off := s.regionKey (slotPort q) 48 4 + 32 * (i % n)
      let fits := lost && decide (s.evq.taken < Sev.warn.room)
      let rest := if fits then s.lostRecord :: rest else rest
      let s : State := { s with
        evq := { s.evq with staged := rest, flying := s.evq.flying ++ [i], lost := if fits then 0 else s.evq.lost } }
      let s := if lost && !fits then s.loseEvent else s.fput Reg.evqStat_lost 0
      let s := s.fput Reg.evqStat_seq (seq + 1)
      let s := s.wput Reg.evqPi0 (i + 1)
      let s := s.post q (.ctl (off + 1) (b.drop 1))
      let s := s.post q (.ev0 i off (b.headD 0))
      s.fputB Reg.evqStat_wait s.evqFull
  | some _, none => s.fput Reg.evqStat_wait 1
  | none, _ => s

/-- Line number expected after a delivered packet (R297). -/
def nextLine (bin : Bool) (n : Nat) : Nat := n + (if bin then 2 else 1)

/-- KIND and LEN of the packet at an item (R295, R297): from a half that is good and agrees with any good copy. -/
def State.kindLen (s : State) (p : Nat) : Option (Nat × Nat) :=
  let h := s.fLoad p 64
  let a := (leAt h 0 1, leAt h 4 2)
  let b := (leAt h 56 1, leAt h 58 2)
  let ga := !s.poisoned p 0
  let gb := !s.poisoned (fAdv p 3) 1
  if ga && gb then (if a = b then some a else none) else if ga then some a else if gb then some b else none

/-- The port the next packet goes to (R327). -/
def State.issuePort (s : State) (i : Nat) : Option Nat :=
  if s.portMode = 2 then
    if s.portUp 0 && s.portUp 1 then some (i % 2) else if s.portUp 0 then some 0 else if s.portUp 1 then some 1 else none
  else
    let p := if s.portMode = 0 then s.primary else s.hst.active
    if s.portUp p then some p else none

/-- Hand one packet to a port (R305, R336). -/
def State.deliver (s : State) (p q : Nat) (e : Issue) (expect : Nat) : State :=
  let s : State := { s with
    lff := { s.lff with
      ring := s.lff.ring ++ [{ e with ord := s.lff.order }], expect := expect, order := s.lff.order + 1 } }
  let s := s.wput Reg.hstLineIssue0 (e.idx + 1)
  let s := s.sendPacket q e
  (s.setQp q { s.qp q with statusDue := (s.qp q).statusDue ++ [(e.idx, e.line)] }).lineStatus p

/-- The exporter issues the next committed packet (R305, R338): room in the ring, credit, a port. -/
def State.issuePacket (s : State) : State :=
  let i := s.wget Reg.hstLineIssue0
  if s.flag Reg.lffCtrl_sink ∨ s.issuePtr = s.commitPtr ∨ 4096 ≤ s.lff.ring.length ∨
      s.fget Reg.hstLineCount_lcount ≤ i - s.wget Reg.hstLineCi0 then s
  else
    match s.issuePort i with
    | none => s
    | some p =>
      match s.linesSlot p with
      | none => s
      | some q =>
        let pos := s.issuePtr
        match s.kindLen pos with
        | none =>
          let last := s.wget Reg.lffLastCommit0
          let s := s.reportPoison s.lff.expect (([0, 1, 2, 3].filter (fun k => s.poisonedItem (fAdv pos k))).length) false
          let s := s.raise 0x4004 .fault 0 (pf 24 6 last)
          let e : Issue := { pos := s.commitPtr, items := 0, line := s.lff.expect, port := p, released := false, idx := i,
                             wm := some (s.lostWatermark s.lff.expect last), ord := 0, told := true }
          let s := s.fput Reg.lffPtrIssue_val s.commitPtr
          (s.deliver p q e (nextLine s.binned last)).advanceFree
        | some (kind, len) =>
          let h := s.fLoad pos 64
          let bin := bitAt (leAt h 1 1) 1
          let bad := s.headerPoisoned pos
          let line := if bad then s.lff.expect else leAt h 8 6
          let last := if bad then line else if kind = 0x57 then leAt h 48 6 else line
          let n := s.poisonedWords pos (4 * len)
          let e : Issue := { pos := pos, items := 4 * len, line := line, port := p, released := false, idx := i,
                             wm := if bad then some (s.lostWatermark line line) else none, ord := 0, told := n != 0 }
          let s := s.reportPoison line n false
          let s := s.fput Reg.lffPtrIssue_val (fAdv pos (4 * len))
          s.deliver p q e (nextLine bin last)

/-- LFF_SVC_DATA and LFF_SVC_STAT of a latched word (R308). -/
def State.svcLatch (s : State) (b : List Byte) (idle poison sop : Bool) (left : Nat) : State :=
  let s := s.each [0, 1, 2, 3] (fun k s => s.rput (Reg.lffSvcData k) (BitVec.ofNat 32 (leAt b (4 * k) 4)))
  s.rput Reg.lffSvcStat (BitVec.ofNat 32 (2 ^ 31 * b2n idle + 2 ^ 30 * b2n poison + 2 ^ 29 * b2n sop + left % 2 ^ 24))

/-- The service reader takes the next word of a watermark that stands for lost packets (R297, R308). -/
def State.svcMark (s : State) (sop : Bool) : State :=
  let rest := s.lff.svc.drop 16
  let s := s.svcLatch (s.lff.svc.take 16) false false sop (rest.length / 16)
  { s with lff := { s.lff with svc := rest } }

/-- The service reader has come to a header (R296, R297, R300): the line number that follows it, and what its packet holds. A
watermark's 64-byte header alone is read, whatever its LEN. -/
def State.svcHeader (s : State) (p kind len : Nat) : State :=
  let h := s.fLoad p 64
  let mark := decide (kind = 0x57)
  let line := if s.headerPoisoned p then s.lff.expect else leAt h 8 6
  let last := if s.headerPoisoned p then s.lff.expect else if mark then leAt h 48 6 else line
  { s with
    lff := { s.lff with
      expect := nextLine (bitAt (leAt h 1 1) 1) last, svcLine := line, svcBad := 0, svcSkip := if mark then 4 * len - 4 else 0 } }

/-- The service reader has taken the last word of a packet (R297, R300): its poisoned words are reported once, and ISSUE passes
what the packet's reservation holds behind it. -/
def State.svcEnd (s : State) : State :=
  let n := s.lff.svcBad
  let k := s.lff.svcSkip
  let s := if n = 0 then s else s.raiseAt 0x4003 .warn 0 s.lff.svcLine (pf 24 4 n)
  let s : State := { s with lff := { s.lff with svcBad := 0, svcSkip := 0 } }
  s.fput Reg.lffPtrIssue_val (fAdv s.issuePtr k)

/-- The service reader takes one word (R308). Packets whose length it cannot read are delivered as one watermark (R297). -/
def State.svcRead (s : State) : State :=
  let p := s.issuePtr
  let left := s.fget Reg.lffSvcStat_left
  if !s.flag Reg.lffCtrl_sink then s
  else if s.lff.svc != [] then s.svcMark false
  else if p = s.commitPtr then s.svcLatch ((List.replicate 4 (leBytes 4 0x454C4449)).flatten) true false false left
  else
    let sop := left == 0
    match (if sop then s.kindLen p else some (0, 0)) with
    | none =>
      let last := s.wget Reg.lffLastCommit0
      let s := s.reportPoison s.lff.expect (([0, 1, 2, 3].filter (fun k => s.poisonedItem (fAdv p k))).length) false
      let s := (s.raise 0x4004 .fault 0 (pf 24 6 last)).fput Reg.lffPtrIssue_val s.commitPtr
      let s := s.advanceFree
      ({ s with lff := { s.lff with svc := s.lostWatermark s.lff.expect last, expect := nextLine s.binned last } } :
        State).svcMark true
    | some (kind, len) =>
      let s := if sop then s.svcHeader p kind len else s
      let bad := s.poisonedItem p
      let s : State := if bad then
          { s.bump Reg.lffCntPoison_val 1 with lff := { s.lff with svcBad := s.lff.svcBad + 1 } } else s
      let rest := (if sop then (if kind = 0x57 then 4 else 4 * len) else left) - 1
      let s := s.svcLatch (if bad then List.replicate 16 0xFF else s.fLoad p 16) false bad sop rest
      let s := s.fput Reg.lffPtrIssue_val (fAdv p 1)
      (if rest = 0 then s.svcEnd else s).advanceFree

/-- An on-chip source of a burst whose parity is checked: not the line FIFO (R309, R314). -/
def checkedSrc (a : Nat) : Bool := !isHost a && decide (0x13000000 ≤ a)

/-- One burst of a channel (R312, R314, R321); the grant of a fetch shows in DMA_DESC_START. `host` is what
a READ of the host brings; `poison` says that an on-chip
source holds a poisoned word, which ends the descriptor. -/
def State.dmaBurst (s : State) (c : Nat) (host : List Byte) (poison : Bool) : State :=
  match (s.ch c).cur with
  | none => s
  | some (_, d) =>
    let x := s.ch c
    let n := d.burst x.moved
    let src := d.src + x.moved
    let dst := d.dst + x.moved
    let s := s.dmaServed c
    let fetch := fun (s : State) (a : Nat) => if isHost a then padTo n host else s.outerBytes a n
    let ask := fun (s : State) (a : Nat) => if isHost a then s.dmaRead c a n else s
    let next := fun (s : State) (x : DmaCh) => s.setCh c { x with moved := x.moved + n }
    if poison && ((d.op != 1 && checkedSrc src) || (d.op == 2 && checkedSrc dst)) then s.setCh c { x with poison := true }
    else if d.op = 2 then
      let s := ask (ask s src) dst
      let m := match x.miss with
        | some i => some i
        | none => (firstDiff (fetch s src) (fetch s dst) 0).map (x.moved + ·)
      next s { x with miss := m }
    else
      let data := if d.op = 1 then fillBytes d.src n else fetch s src
      let s := if d.op = 1 then s else ask s src
      if isHost dst then next (s.dmaWrite dst data) x
      else if x.discard then next s { x with dropped := x.dropped + n }
      else if s.dstRule dst n = .refuse then
        next (s.dmaConflict c dst) { x with discard := true, dropped := x.dropped + n }
      else next (s.outerStore .ring dst data) x

end Sys2Proof.Machine
end

