-- ==== Sys2Proof/Machine/IndOps.lean ====
section
/-!
DEFINITION. Shared operations of the indicator strip (R404 to R408).
-/

namespace Sys2Proof.Machine

def State.engEn (s : State) (e : Nat) : Bool := s.flag (Reg.indEngCfg_en e)

def State.engMask (s : State) (e led : Nat) : Bool := bitAt (s.rget (Reg.indEngMask e (led / 32))).toNat (led % 32)

/-- LEDs of an engine's mask, upwards. -/
def State.masked (s : State) (e : Nat) : List Nat := (List.range 128).filter (s.engMask e)

/-- Level an engine gives a masked LED (R405); `t` is the time since its phase start in ns. -/
def State.engLevel (s : State) (e led t : Nat) : Nat :=
  let level := s.fget (Reg.indEngCfg_level e)
  let ms := 1000000
  let t1 := s.fget (Reg.indEngTime_t1 e) * ms
  let t2 := s.fget (Reg.indEngTime_t2 e) * ms
  let len := s.fget (Reg.indEngArg_len e)
  match s.fget (Reg.indEngCfg_type e) with
  | 0 =>
    if t1 = 0 then 0
    else
      let x := t % t1
      let d := if 2 * x < t1 then t1 - 2 * x else 2 * x - t1
      level * (t1 - d) / t1
  | 1 =>
    if t1 = 0 then 0
    else
      let m := s.masked e
      let n := m.length
      let i := m.findIdx (· == led)
      let shift := t / t1 % n
      let first := if s.flag (Reg.indEngArg_dir e) then (n - shift) % n else shift
      if (i + n - first) % n < len then level else 0
  | 2 =>
    let p := s.fget (Reg.indEngArg_p e)
    if led = p then level
    else if led ≤ p + len ∧ p ≤ led + len then (rdiv level 4).toNat else 0
  | _ =>
    if t2 = 0 then level
    else if t % (t1 + t2) < t1 then level else 0

/-- Level of an LED (R405): of the highest-numbered enabled engine whose mask holds it, else its static level. -/
def State.ledLevel (s : State) (led : Nat) : Nat :=
  match [3, 2, 1, 0].find? (fun e => s.engEn e && s.engMask e led) with
  | some e => s.engLevel e led (s.sys.now - tget (fun _ => 0) s.ind.start e)
  | none => bitsAt (s.rget (Reg.indLed (led / 4))).toNat (8 * (led % 4)) 8

/-- An engine's phase restarts (R405). -/
def State.engRestart (s : State) (e : Nat) : State :=
  { s with ind := { s.ind with start := tput (fun _ => 0) s.ind.start e s.sys.now } }

/-- Once SAFE has been left, the strip returns to host control with the next frame (R39, R408): each engine's phase restarts. -/
def State.safePatternEnd (s : State) : State :=
  if s.flag Reg.indStat_safepat && !s.isSafe then
    (s.fput Reg.indStat_safepat 0).each (List.range 4) (fun e s => s.engRestart e)
  else s

/-- A frame starts (R404, R405): TROW, BLANK, DIM and ICOL take effect, every level is evaluated. -/
def State.indFrame (s : State) : State :=
  let s := s.safePatternEnd
  { s with
    ind := { s.ind with
      ctrl := (s.rget Reg.indCtrl).toNat, cur := s.fget Reg.indCur_icol, row := 0
      level := (List.range 128).foldl (fun t l => tput (fun _ => 0) t l (s.ledLevel l)) [] } }

/-- On time in ns of a level (R404). -/
def onTime (ctrl level dim : Nat) : Nat :=
  let lit := bitsAt ctrl 16 12 * 1000 - bitsAt ctrl 8 8 * 100
  (rdiv (level * dim * lit : Nat) 65025).toNat / 2 * 2

/-- Level and scale of an LED as the row slot drives it: the SAFE pattern overrides (R408), EN turns the strip off (R411). -/
def State.ledNow (s : State) (led : Nat) : Nat × Nat :=
  if s.flag Reg.indStat_safepat then (if s.ind.lit then 255 else 0, 255)
  else if s.flag Reg.indCtrl_en then (tget (fun _ => 0) s.ind.level led, bitsAt s.ind.ctrl 0 8) else (0, 0)

/-- A row slot (R404): BLANK, then the row sources and its columns sink for their on times. Before an image takes
effect only the SAFE pattern of a load that has stopped shows (R359, R382). -/
def State.indRow (s : State) : State :=
  let r := s.ind.row % 8
  let cols := ((List.range 16).map (fun c =>
    let l := s.ledNow (16 * r + c)
    (c, onTime s.ind.ctrl l.1 l.2))).filter (fun c => c.2 != 0)
  let s := s.fput Reg.indStat_row r
  let s := { s with ind := { s.ind with row := r + 1 } }
  if s.flag Reg.sysState_loaded || s.isSafe && s.fget Reg.cfgStat_step == 15 then s.out (.row r s.ind.cur cols) else s

/-- A Pointer's T1 has passed (R405); in SAFE the engines keep their values (R408). -/
def State.pointerExpire (s : State) (e : Nat) : State :=
  if !s.isSafe && s.engEn e && s.fget (Reg.indEngCfg_type e) == 2 && s.fget (Reg.indEngTime_t1 e) != 0 then
    s.fput (Reg.indEngCfg_en e) 0
  else s

/-- A streak is handed to every Pointer engine with SRC = 1 (R406). -/
def State.streakPointer (s : State) (x : Nat) : State :=
  let p := if s.binned then x / 1280 else x / 2560
  let s := s.fput Reg.indStat_ptr p
  s.each (List.range 4) (fun e s =>
    if s.fget (Reg.indEngCfg_type e) == 2 && s.flag (Reg.indEngCfg_src e) then (s.fput (Reg.indEngArg_p e) p).engRestart e else s)

/-- The SAFE pattern begins (R408). -/
def State.safePattern (s : State) : State :=
  let s := s.fput Reg.indStat_safepat 1
  { s with ind := { s.ind with lit := true } }

/-- Values of IND_CTRL the rules allow (R404). -/
def indCtrlOk (v : Nat) : Bool :=
  let trow := bitsAt v 16 12
  let blank := bitsAt v 8 8
  decide (100 ≤ trow ∧ trow ≤ 1000 ∧ 5 ≤ blank ∧ blank ≤ 100 ∧ blank * 200 ≤ trow * 1000)

end Sys2Proof.Machine
end

