-- ==== Sys2Proof/Machine/Operands.lean ====
section
/-!
DEFINITION. The operand fields of the ring commands (R149, R192, R225, R242, R343, R346) and of the debug port's data
register (R401).
-/

namespace Sys2Proof.Machine

/-- NOTIFY of a command (R343). -/
def cmdNotify (e : CmdEntry) : Bool := bitAt e.flags.toNat 0

/-- FLAGS has a bit set that R343 gives as 0. -/
def cmdFlagsBad (e : CmdEntry) : Bool := e.flags.toNat / 2 != 0

/-- Argument word `k` of a command (R343). -/
def cmdArg (e : CmdEntry) (k : Nat) : Nat := (e.args.getD k 0).toNat

/-- Two argument words as one 64-bit value, low word first. -/
def cmdArg64 (e : CmdEntry) (k : Nat) : Nat := cmdArg e k + 2 ^ 32 * cmdArg e (k + 1)

/-- JOB_START (R346): job number, regime, number of phases, phase period in 10 ns. -/
def jobNumber (e : CmdEntry) : Nat := bitsAt (cmdArg e 0) 16 16
def jobRegime (e : CmdEntry) : Nat := bitsAt (cmdArg e 0) 0 2
def jobPhases (e : CmdEntry) : Nat := bitsAt (cmdArg e 1) 28 3
def jobPeriod (e : CmdEntry) : Nat := bitsAt (cmdArg e 1) 0 20

/-- ADVANCE (R242): pass number, distance in nm. -/
def advPass (e : CmdEntry) : Nat := cmdArg e 0
def advDistance (e : CmdEntry) : Int := toInt 32 (cmdArg e 1)

/-- MOVE (R225): axis, REL, NOTIFY, EVSTOP, g, target; a reserved bit set. -/
def moveAxis (e : CmdEntry) : Nat := bitsAt (cmdArg e 0) 0 3
def moveRel (e : CmdEntry) : Bool := bitAt (cmdArg e 0) 8
def moveNotify (e : CmdEntry) : Bool := bitAt (cmdArg e 0) 9
def moveEvstop (e : CmdEntry) : Bool := bitAt (cmdArg e 0) 10
def moveEvi (e : CmdEntry) : Nat := bitsAt (cmdArg e 0) 12 2
def moveTarget (e : CmdEntry) : Int := toInt 48 (cmdArg64 e 1)
def moveBad (e : CmdEntry) : Bool :=
  bitsAt (cmdArg e 0) 3 5 != 0 || bitAt (cmdArg e 0) 11 || bitsAt (cmdArg e 0) 14 18 != 0 || bitsAt (cmdArg e 2) 16 16 != 0

/-- CAL_START (R149): CLRDEF, AUTO, SRC, N, KIND; a reserved bit set. -/
def calClrdef (e : CmdEntry) : Bool := bitAt (cmdArg e 0) 10
def calAuto (e : CmdEntry) : Bool := bitAt (cmdArg e 0) 9
def calSrc (e : CmdEntry) : Bool := bitAt (cmdArg e 0) 8
def calN (e : CmdEntry) : Nat := bitsAt (cmdArg e 0) 4 4
def calKind (e : CmdEntry) : Nat := bitsAt (cmdArg e 0) 0 3
def calBad (e : CmdEntry) : Bool := bitsAt (cmdArg e 0) 11 21 != 0 || bitAt (cmdArg e 0) 3

/-- CONTEXT_EXPORT (R192): FIRST, COUNT, destination. -/
def expFirst (e : CmdEntry) : Nat := bitsAt (cmdArg e 0) 0 20
def expCount (e : CmdEntry) : Nat := bitsAt (cmdArg e 1) 0 21
def expDst (e : CmdEntry) : Nat := cmdArg64 e 2

/-- TABLE_LOAD (R346): source, destination, byte count. -/
def loadSrc (e : CmdEntry) : Nat := cmdArg64 e 0
def loadDst (e : CmdEntry) : Nat := cmdArg64 e 2
def loadCount (e : CmdEntry) : Nat := cmdArg e 4

/-- BANK_COMMIT (R346): the bank. -/
def commitBank (e : CmdEntry) : Nat := bitsAt (cmdArg e 0) 0 1

/-- REG_WRITE (R346): the writes, as address and value. -/
def writeCount (e : CmdEntry) : Nat := bitsAt (cmdArg e 0) 0 3
def writeList (e : CmdEntry) : List (Nat × Word) :=
  (List.range (writeCount e)).map (fun k => (cmdArg e (2 * k + 1), e.args.getD (2 * k + 2) 0))

/-- REG_READ (R346): the addresses, the result offset. -/
def readCount (e : CmdEntry) : Nat := bitsAt (cmdArg e 0) 0 4
def readOffset (e : CmdEntry) : Nat := cmdArg e 1
def readList (e : CmdEntry) : List Nat := (List.range (readCount e)).map (fun k => cmdArg e (k + 2))

/-- A command entry of 64 bytes (R343): opcode, entry, whether its CHECK is left to the caller. -/
def entryOf (bs : List Byte) : Nat × CmdEntry :=
  (leAt bs 1 1, { tag := BitVec.ofNat 16 (leAt bs 2 2), flags := BitVec.ofNat 32 (leAt bs 4 4)
                  args := (List.range 13).map (fun w => BitVec.ofNat 32 (leAt bs (8 + 4 * w) 4)) })

/-- DBG_REG (R401): GO, WRITE, address, data. -/
def dbgGo (dr : BitVec 72) : Bool := bitAt dr.toNat 71
def dbgWrite (dr : BitVec 72) : Bool := bitAt dr.toNat 70
def dbgAddr (dr : BitVec 72) : Nat := bitsAt dr.toNat 32 32
def dbgData (dr : BitVec 72) : Word := BitVec.ofNat 32 dr.toNat

end Sys2Proof.Machine
end

