-- ==== Sys2Proof/Machine/SeqOps.lean ====
section
/-!
DEFINITION. The line sequencer (R41, R42, R44, R45, R93, R106, R239, R241, R247, R434): triggers, the LB of a line, phase
starts, closing start pulses, flush phases, and the readouts of segments.
-/

namespace Sys2Proof.Machine

/-- Captured overlap lines of a couch (R246, R247); lines before line 0 do not exist. -/
def State.overlapCount (s : State) (c : Couch) : Nat := min s.overlapLines (c.n + 1)

/-- The first overlap line. -/
def State.overlapFirst (s : State) (c : Couch) : Nat := c.n + 1 - s.overlapCount c

/-- The line that a trigger would concern now, and whether it is an overlap line (R239, R246). -/
def State.triggerLine (s : State) : Option (Nat × Bool) :=
  if !s.running || !s.seq.armed then none
  else match s.mot.couch with
    | none => some (s.seq.next, false)
    | some c =>
      if 6 ≤ s.couchStep ∧ c.overlap < s.overlapCount c then some (s.overlapFirst c + c.overlap, true)
      else if s.seq.next ≤ c.n ∨ (6 ≤ s.couchStep ∧ s.overlapCount c ≤ c.overlap) then some (s.seq.next, false)
      else none

/-- A line may not start yet (R241, R434, R45): phases run, flush phases or a fallback's switch are awaited, or the phase period
after the closing start pulse, with its readout, has not ended. -/
def State.lineBusy (s : State) : Bool :=
  s.seq.cur.isSome || s.seq.waitFlush || decide (0 < s.vfe.flush) || s.vfe.reads != [] || decide (s.sys.now < s.seq.closing)

/-- The seam check of a couch loses an overlap line by an overrun (R249). -/
def State.overlapLost (s : State) (num : Nat) : State :=
  if s.binned && num % 2 == 1 then
    match s.pline (num - 1) with
    | some _ => (s.discardLine (num - 1)).overlapEnded
    | none => s
  else s.overlapEnded

/-- An overrun (R241, R301, R127): the line is numbered, counted, reported once and recorded by a watermark. -/
def State.lineOverrun (s : State) (n : Nat) (feed : Int) : State :=
  let s := s.bump Reg.motCntOvr_val 1
  let s :=
    if s.mot.overrun then s
    else ({ s with mot := { s.mot with overrun := true } } : State).raiseAt 0xC009 .warn 0 n 0
  if s.binned && n % 2 == 1 then
    match s.pline (n - 1) with
    | some _ => (((s.discardLine (n - 1)).poolDropped (n - 1) 3).rewindLine (n - 1) 18).handOverLines
    | none => s
  else s.stamp.2.gapDrop n s.stamp.1 feed 2

/-- The line after a couch (R250): its commit waits for the seam check, or takes the verdict. -/
def State.couchLine (s : State) (n : Nat) : State :=
  match s.mot.check with
  | none => s
  | some k =>
    if k.line ≠ n then s
    else match k.verdict with
      | some bad => ({ s with mot := { s.mot with check := none } } : State).flagResv n (2 * b2n bad)
      | none =>
        { s with
          lff := { s.lff with
            resv := s.lff.resv.map (fun r => if r.kind = .line n then { r with wait := true } else r) } }

/-- The couch is over once line N + 1, or a line after it when N + 1 was an overrun, has started (R246). -/
def State.couchOver (s : State) (n : Nat) : State :=
  match s.mot.couch with
  | some c =>
    if c.n + 1 ≤ n then ({ s with mot := { s.mot with couch := none } } : State).setCouchStep 0 else s
  | none => s

/-- The LB of an overlap line (R247): it commits nothing and reserves nothing; step 7 of the couch shows it, and step 8 once no
overlap line's trigger is to come. -/
def State.overlapLb (s : State) (num t : Nat) (feed : Int) : State :=
  let bank := s.fget Reg.shdBank_sel
  let s := s.each (List.range 64) (fun g s => s.segTemp g bank)
  let s := s.absLb.monTriggerBy 1
  let s :=
    match s.mot.couch with
    | none => s
    | some c =>
      s.setCouchStep (if s.overlapCount c ≤ c.overlap then 8 else 7)
  (s.poolLb num (s.lineCfg t feed)).2

/-- Settings of a line by the state's settings, as the pool's need takes them (R139). -/
def State.poolCfg (s : State) : LineCfg :=
  { LineCfg.init with
    fmt := s.format, start := s.fget Reg.pxeDeckle0_start, width := s.fget Reg.pxeDeckle1_width, c := s.colourPhases }

/-- Commit of the LB-class settings at a line's LB (R16, R17, R127), with what follows from a changed bank or window, and from
a changed deckle (R139). -/
def State.lbCommit (s : State) (n : Nat) : State :=
  if s.binned && n % 2 == 1 then s
  else
    let bank := s.fget Reg.shdBank_sel
    let win := (List.range 64).map (fun z => (s.rget (Reg.shdZoneWin z)).toNat)
    let deckle := (s.rget Reg.pxeDeckle0, s.rget Reg.pxeDeckle1)
    let s := (s.boundaryClaims .lb).driftAfterCommit bank win
    if (s.rget Reg.pxeDeckle0, s.rget Reg.pxeDeckle1) = deckle then s
    else (s.fput Reg.pxeStat_need (s.needFor s.poolCfg)).poolCheck

/-- The LB of a line (R13, R18, R136). -/
def State.lineLb (s : State) (n t : Nat) (feed : Int) : State :=
  let s := s.couchOver n
  let s : State :=
    if s.flag Reg.sysCommitHold_lb then { s with sys := { s.sys with lbHoldLines := s.sys.lbHoldLines + 1 } } else s
  let s := s.lbCommit n
  let s := s.lampLb
  let s := s.fput Reg.sysSetId_calender (s.fget Reg.fedCalAmp_id)
  let bank := s.fget Reg.shdBank_sel
  let s := s.each (List.range 64) (fun g s => s.segTemp g bank)
  let s := (s.trackLb n).geomLb
  let s := (s.absLb.bandLb n).exportLb n
  let s := s.monTriggerBy 1
  let above := s.flag Reg.lffStat_above
  let r := s.poolLb n (s.lineCfg t feed)
  let s := r.2
  let out := if s.binned then n / 2 * 2 else n
  let s := if s.flag Reg.motStat_func then s.flagResv out 2 else s
  let s := s.couchLine n
  if !above && s.flag Reg.lffStat_above then s.couchStart 1 else s

/-- A line starts (R239, R241): its LB is issued and its phases follow. -/
def State.startLine (s : State) (num : Nat) (feed : Int) : State :=
  let n := num % overlapBase
  let t := s.stamp.1
  let s := s.stamp.2
  let s : State := { s with
    seq := { s.seq with cur := some num, started := 0, held := none, closing := 0 }
    mot := { s.mot with overrun := s.mot.overrun && s.seq.next != n + 1 }
    pxe := { s.pxe with clampA := s.fget Reg.pxeCtrl_clamp_a } }
  let s := s.wput Reg.sysLine0 n
  if isOverlap num then s.overlapLb num t feed else s.lineLb n t feed

/-- A line trigger with its feed position (R241): the line starts, is held, or is an overrun. While the control island is lost
its line sequencer issues nothing (R12). The spec does not say what a line number does past its 48 bits: the model counts on, so
that a number from 2^48 on would be taken as an overlap line's (DESIGN CHOICE, log entry 87; unsafe). -/
def State.lineTrigger (s : State) (feed : Int) : State :=
  if s.sys.ctlLost then s else
  match s.triggerLine with
  | none => s
  | some (n, ov) =>
    let num := if ov then overlapBase + n else n
    let s : State :=
      if ov then
        { s with mot := { s.mot with couch := s.mot.couch.map (fun c => { c with overlap := c.overlap + 1 }) } }
      else { s with seq := { s.seq with next := n + 1 } }
    if s.seq.held.isSome then (if ov then s.overlapLost num else s.lineOverrun n feed)
    else if s.lineBusy then { s with seq := { s.seq with held := some (num, s.sys.now, feed) } }
    else s.startLine num feed

/-- Lines start by edges on an EVI input (R239: WEB with LSRC = 0b01). -/
def State.linesByEdge (s : State) : Bool := s.regime == 3 && s.fget Reg.motCtrl_lsrc == 1

/-- A trigger by position (R239): F exceeds the position of the line concerned. The header's feed position is the line's
own when F comes from steps (R239: F is interpolated), else F. -/
def State.positionTrigger (s : State) : State :=
  match s.triggerLine with
  | none => s
  | some (n, _) =>
    if s.linesByEdge then s
    else if s.linePos n * 2 ^ 32 < s.mot.f then
      s.lineTrigger (if s.feedQei.isSome || s.mot.jump then s.feedNm else s.linePos n)
    else s

/-- The held line starts (R241): at the end of the previous line's last phase, one phase period after the closing start pulse,
whose passing the command stands for, or once flush phases have ended. -/
def State.releaseHeld (s : State) : State :=
  match s.seq.held with
  | none => s
  | some (num, _, feed) =>
    let ended := match s.seq.cur with
      | some _ => decide (s.seq.phases ≤ s.seq.started)
      | none => s.vfe.reads == []
    if ended && !s.seq.waitFlush && s.vfe.flush == 0 then s.startLine num feed else s

/-- The mask of strings with 0 < lit < 800 in a zone (R106). -/
def State.diagMaskOf (s : State) : Nat :=
  (List.range 4).foldl (fun m c =>
    if s.enabledZones.any (fun z => decide (0 < s.litForce z c ∧ s.litForce z c < 800)) then m + 2 ^ c
    else m) 0

/-- DIAG_ARM at the start of the last colour phase of a selected line (R106). -/
def State.diagArm (s : State) (n k : Nat) : State :=
  let K := if s.fget Reg.lmpDiag_k = 0 then 16 else s.fget Reg.lmpDiag_k
  let m := s.diagMaskOf
  if s.hasDark && k + 1 == s.colourPhases && n % K == K - 1 && m != 0 then
    let s := s.each ((List.range 2).filter s.busUp) (fun b s => s.lbBroadcast b (.diagArm m))
    { s with lmp := { s.lmp with diagMask := m } }
  else s

/-- Strings that a phase's strobes light (R92, R93, R106). -/
def State.risers (s : State) (k : Nat) : List Nat :=
  if s.colour k = 5 then (List.range 4).filter (fun c => bitAt s.lmp.diagMask c) else colourStrings (s.colour k)

/-- The strobes of a phase are to rise (R93): none in a DARK phase without armed strings (R106). -/
def State.strobesDue (s : State) (k : Nat) : State :=
  { s with lmp := { s.lmp with rise := if s.risers k = [] then none else some k } }

/-- The next phase of the line in progress starts (R93): each live segment's start pulse is a hand-over point. -/
def State.linePhase (s : State) : State :=
  match s.seq.cur with
  | none => s
  | some num =>
    let k := s.seq.started
    if s.seq.phases ≤ k then s
    else
      let s := (s.handOverSegs true).startPulse (.line num k)
      let s : State := { s with seq := { s.seq with started := k + 1 } }
      (s.diagArm (num % overlapBase) k).strobesDue k

/-- The steps of a calibration as SHD_STAT.STEP shows them (R160, R166). -/
def CalStep.code : CalStep → Nat
  | .preparing | .flushing => 1
  | .dark => 2
  | .shutter => 3
  | .gain => 4
  | .writing => 5
  | .verify => 6
  | .returning => 7

/-- The next phase of a shading calibration's capture starts (R151, R152): the warm-up's end fixes what is excluded; no
strobe rises in a dark pass. The first phase after the entries are written is the verification's (R156, R160). -/
def State.calPhase (s : State) (c : Cal) : State :=
  let c := s.calWarmed c
  let runs := c.step == .dark || c.step == .gain || c.step == .verify
  if !runs || s.seq.waitFlush || decide (0 < s.vfe.flush) || s.seq.phases == 0 || s.lmp.delivering ||
      ((c.aborting || s.calPassDone c) && c.phase == 0) then s
  else
    let s := if c.phase = 0 then s.lampForce else s
    let line := if c.phase = 0 then c.lines else c.lines - 1
    let lines := if c.phase = 0 then c.lines + 1 else c.lines
    let s := (s.fput Reg.shdStat_step c.step.code).handOverSegs true
    let s := s.startPulse (.cal line c.phase)
    let s : State := { s with
      lmp := { s.lmp with rise := none, diagMask := 0 } }
    let s := if c.step = .dark then s else s.strobesDue c.phase
    s.setCal (some { c with lines := lines, phase := (c.phase + 1) % s.seq.phases })

/-- A phase starts (R93). -/
def State.phaseStart (s : State) : State :=
  match s.seq.cur, s.shd.cal with
  | some _, _ => s.linePhase
  | none, some c => s.calPhase c
  | none, none => s

/-- The closing start pulse of a line whose phases have ended with no further request (R434). After the job's end the
clocks stop with the readout in progress (R45). -/
def State.closeLine (s : State) : State :=
  match s.seq.cur, s.shd.cal with
  | none, none => s
  | none, some c =>
    match s.vfe.charge with
    | .cal _ _ => if c.phase = 0 then (s.handOverSegs false).startPulse .idle else s
    | _ => s
  | some _, _ =>
    if s.seq.started < s.seq.phases || s.seq.held.isSome || s.isSafe || s.vfe.stopping then s
    else
      let s := (s.handOverSegs false).startPulse .idle
      let s : State := { s with seq := { s.seq with cur := none, closing := s.sys.now + 10 * s.seq.period } }
      if s.running then s else s.stopClocks

/-- A calibration's next step; its passes count from 0, the accumulators are clear. -/
def State.calStep (s : State) (c : Cal) (st : CalStep) : State :=
  ((s.fput Reg.shdStat_step st.code).calClear).setCal
    (some { c with step := st, pass := 0, base := c.lines, phase := 0, counts := [] })

/-- The gain passes are made ready (R151, R154): lamp values are delivered, and axis 6 moves to TILE when SHUTTER is 1. -/
def State.calShutter (s : State) (c : Cal) : State :=
  let s := (s.calStep c .shutter).lampDeliver
  if s.flag Reg.shdCtrl_shutter then s.moveOrQueue 6 .shutter (toInt 32 (s.rget Reg.shdTile0).toNat) else s

/-- The flush phases of a capture are over (R151, R160). -/
def State.calFlushed (s : State) : State :=
  match s.shd.cal with
  | some c =>
    if c.step = .flushing then (if c.kind = 2 then s.calShutter c else s.calStep c .dark) else s
  | none => s

/-- The flush phases (R45): the clocks run, the readouts are discarded, and captured lines may start. -/
def State.flushPhases (s : State) : State :=
  if s.vfe.flush = 0 || s.lmp.delivering || s.isSafe || s.vfe.toVolt != [] then s
  else
    let s := (s.handOverSegs true).handOverSegs true
    State.calFlushed { s with
      vfe := { s.vfe with flush := 0, clocks := true, stopping := false, charge := .flush, reads := [] }
      seq := { s.seq with waitFlush := false } }

/-- What a readout's charge is checked as (R79): the phase and the line of its samples; nothing for flush and idle. -/
def Charge.phase : Charge → Option Nat
  | .line _ k => some k
  | .cal _ k => some k
  | _ => none

/-- The four taps of a readout are checked and assembled (R79, R69). Outside a job no line is named (R90). -/
def State.readTaps (s : State) (seg k line : Nat) (slices : List (Option Nat)) (taps : List TapRead) : List TapStage × State :=
  let line := if s.running then line else lineNone
  let roles := (List.range 4).map (fun t => (taps[t]?).map (fun r => (r, s.checkTap seg t k slices r)))
  let s := s.countRoles seg line (roles.flatMap (fun x => (x.map (·.2)).getD []))
  ((List.range 4).map (fun t => match roles.getD t none with
    | some (r, l) => s.stageTap seg t r (l.map (·.2))
    | none => TapStage.none), s)

/-- A segment's readout ends (R41, R42, R79, R92, R118, R434). A DARK phase's readout is checked and dropped; flush and idle
charge is discarded unchecked. -/
def State.readout (s : State) (seg : Nat) (r : Readout) : State :=
  match tget (fun _ => []) s.vfe.reads seg with
  | [] => s
  | p :: rest =>
    let s : State := { s with vfe := { s.vfe with
      reads := tput (fun _ => []) s.vfe.reads seg rest
      pulse := if rest = [] then tput (fun _ => 0) s.vfe.pulse seg 0 else s.vfe.pulse } }
    let s := s.showLoops seg (r.taps.map (·.loopUa))
    let s :=
      match p.charge with
      | .line n k =>
        let x := s.readTaps seg k (n % overlapBase) p.slices r.taps
        if k < x.2.colourPhases then x.2.stageReadout seg n k x.1 else x.2
      | .cal n k =>
        let x := s.readTaps seg k lineNone p.slices r.taps
        if k < x.2.colourPhases then x.2.calReadout seg n k x.1 else x.2
      | _ => s
    let cut := (List.range 4).foldl (fun t i => tput (fun _ => none) t (4 * seg + i) none) s.vfe.cutAt
    State.readEnded { s with vfe := { s.vfe with cutAt := cut } }

end Sys2Proof.Machine
end

