-- ==== Sys2Proof/Machine/SafeOps.lean ====
section
/-!
DEFINITION. The end of a job that SAFE or a feed stop forces (R20, R38, R236), entry into SAFE (R34 to R38), re-evaluation of
its causes and the way out (R39), lost islands (R12).
-/

namespace Sys2Proof.Machine

/-- A readout that a line in the pool still needs has neither begun nor can begin (R38). -/
def State.neverRead (s : State) (p : PLine) : Bool :=
  p.due.any (fun d => (tget (fun _ => []) s.vfe.reads d.2).all (fun x => x.charge != .line p.n d.1)) ||
    (p.cfg.bin && p.n % 2 == 0 && (s.pline (p.n + 1)).isNone)

/-- Capture ends: each line that will never be whole is rewound and marked with a cause (R38, R236, R300, R302). -/
def State.dropCapture (s : State) (cause : Nat) : State :=
  let s := (s.pxe.lines.filter s.neverRead).foldl (fun s p =>
    if (s.pline p.n).isNone then s
    else if isOverlap p.n then s.discardLine p.n
    else if p.cfg.bin then
      let m := p.n / 2 * 2
      ((s.discardLine m).discardLine (m + 1)).rewindLine m cause
    else (s.discardLine p.n).rewindLine p.n cause) s
  s.handOverLines

/-- CMD_DONE of an accepted JOB_STOP at the job's ending JB (R244, R346). -/
def State.stopDone (s : State) : State :=
  match s.mot.stopping with
  | none => s
  | some e =>
    let s : State := { s with mot := { s.mot with stopping := none } }
    if cmdNotify e then s.cmdDoneEvent 4 e.tag.toNat 0 else s

/-- What every end of a job does: the job is over, nothing more is captured, open bands close, an open gap will be written
out (R176, R301), couch and advance are dropped; a seam check that a line waits for goes on (R250). MOT_LINE_NEXT keeps the position it showed; a run of failing readouts names no
line any more (R90). -/
def State.jobOver (s : State) : State :=
  let s :=
    match s.triggerLine with
    | some (n, _) => s.wput48 Reg.motLineNext0 (s.linePos n)
    | none => s
  let s := (s.fput Reg.sysState_run 0).fput Reg.sysState_regime 0
  let s := s.bandsDrop.exportLb lineNone
  let s := (s.fput Reg.motStat_couch 0).fput Reg.motStat_adv_held 0
  let s := s.fput Reg.motStat_adv_run 0
  let s : State := { s with
    seq := { s.seq with held := none, armed := false, waitFlush := false }
    lff := { s.lff with closeDue := s.lff.gap.isSome }
    mot := { s.mot with couch := none, check := s.checkKept, adv := none, held := none, heldCmd := none }
    adc := { s.adc with firstSuspect := s.adc.firstSuspect.map (fun e => (e.1, e.2.map (fun _ => lineNone))) }
    vfe := { s.vfe with toVolt := [] } }
  s.stopDone

/-- SAFE or a feed stop ends the job with a JB that commits nothing (R20, R38, R236). -/
def State.abortJob (s : State) : State :=
  if s.running then
    let s := s.dropCapture 0x20
    let s : State := { s with
      seq := { s.seq with cur := none }
      vfe := { s.vfe with flush := 0, charge := .idle }
      lmp := { s.lmp with delivering := false, rise := none, diagMask := 0 } }
    s.jobOver
  else s

/-- A rail is outside its window, and below the threshold of its outputs where `low` holds (R416). -/
def State.railOut (s : State) (r : Rail) (low : Bool) : State :=
  let add (l : List Rail) : List Rail := if l.contains r then l else l ++ [r]
  { s with
    sys := { s.sys with
      railsOut := add s.sys.railsOut, railsBack := none, railsLow := if low then add s.sys.railsLow else s.sys.railsLow } }

/-- The outputs that the SAFE line itself drives (R11, R36). -/
def State.safeOutputs (s : State) : State :=
  let s := s.motionSafe.lampSafe
  let s : State := { s with
    dma := { s.dma with evo := [] }
    sys := { s.sys with safeNLow := true, faultNLow := true } }
  s.safePattern

/-- A shading calibration ends at once in SAFE (R159). -/
def State.calSafe (s : State) : State :=
  match s.shd.cal with
  | some c =>
    let s : State := { s with
      vfe := { s.vfe with flush := 0 }, seq := { s.seq with waitFlush := false }, lmp := { s.lmp with delivering := false } }
    s.calFinish { c with outcome := some 4 }
  | none => s

/-- What entry into SAFE does beside its outputs (R38): the job and a calibration end, the clocks stop, SAFE_ENTER. -/
def State.safeEntry (s : State) : State :=
  let s := s.abandonPulses.abortJob.trackSafe.calSafe.stopClocks
  let s := s.raise 0x0001 .safe 0 (pf 24 4 (s.fget Reg.sysSafeCause_val))
  s.statusBlock

/-- A SAFE cause arises (R34): its bits are set; when the device is not in SAFE it enters it (R36 to R38). -/
def State.enterSafe (s : State) (c : Cause) : State :=
  let s := s.latchCause c
  if s.isSafe then s else (s.fput Reg.sysState_safe 1).safeOutputs.safeEntry

/-- Whether the condition of a cause is gone, so that its latched bit may be cleared (R34). -/
def State.causeGone (s : State) : Cause → Bool
  | .image | .claim | .debug => false
  | .ext => !s.sys.extLow
  | .force | .motion => true
  | .island => (List.range 10).all (fun i => s.alive (64 + i))
  | .clock => !s.sys.refOut && (match s.sys.refBack with
      | some t => decide (t + 1000000 ≤ s.sys.now)
      | none => true)
  | .supply => s.sys.railsOut == [] && (match s.sys.railsBack with
      | some t => decide (t + 1000000 ≤ s.sys.now)
      | none => true)
  | .therm => !s.sys.hot
  | .ports => s.portUp 0 || s.portUp 1
  | .lampbus => !s.active .lampbus

def allCauses : List Cause :=
  [.image, .claim, .debug, .ext, .force, .island, .clock, .supply, .therm, .ports, .motion, .lampbus]

/-- Clear the latched bits of the causes of a mask whose condition is gone (R39). -/
def State.clearCauses (s : State) (mask : Nat) : State :=
  allCauses.foldl (fun s c =>
    if bitAt mask c.bit && s.causeGone c then
      (s.fput Reg.sysSafeCause_val (putBit (s.fget Reg.sysSafeCause_val) c.bit false)).clearActive c
    else s) s

/-- The causes whose condition is a level at the supplies and the reference clock, for a device that could not act on it when
it began (R34). -/
def State.levelCauses (s : State) : State :=
  let s := if s.sys.railsOut.isEmpty then s else s.enterSafe .supply
  if s.sys.refOut then s.enterSafe .clock else s

/-- SAFE is left (R39): SAFE_N is released, and FAULT_N once start-up is complete (R380). -/
def State.leaveSafe (s : State) : State :=
  let s := s.fput Reg.sysState_safe 0
  let s : State := { s with sys := { s.sys with safeNLow := false, faultNLow := !s.flag Reg.cfgStat_ready } }
  s.raise 0x0002 .info 0 0

/-- An immediate stop of a feed axis in a job has stopped the pair (R236): the job ends, lamps and clocks go off as at a
job's end. A followed WEB job, whose pair the device does not move, goes on (R252). -/
def State.feedStop (s : State) (a cause : Nat) : State :=
  if s.running && !(s.regime == 3 && s.flag Reg.motCtrl_webf) then
    let s := s.abandonPulses.abortJob.stopClocks
    let s : State := { s with lmp := { s.lmp with offArmed := true } }
    s.feedStopped a cause
  else s

/-- An island is declared lost (R12): `kind` is 1 for a missing heartbeat, 2 for its clock. -/
def State.islandLost (s : State) (i kind : Nat) : State :=
  if s.alive i then
    let s := (s.setAlive i false).raise 0x0003 .fault i (pf 22 1 kind)
    if i < 64 then
      let s := if s.segEn i && s.segPresent i then s.fput (Reg.vfeSegStat_state i) 5 else s
      let s : State := { s with vfe := { s.vfe with lostSeg := tput (fun _ => false) s.vfe.lostSeg i true } }
      (s.segGone i).groupDown i
    else if i < 73 then s.enterSafe .island
    else if i = 73 then s
    else (s.linkDark (i - 74)).portDown (i - 74) 1 0
  else s

/-- An island's heartbeat is there again (R34): a central island's return ends the condition of cause ISLAND. -/
def State.islandBack (s : State) (i : Nat) : State :=
  let s := s.setAlive i true
  if s.causeGone .island then s.clearActive .island else s

end Sys2Proof.Machine
end

