-- ==== Sys2Proof/Machine/CmdOps.lean ====
section
/-!
DEFINITION. Processing of ring commands (R344, R345): the entry at the head of those taken, acceptance, refusal.
-/

namespace Sys2Proof.Machine

/-- A command is refused (R345, R349, R350): CMD_REFUSED, and CONFLICT for reason 4 with the command's opcode (or, for a
TABLE_LOAD, its destination). -/
def State.cmdRefuse (s : State) (op : Nat) (e : CmdEntry) (reason extra : Nat) : State :=
  let s := s.rput Reg.cmdLast (BitVec.ofNat 32 (op * 2 ^ 24 + reason * 2 ^ 16 + e.tag.toNat))
  let s := s.bump Reg.cmdCntRefused_val 1
  let s := s.raise 0x3002 .warn e.tag.toNat (pf 22 1 op + pf 23 1 reason + extra)
  if reason = 4 then
    if op = 7 then s.raise 0x0007 .warn 0 (pf 22 1 4 + pf 24 4 (loadDst e) + pf 28 2 e.tag.toNat)
    else s.raise 0x0007 .warn 0 (pf 22 1 2 + pf 24 4 op + pf 28 2 e.tag.toNat)
  else s

/-- A command is accepted (R345, R356). -/
def State.cmdAccept (s : State) (op : Nat) (e : CmdEntry) : State :=
  (s.rput Reg.cmdLast (BitVec.ofNat 32 (op * 2 ^ 24 + e.tag.toNat))).bump Reg.cmdCntDone_val 1

/-- CMD_DONE of an accepted command, with NOTIFY (R345). -/
def State.cmdDone (s : State) (op : Nat) (e : CmdEntry) (pay : Nat) : State :=
  if cmdNotify e then s.cmdDoneEvent op e.tag.toNat pay else s

/-- A command is accepted and done at once. -/
def State.cmdFinish (s : State) (op : Nat) (e : CmdEntry) (pay : Nat) : State := (s.cmdAccept op e).cmdDone op e pay

/-- The ring is not held: no SAFE_CLEAR waits, no device reset is due by command, the control island lives (R345 to R347,
R12). -/
def State.ringOpen (s : State) : Bool := s.sys.safeClear.isNone && !s.cmd.stopped && !s.sys.ctlLost

/-- Entries at the head whose CHECK failed three times are refused with reason 8 (R344). -/
def State.skipBad (s : State) : List Taken → State
  | [] => { s with cmd := { s.cmd with taken := [] } }
  | t :: r =>
    if t.bad then (s.cmdRefuse t.op t.entry 8 0).skipBad r else { s with cmd := { s.cmd with taken := t :: r } }

/-- What follows a command: the next entry may be examined. -/
def State.cmdNext (s : State) : State := if s.ringOpen then s.skipBad s.cmd.taken else s

/-- Process the command at the head of the entries taken (R345), when it is the one given: reserved FLAGS bits refuse it
with reason 7. -/
def State.command (s : State) (op : Nat) (e : CmdEntry) (f : State → State) : State :=
  match s.cmd.taken with
  | [] => s
  | t :: r =>
    if t.op = op ∧ t.entry = e ∧ t.bad = false ∧ s.ringOpen = true then
      let s : State := { s with cmd := { s.cmd with taken := r } }
      if cmdFlagsBad e then (s.cmdRefuse op e 7 0).cmdNext else (f s).cmdNext
    else s

/-- A command that SAFE refuses (R38). -/
def State.notSafe (s : State) (op : Nat) (e : CmdEntry) (f : State → State) : State :=
  if s.isSafe then s.cmdRefuse op e 2 0 else f s

end Sys2Proof.Machine
end

