-- ==== Sys2Proof/Machine/AnaOps.lean ====
section
/-!
DEFINITION. What follows a line's commit (R163, R248, R299), the analysis island's read of a committed line with the streak
monitor (R168, R188 to R191), and context exports (R192).
-/

namespace Sys2Proof.Machine

/-- The next line commits (R299): margin drift and the couch store take it. -/
def State.commitNext (s : State) : State :=
  match s.nextCommit with
  | none => s
  | some (n, r) =>
    let s := (s.commitLine n r).driftCommit r
    if r.cfg.paced then s.putStrips false { n := n, cfg := r.cfg, runs := r.runs, com := s.sys.now } else s

/-- The pixels of a cell, `none` where one holds no-data or is missing (R168, R188). -/
def LineImg.cell (i : LineImg) (k x n : Nat) : Option (List Nat) :=
  let px := (List.range n).map (fun d => (i.at k (x + d)).getD 0xFFFF)
  if px.contains 0xFFFF then none else some px

/-- A cell is flat when its range, without the two highest and the two lowest values, is within the limit. -/
def flatCell (tol : Nat) (px : List Nat) : Bool :=
  let l := ((px.mergeSort (fun a b => decide (a ≤ b))).drop 2).dropLast.dropLast
  decide (l.getLastD 0 ≤ l.headD 0 + tol)

/-- The flat cells of a line: first pixel and values; and the number of cells. -/
def State.flatCells (s : State) (i : LineImg) : List (Nat × List Nat) × Nat :=
  let k := s.fget Reg.nzlStreak_chan
  let n := ceilDiv i.cfg.width 64
  let tol := s.fget Reg.nzlStreakFlat_flat_tol
  ((List.range n).filterMap (fun j =>
    let x := i.cfg.start + 64 * j
    match i.cell k x (min 64 (i.cfg.width - 64 * j)) with
    | some px => if flatCell tol px then some (x, px) else none
    | none => none), n)

/-- Column profiles take a line's flat cells (R189). -/
def State.profLine (s : State) (cells : List (Nat × List Nat)) : State :=
  let add (t : Table (Nat × Nat)) (c : Nat × List Nat) : Table (Nat × Nat) :=
    (List.range c.2.length).foldl (fun t d =>
      let p := tget (fun _ => (0, 0)) t (c.1 + d)
      tput (fun _ => (0, 0)) t (c.1 + d) (p.1 + c.2.getD d 0, p.2 + 1)) t
  { s with nzl := { s.nzl with prof := cells.foldl add s.nzl.prof } }

/-- The contrasts of the columns that a span evaluates (R189). -/
def State.spanContrasts (s : State) : List (Nat × Int) :=
  let least := 2 ^ (s.fget Reg.nzlStreak_sm - 1)
  let ev := s.nzl.prof.filterMap (fun e =>
    if least ≤ e.2.2 then some (e.1, rdiv (e.2.1 : Nat) (e.2.2 : Nat)) else none)
  ev.filterMap (fun e => (contrast e.2 (neighbours ev e.1)).map (fun k => (e.1, k)))

/-- One column's run, STREAK bit and quiet spans at a span end (R189): `enter` says whether it enters STREAK. -/
def State.spanColumn (s : State) (last x : Nat) (k : Int) (enter : Bool) : State :=
  let thr := s.fget Reg.nzlStreak_thr
  let conf := s.fget Reg.nzlStreak_conf_s
  let was := tget (fun _ => false) s.nzl.streak x
  let q := if was ∧ 2 * k.natAbs < thr then tget (fun _ => 0) s.nzl.quiet x + 1 else 0
  let leave := was && decide (conf ≤ q)
  let s : State := { s with
    nzl := { s.nzl with
      streak := tput (fun _ => false) s.nzl.streak x ((was && !leave) || enter)
      quiet := tput (fun _ => 0) s.nzl.quiet x (if leave then 0 else q) } }
  if enter then
    let s := s.streakEvent true false x last k
    if s.flag Reg.nzlStreak_point then s.streakPointer x else s
  else if leave then s.streakEvent false false x last k
  else s

/-- A span ends (R189). -/
def State.spanEnd (s : State) : State :=
  let thr := s.fget Reg.nzlStreak_thr
  let conf := s.fget Reg.nzlStreak_conf_s
  let last := s.capLine ((s.nzl.span + 1) * 2 ^ s.fget Reg.nzlStreak_sm - 1)
  let ks := s.spanContrasts
  let run := ks.foldl (fun t e =>
    tput (fun _ => 0) t e.1 (if thr ≤ e.2.natAbs then min conf (tget (fun _ => 0) t e.1 + 1) else 0)) s.nzl.run
  let old := s.nzl.streak
  let near (x y : Nat) : Bool := decide (x ≤ y + 4 ∧ y ≤ x + 4)
  let qual := ks.filter (fun e =>
    decide (conf ≤ tget (fun _ => 0) run e.1) && !old.any (fun b => b.2 && near b.1 e.1))
  let enter (e : Nat × Int) : Bool :=
    qual.contains e && !qual.any (fun f => near f.1 e.1 &&
      decide (e.2.natAbs < f.2.natAbs ∨ (e.2.natAbs = f.2.natAbs ∧ f.1 < e.1)))
  let s : State := { s with nzl := { s.nzl with run := run, prof := [], span := s.nzl.span + 1 } }
  ks.foldl (fun s e => s.spanColumn last e.1 e.2 (enter e)) s

/-- A line is evaluated for a row streak (R190). -/
def State.rowEval (s : State) (l : Nat) : State :=
  match s.nzl.rows.find? (fun e => e.1 == l) with
  | none => s
  | some e =>
    match contrast e.2 (neighbours s.nzl.rows l) with
    | none => s
    | some k =>
      let near (m : Nat) : Bool := decide (m ≤ l + 4 ∧ l ≤ m + 4)
      let told := s.nzl.rowRep.any near || s.nzl.rowK.any (fun f => near f.1 && decide (k.natAbs < f.2.natAbs))
      let s : State := { s with nzl := { s.nzl with rowK := ((l, k) :: s.nzl.rowK).take 16 } }
      if decide (s.fget Reg.nzlStreak_thr ≤ k.natAbs) && !told then
        let s : State := { s with nzl := { s.nzl with rowRep := (l :: s.nzl.rowRep).take 16 } }
        s.streakEvent true true l (s.capLine l) k
      else s

/-- The streak monitor takes a line (R188 to R190); `before` is the output line that was to be read next, `upto` the one that
is to be read after it, lines dropped between them among those passed. -/
def State.streakLine (s : State) (i : LineImg) (before upto : Nat) : State :=
  let bin := bitAt i.cfg.fmt 1
  let l := outLine bin i.n
  if !s.flag Reg.nzlStreak_en then s
  else
    let cells := s.flatCells i
    let len := 2 ^ s.fget Reg.nzlStreak_sm
    let s :=
      if s.flag Reg.nzlStreak_col_en then
        let s := if s.nzl.span < l / len then
            let s := s.spanEnd
            { s with nzl := { s.nzl with span := l / len } }
          else s
        let s := s.profLine cells.1
        if s.nzl.span < upto / len then
          let s := s.spanEnd
          { s with nzl := { s.nzl with span := upto / len } }
        else s
      else s
    if s.flag Reg.nzlStreak_row_en then
      let px := cells.1.flatMap (fun c => c.2)
      let s : State :=
        if px ≠ [] ∧ cells.2 ≤ 2 * cells.1.length then
          { s with nzl := { s.nzl with rows := ((l, rdiv (px.foldl (· + ·) 0 : Nat) px.length) :: s.nzl.rows).take 32 } }
        else s
      ((List.range (upto - before)).map (fun d => before + d)).foldl (fun s m => if 8 ≤ m then s.rowEval (m - 8) else s) s
    else s

/-- Lines that no open band can need any more leave the history. -/
def State.histTrim (s : State) : State :=
  let bin := s.binned
  let top := outLine bin s.nzl.readTo
  let least := s.nzl.bands.foldl (fun m b => min m (outLine bin b.lb)) top
  { s with nzl := { s.nzl with hist := s.nzl.hist.filter (fun i => decide (least ≤ outLine bin i.n + 128)) } }

/-- Items of a packet whose parity fails, as distances from its start (R291). -/
def State.badItems (s : State) (pos n : Nat) : List Nat :=
  ((s.lff.poison.filter (fun e => e.2)).map (fun e => (e.1 / 2 + fifoItems - pos % fifoItems) % fifoItems)).eraseDups.filter
    (fun d => decide (4 ≤ d ∧ d < n))

/-- The analysis island finishes reading the oldest committed line (R168, R306). -/
def State.analysisRead (s : State) : State :=
  match s.lff.analysis with
  | [] => s
  | (pos, i) :: rest =>
    let bad := s.badItems pos (4 + i.cfg.c * i.cfg.plane / 16)
    let i : LineImg := { i with bad := bad }
    let s := s.bump (Reg.lffCntPoison_val) bad.length
    let bin := bitAt i.cfg.fmt 1
    let before := outLine bin s.nzl.readTo
    let upto := if rest = [] then max (nextLine bin i.n) (nextLine bin (s.wget Reg.lffLastCommit0)) else nextLine bin i.n
    let s : State := { s with
      lff := { s.lff with analysis := rest }
      nzl := { s.nzl with hist := i :: s.nzl.hist, readTo := upto } }
    let s := s.trackLine i
    let s := s.each s.busyWins (fun w s => s.patchesDone w (outLine bin upto))
    let s := s.chunksReady
    (s.streakLine i before (outLine bin upto)).histTrim.advanceFree

/-- The bytes of an export (R192). -/
def Export.bytes (x : Export) : List Byte :=
  leBytes 4 x.first ++ leBytes 4 x.count ++ leBytes 6 x.line ++ zeros 2 ++ leBytes 8 x.time ++ leBytes 4 x.band ++ zeros 4 ++
    leBytes 4 (crc32c x.data) ++ zeros 28 ++ x.data

/-- The channel of exports runs or comes to rest. -/
def State.exportChannel (s : State) (on : Bool) : State :=
  let c := s.fget Reg.nzlCtrl_expch
  (s.setCh c { DmaCh.init with use := if on then .ctxExport else .none }).setChState c (if on then 2 else 0)

/-- An export begins (R192): outside a job its export point is now. -/
def State.exportBegin (s : State) (x : Export) : State :=
  let x := if s.running then x else s.exportTake x lineNone
  let s : State := { s with nzl := { s.nzl with exp := some x } }
  (s.fput Reg.nzlStat_exp_busy 1).exportChannel true

/-- Reason for which CONTEXT_EXPORT is refused, 0 when it is accepted (R192). -/
def State.exportReason (s : State) (e : CmdEntry) : Nat :=
  let n := expCount e
  if cmdArg e 0 / 2 ^ 20 ≠ 0 ∨ cmdArg e 1 / 2 ^ 21 ≠ 0 then 7
  else if expFirst e % 4 ≠ 0 ∨ n % 4 ≠ 0 ∨ n < 4 ∨ 655360 < expFirst e + n ∨ expDst e % 64 ≠ 0 ∨
      s.rangeOk (expDst e) (64 + 16 * n) true = false then 1
  else if s.owner 3 (s.fget Reg.nzlCtrl_expch) ≠ 10 then 4
  else if s.nzl.expHeld.isSome then 3
  else 0

/-- CONTEXT_EXPORT (R192, R346): one more is held while an export runs. -/
def State.contextExport (s : State) (e : CmdEntry) : State :=
  let r := s.exportReason e
  if r ≠ 0 then s.cmdRefuse 0x0A e r 0
  else
    let x : Export := { first := expFirst e, count := expCount e, dst := expDst e, taken := false, line := 0, time := 0
                        band := 0, data := [] }
    let s :=
      if s.nzl.exp.isSome then
        let x := if s.running then x else s.exportTake x lineNone
        ({ s with nzl := { s.nzl with expHeld := some x } } : State).fput Reg.nzlStat_exp_pend 1
      else s.exportBegin x
    s.cmdFinish 0x0A e 0

/-- The held export follows (R192). -/
def State.exportNext (s : State) : State :=
  match s.nzl.expHeld with
  | none => s
  | some x =>
    let s : State := { s with nzl := { s.nzl with exp := some x, expHeld := none } }
    ((s.fput Reg.nzlStat_exp_pend 0).fput Reg.nzlStat_exp_busy 1).exportChannel true

/-- An export ends (R192): its bytes are written and EXPORT_DONE is raised, or its channel halts; how many contexts have
been written by then is a free value. -/
def State.exportDone (s : State) (ok : Bool) : State :=
  match s.nzl.exp with
  | none => s
  | some x =>
    if !x.taken then s
    else
      let c := s.fget Reg.nzlCtrl_expch
      let host := isHost x.dst
      let refused := !host && s.dstRule x.dst (64 + 16 * x.count) == .refuse
      let put (s : State) (bs : List Byte) : State := if host then s.dmaWrite x.dst bs else s.outerStore .ring x.dst bs
      let s : State := { s with nzl := { s.nzl with exp := none } }
      let s := s.fput Reg.nzlStat_exp_busy 0
      if refused then
        let s := (s.dmaConflict c x.dst).dmaHalt c 3
        (s.raiseAt 0xA009 .warn 0 x.line (pf 24 4 x.count)).exportNext
      else if ok then
        let s := (put s x.bytes).exportChannel false
        (s.raiseAt 0xA008 .info 0 x.line (pf 24 4 x.count + pf 28 4 x.count)).exportNext
      else
        let m := Config.openNat s.fresh % (x.count + 1)
        let s : State := { s with fresh := s.fresh + 1 }
        let s := (put s (x.bytes.take (64 + 16 * m))).dmaHalt c (if host then 5 else 6)
        (s.raiseAt 0xA009 .warn 0 x.line (pf 24 4 x.count + pf 28 4 m)).exportNext

end Sys2Proof.Machine
end

