-- ==== Sys2Proof/Machine/CalOps.lean ====
section
/-!
DEFINITION. Shading calibrations, checks and memory tests as a course of steps (R149 to R162).
-/

namespace Sys2Proof.Machine

/-- Any calibration, check or memory test runs (R150). -/
def State.calAny (s : State) : Bool := s.shd.cal.isSome || s.shd.check != [] || s.shd.mbist != []

/-- Reason for which CAL_START is refused, 0 when it is accepted (R150, R161, R380, R431); a reserved axis 6
moves no shutter (R375). -/
def State.calReason (s : State) (e : CmdEntry) : Nat :=
  let b := 1 - s.fget Reg.shdBank_sel
  if calBad e then 7
  else if calKind e = 0 ∨ 4 < calKind e ∨ calN e = 0 ∨ 8 < calN e then 1
  else if s.isSafe ∨ s.flag Reg.cfgStat_ready = false then 2
  else if calKind e ≠ 4 ∧ (s.running ∨ (s.flag Reg.shdCtrl_shutter = true ∧
      (s.flag (Reg.motAxStat_ref 6) = false ∨ s.moving 6 = true ∨ s.flag (Reg.motAxStat_unc 6) = true))) then 2
  else if s.calAny then 3
  else if s.bankBad b then 5
  else if s.bankPend = some b ∨ s.bankBusy b then 4
  else if calKind e ≠ 4 ∧ s.flag Reg.shdCtrl_shutter = true ∧ s.owner 4 6 = 12 then 4
  else 0

/-- A calibration is accepted (R151): limits and targets are latched. -/
def State.calBegin (s : State) (e : CmdEntry) : State :=
  let b := 1 - s.fget Reg.shdBank_sel
  let c : Cal := {
    step := .preparing, kind := calKind e, n := calN e, auto := calAuto e, src := calSrc e, clrdef := calClrdef e
    target := b, trusted := s.bankValid (if calSrc e then b else s.fget Reg.shdBank_sel)
    lat := [Reg.shdTarget0, Reg.shdTarget1, Reg.shdLimDark0, Reg.shdLimDark1, Reg.shdLimGain0, Reg.shdLimGain1,
      Reg.shdLimBank].map (fun a => (s.rget a).toNat)
    pass := 0, lines := 0, base := 0, phase := 0, counts := [], excl := [], darkFail := [], failed := 0, kept := 0
    marked := 0, total := 0, tf := [], tseg := [], tsegSet := false, used := [], aborting := false, outcome := none }
  (s.fput Reg.shdStat_step CalStep.preparing.code).setCal (some c)

/-- CAL_START (R149, R150): a check, or a calibration. -/
def State.calStart (s : State) (e : CmdEntry) : State :=
  let r := s.calReason e
  if r ≠ 0 then s.cmdRefuse 9 e r 0
  else
    let s :=
      if calKind e = 4 then
        { s with shd := { s.shd with check := s.shd.check ++ [1 - s.fget Reg.shdBank_sel] } }
      else s.calBegin e
    s.cmdFinish 9 e 0

/-- The target bank is prepared once no line uses it any more (R19, R151), and the capture starts. -/
def State.calPrepared (s : State) : State :=
  match s.shd.cal with
  | none => s
  | some c =>
    if c.step ≠ .preparing ∨ s.bankHeld c.target = true then s
    else
      let s := (s.calPrepare c).setCal (some { c with step := .flushing })
      let s : State := { s with
        vfe := { s.vfe with flush := 2 }
        seq := { s.seq with waitFlush := true }
        pxe := { s.pxe with acc := [], clampA := s.fget Reg.pxeCtrl_clamp_a }
        lmp := { s.lmp with offArmed := false } }
      s.setLampEn true

/-- The capture is over (R96, R157, R159): clocks and lamps go off, the shutter returns to PARK. -/
def State.calReturn (s : State) (c : Cal) : State :=
  let s := (s.fput Reg.shdStat_step CalStep.returning.code).setCal (some { c with step := .returning })
  let s : State := { s with
    vfe := { s.vfe with flush := 0 }, seq := { s.seq with waitFlush := false }
    lmp := { s.lmp with offArmed := s.flag Reg.lmpStat_lamp_en, delivering := false, rise := none } }
  let s := s.stopClocks
  if s.flag Reg.shdCtrl_shutter then s.moveOrQueue 6 .shutter (toInt 32 (s.rget Reg.shdTile1).toNat) else s

/-- The verdict (R157): the header is written and VALID set, or not. -/
def State.calVerdict (s : State) (c : Cal) : State :=
  let v := c.verdict.1
  let s := if v.isNone then s.calHeader c else s
  s.calReturn { c with outcome := v }

/-- A pass of the present step may end (R152, R156): no line of the capture is in progress, and the pass has what it needs. -/
def State.calPassEnds (s : State) (c : Cal) : Bool :=
  let still := c.phase == 0 && s.vfe.reads == [] && (match s.vfe.charge with
    | .cal _ _ => false
    | _ => true)
  still && (c.step == .dark || c.step == .gain || c.step == .verify) &&
    (s.calPasses == 0 || c.aborting || s.calPassDone c)

/-- The pass is the last of its step. -/
def State.calLastPass (s : State) (c : Cal) : Bool := decide (s.calPasses ≤ c.pass + 1)

/-- The next pass of the same step. -/
def State.calNextPass (s : State) (c : Cal) : State :=
  s.calClear.setCal (some { c with pass := c.pass + 1, base := c.lines, phase := 0, counts := [] })

/-- A dark, gain or not yet last verification pass ends (R152 to R156). -/
def State.calPassEnd (s : State) : State :=
  match s.shd.cal with
  | none => s
  | some c =>
    let c := s.calWarmed c
    if !s.calPassEnds c then s
    else if c.aborting then s.calReturn c
    else
      let last := s.calLastPass c
      match c.step with
      | .dark =>
        let r := s.calDark c
        if !last then r.1.calNextPass r.2
        else if c.kind = 1 then r.1.calVerdict r.2
        else r.1.calShutter r.2
      | .gain =>
        let r := s.calGain c
        if !last then r.1.calNextPass r.2
        else (r.1.calTref r.2).calStep r.2 (if s.calPasses = 0 then .verify else .writing)
      | .verify => if last then s else (s.calRnu c).calNextPass c
      | _ => s

/-- Shutter at TILE and lamps committed (R154, R160). -/
def State.calSettled (s : State) : State :=
  match s.shd.cal with
  | none => s
  | some c =>
    let there := !s.flag Reg.shdCtrl_shutter ||
      (!s.moving 6 && s.axPos 6 == toInt 32 (s.rget Reg.shdTile0).toNat)
    if c.step = .shutter ∧ s.lmp.delivering = false ∧ there = true then s.calStep c .gain else s

/-- The verification ends (R156, R157). -/
def State.calVerifyEnd (s : State) : State :=
  match s.shd.cal with
  | none => s
  | some c =>
    let c := s.calWarmed c
    if s.calPassEnds c && !c.aborting && c.step == .verify && s.calLastPass c then
      (s.calRnu c).calVerdict c
    else s

/-- The calibration ends: at once, or when the shutter has arrived at PARK (R157, R159). -/
def State.calEnd (s : State) : State :=
  match s.shd.cal with
  | none => s
  | some c =>
    let there := !s.flag Reg.shdCtrl_shutter ||
      (!s.moving 6 && s.axPos 6 == toInt 32 (s.rget Reg.shdTile1).toNat)
    if c.step = .returning ∧ there = true then s.calFinish c else s

/-- CAL_ABORT (R159): the capture ends after the line in progress; once VALID may have been set it is ignored. -/
def State.calAbort (s : State) : State :=
  match s.shd.cal with
  | none => s
  | some c =>
    if c.step = .returning then s
    else
      let c := { c with aborting := true, outcome := some 3 }
      let lines := c.step == .dark || c.step == .gain || c.step == .verify
      if lines && !s.calPassEnds c then s.setCal (some c) else s.calReturn c

/-- A fault or an uncertain position of axis 6 ends a calibration's capture at once (R45, R159); no strobe follows. -/
def State.calAxis (s : State) : State :=
  match s.shd.cal with
  | none => s
  | some c =>
    let s : State := { s with
      vfe := { s.vfe with flush := 0 }, seq := { s.seq with waitFlush := false }
      lmp := { s.lmp with delivering := false, offArmed := s.flag Reg.lmpStat_lamp_en, rise := none, diagMask := 0 } }
    s.abandonPulses.stopClocks.calFinish { c with outcome := some 5 }

/-- A write of 1 to SHD_BANK_b_CTRL.CHECK (R161). -/
def State.checkStart (s : State) (b : Nat) : State := { s with shd := { s.shd with check := s.shd.check ++ [b] } }

/-- A write of 1 to SHD_BANK_b_CTRL.MBIST (R162). -/
def State.mbistStart (s : State) (b : Nat) : State :=
  ({ s with shd := { s.shd with mbist := s.shd.mbist ++ [b] } } : State).bankWritten b

/-- A memory test ends (R162): the bank is zeroed and not VALID; a row that cannot be repaired makes it BAD. -/
def State.mbistEnd (s : State) (b : Nat) (unrepaired : Option Nat) : State :=
  if !s.shd.mbist.contains b then s
  else
    let s := s.clear (bankBase b) 0x800000
    let s : State := { s with shd := { s.shd with mbist := s.shd.mbist.filter (· != b) } }
    match unrepaired with
    | none => s.fputB (bankBadFld b) false
    | some o => (s.fputB (bankBadFld b) true).raise 0x8006 .fault b (pf 24 4 o)

/-- BANK_COMMIT (R346, R431). -/
def State.bankCommit (s : State) (e : CmdEntry) : State :=
  let b := commitBank e
  let r := s.selectReason b
  if r ≠ 0 then s.cmdRefuse 8 e r 0 else (s.selectBank b).cmdFinish 8 e 0

end Sys2Proof.Machine
end

