-- ==== Sys2Proof/Machine/EngOps.lean ====
section
/-!
DEFINITION. The pools of pixel, nozzle and correlator engines (R135, R139 to R142, R185, R187, R199, R200): work taken and
done, parity errors, TEST and HOLD.
-/

namespace Sys2Proof.Machine

/-- Number of a pool, its engines, the source instance of its engine 0 (R143, R187, R200). -/
def engNum : EngKind → Nat
  | .pixel => 0
  | .nozzle => 1
  | .correlator => 2

def engCount : EngKind → Nat
  | .pixel => 48
  | .nozzle => 24
  | .correlator => 16

def engSrc : EngKind → Nat
  | .pixel => 0
  | .nozzle => 64
  | .correlator => 88

/-- Address of an engine's CTRL register, and the fields of CTRL and STAT; CNT follows. -/
def engCtrl : EngKind → Nat → Nat
  | .pixel, e => Reg.pxeEngCtrl e
  | .nozzle, e => Reg.nzlEngCtrl e
  | .correlator, e => Reg.trkEngCtrl e

def engHoldF (k : EngKind) (e : Nat) : Fld := ⟨engCtrl k e, 0, 1⟩
def engStateF (k : EngKind) (e : Nat) : Fld := ⟨engCtrl k e + 4, 30, 2⟩
def engBusyF (k : EngKind) (e : Nat) : Fld := ⟨engCtrl k e + 4, 29, 1⟩
def engPassF (k : EngKind) (e : Nat) : Fld := ⟨engCtrl k e + 4, 28, 1⟩
def engCntF (k : EngKind) (e : Nat) : Fld := ⟨engCtrl k e + 8, 0, 32⟩

def engKey (k : EngKind) (e : Nat) : Nat := 64 * engNum k + e

/-- The engine holds work. -/
def State.engWork (s : State) : EngKind → Nat → Bool
  | .pixel, e => (tget (fun _ => none) s.pxe.hold e).isSome
  | .nozzle, e => (tget (fun _ => none) s.nzl.hold e).isSome
  | .correlator, e => (tget (fun _ => none) s.trk.hold e).isSome

def State.engLeave (s : State) (k : EngKind) (e : Nat) : Option Nat := tget (fun _ => none) s.eng.leave (engKey k e)

def State.setLeave (s : State) (k : EngKind) (e : Nat) (r : Option Nat) : State :=
  { s with eng := { s.eng with leave := tput (fun _ => none) s.eng.leave (engKey k e) r } }

/-- The engine is in the pool and stays there. -/
def State.engIn (s : State) (k : EngKind) (e : Nat) : Bool := s.fget (engStateF k e) == 0 && (s.engLeave k e).isNone

/-- The engine that chooses next: idle engines choose in engine-number order (R135, R185, R199). -/
def State.engNext (s : State) (k : EngKind) : Option Nat :=
  (List.range (engCount k)).find? (fun e => s.engIn k e && !s.engWork k e)

/-- The pool after an engine has left or returned (R139). -/
def State.engPool (s : State) : EngKind → State
  | .pixel => s.poolCheck
  | _ => s

/-- The engine leaves the pool (R140, R141): reason 2 holds it out, any other starts its built-in test. -/
def State.engOut (s : State) (k : EngKind) (e reason : Nat) : State :=
  let s := (s.fput (engStateF k e) (if reason = 2 then 1 else 2)).setLeave k e none
  (s.raise 0x7001 .info (engSrc k + e) (pf 22 1 reason)).engPool k

/-- The engine returns to the pool (R140). -/
def State.engBack (s : State) (k : EngKind) (e reason : Nat) : State :=
  ((s.fput (engStateF k e) 0).raise 0x7002 .info (engSrc k + e) (pf 22 1 reason)).engPool k

/-- The engine is to leave: at once, or when its work is written (R140, R142). -/
def State.engGo (s : State) (k : EngKind) (e reason : Nat) : State :=
  if s.engWork k e then s.setLeave k e (some reason) else s.engOut k e reason

/-- A write of CTRL is refused during a job when the pool would be left too small (R140, R187, R200). -/
def State.engKeeps (s : State) (k : EngKind) (e val : Nat) : Bool :=
  let left := ((List.range (engCount k)).filter (fun i => s.engIn k i && i != e)).length
  let least := match k with
    | .pixel => s.fget Reg.pxeStat_need + 2
    | _ => 1
  s.running && s.engIn k e && (bitAt val 31 || bitAt val 0) && decide (left < least)

/-- An accepted write of CTRL (R140, R142). -/
def State.engWrite (s : State) (k : EngKind) (e val : Nat) : State :=
  let test := bitAt val 31
  let hold := bitAt val 0
  let s := s.fputB (engHoldF k e) hold
  match s.fget (engStateF k e), s.engLeave k e with
  | 0, none => if test then s.engGo k e 1 else if hold then s.engGo k e 2 else s
  | 0, some r =>
    if test then s.setLeave k e (some 1) else if !hold && r == 2 then s.setLeave k e none else s
  | 1, _ => if test then s.fput (engStateF k e) 2 else if !hold then s.engBack k e 2 else s
  | 3, _ => if test then s.fput (engStateF k e) 2 else s
  | _, _ => s

/-- The built-in test ends (R140): a passing engine returns unless HOLD is 1, a failing one is FAILED. -/
def State.engTested (s : State) (k : EngKind) (e : Nat) (pass : Bool) (mismatch : Nat) : State :=
  if s.fget (engStateF k e) ≠ 2 then s
  else
    let s := s.fputB (engPassF k e) pass
    if !pass then (s.fput (engStateF k e) 3).raise 0x7003 .fault (engSrc k + e) (pf 24 4 mismatch)
    else if s.flag (engHoldF k e) then s.fput (engStateF k e) 1
    else s.engBack k e 1

/-- An engine's work is over: it is counted, and an engine that has to leave does. -/
def State.engDone (s : State) (k : EngKind) (e : Nat) : State :=
  let s := (s.fput (engBusyF k e) 0).bump (engCntF k e) 1
  match s.engLeave k e with
  | some r => s.engOut k e r
  | none => s

def State.setHoldP (s : State) (e : Nat) (b : Option Blk) : State :=
  { s with pxe := { s.pxe with hold := tput (fun _ => none) s.pxe.hold e b } }
def State.setHoldN (s : State) (e : Nat) (c : Option Chunk) : State :=
  { s with nzl := { s.nzl with hold := tput (fun _ => none) s.nzl.hold e c } }
def State.setHoldC (s : State) (e : Nat) (h : Option CorrHold) : State :=
  { s with trk := { s.trk with hold := tput (fun _ => none) s.trk.hold e h } }

/-- The queue an idle pixel engine takes from (R135): its home queue, else the one with the oldest head, the lower number on
a tie. -/
def State.stealFrom (s : State) (e : Nat) : Option Nat :=
  if s.queue (e % 16) ≠ [] then some (e % 16)
  else
    (List.range 16).foldl (fun m q =>
      match (s.queue q).head? with
      | none => m
      | some b => match m with
        | none => some q
        | some r => match (s.queue r).head? with
          | some c => if b.age < c.age then some q else m
          | none => some q) none

/-- A pixel engine takes a block (R135). -/
def State.pixelTake (s : State) (e : Nat) : State :=
  if s.engNext .pixel ≠ some e then s
  else match s.stealFrom e with
    | none => s
    | some q => match s.queue q with
      | [] => s
      | b :: rest =>
        let s := ((s.setQueue q rest).setHoldP e (some b)).fput (engBusyF .pixel e) 1
        if q = e % 16 then s else s.bump Reg.pxeCntSteal_val 1

/-- A pixel engine has finished its block (R133). -/
def State.pixelDone (s : State) (e : Nat) : State :=
  match tget (fun _ => none) s.pxe.hold e with
  | none => s
  | some b => ((s.setHoldP e none).blockDone b).engDone .pixel e

/-- A nozzle engine takes a chunk (R185). -/
def State.nozzleTake (s : State) (e : Nat) : State :=
  if s.engNext .nozzle ≠ some e then s
  else match s.chunkNext with
    | none => s
    | some c =>
      let s : State := { s with nzl := { s.nzl with queue := s.nzl.queue.filter (· != c) } }
      (s.setHoldN e (some c)).fput (engBusyF .nozzle e) 1

/-- A nozzle engine has finished its chunk (R185). -/
def State.nozzleDone (s : State) (e : Nat) : State :=
  match tget (fun _ => none) s.nzl.hold e with
  | none => s
  | some c => ((s.setHoldN e none).chunkApply c).engDone .nozzle e

/-- A correlator engine takes the head of the queue and copies its patches (R199). -/
def State.corrTake (s : State) (e : Nat) : State :=
  if s.engNext .correlator ≠ some e then s
  else match s.trk.queue with
    | [] => s
    | i :: rest =>
      let p := s.corrCopy i.kind
      let s : State := { s with trk := { s.trk with queue := rest } }
      (s.setHoldC e (some { item := i, ref := p.1, cur := p.2 })).fput (engBusyF .correlator e) 1

/-- TRK_LAT keeps the largest time from the commit of a patch's last line to its result, in 10 µs (R199). -/
def State.trackLat (s : State) (com : Nat) : State :=
  s.fput Reg.trkLat_time (max (s.fget Reg.trkLat_time) (min 65535 ((s.sys.now - com) / 10000)))

/-- A correlator engine has finished its item (R199, R201, R203, R249). -/
def State.corrDone (s : State) (e : Nat) : State :=
  match tget (fun _ => none) s.trk.hold e with
  | none => s
  | some h =>
    let s := s.setHoldC e none
    let s := match h.item.kind with
      | .chain w r c => (s.chainDone w r c h).trackLat c.com
      | .tick w c => (s.tickDone w c h).trackLat c.com
      | .couch n => s.couchDone n h
    s.engDone .correlator e

/-- Work whose engine has found a parity error goes back to the head of its queue; work that has failed on three engines is
given up (R141, R187, R200). -/
def State.workBack (s : State) (k : EngKind) (e : Nat) : State :=
  match k with
  | .pixel => match tget (fun _ => none) s.pxe.hold e with
    | none => s
    | some b =>
      let s := s.setHoldP e none
      if (s.pline b.line).isNone then s
      else if 3 ≤ b.fails + 1 then s.dropLine b.line 2
      else s.setQueue b.kind.queue ({ b with fails := b.fails + 1 } :: s.queue b.kind.queue)
  | .nozzle => match tget (fun _ => none) s.nzl.hold e with
    | none => s
    | some c =>
      let s := s.setHoldN e none
      if 3 ≤ c.fails + 1 then s.chunkSkip c.stream c.num c.desc c.idx
      else { s with nzl := { s.nzl with queue := { c with fails := c.fails + 1 } :: s.nzl.queue } }
  | .correlator => match tget (fun _ => none) s.trk.hold e with
    | none => s
    | some h =>
      let s := s.setHoldC e none
      let i : CorrItem := { h.item with fails := h.item.fails + 1 }
      if 3 ≤ i.fails ∨ i = i.void ∧ i.isCouch = true then s.corrSkip i
      else { s with trk := { s.trk with queue := i :: s.trk.queue } }

/-- An engine finds a parity error (R141, R187, R200): its work goes back, and it leaves the pool for test. -/
def State.engParity (s : State) (k : EngKind) (e : Nat) : State :=
  if s.engWork k e then ((s.workBack k e).fput (engBusyF k e) 0).engOut k e 3 else s

end Sys2Proof.Machine
end

