-- ==== Sys2Proof/Machine/JobOps.lean ====
section
/-!
DEFINITION. Jobs (R1, R13, R433): the checks of JOB_START and the JB that starts a job, JOB_STOP and the ending JB, pass
advances (R242 to R244), couches (R246), fallback to voltage mode (R54, R55, R57).
-/

namespace Sys2Proof.Machine

/-- A tap of the segment is marked FAIL or BROKEN (R55). -/
def State.marked (s : State) (k : Nat) : Bool := (List.range 4).any (fun t => s.tapBad (4 * k + t))

/-- VFE_CTRL.FBK asks for the fallback to voltage mode; its codes 0b10 and 0b11 act as 0b00 (R64). -/
def State.fallsBack (s : State) : Bool := s.fget Reg.vfeCtrl_fbk == 1

/-- A segment's pixel clock for voltage mode (R57): the configured one is kept for training. -/
def State.voltClock (s : State) (k : Nat) : State :=
  let khz := s.fget (Reg.vfeSegClk_khz k)
  let s : State :=
    if tget (fun _ => 0) s.vfe.khz0 k = 0 then
      { s with vfe := { s.vfe with khz0 := tput (fun _ => 0) s.vfe.khz0 k khz } } else s
  s.fput (Reg.vfeSegClk_khz k) (min khz 20000)

/-- The order in which tokens of different kinds that reach an island together are applied (R23). -/
def tokenOrder : List Cls := [.jb, .pb, .mb, .lb]

/-- The JB of a JOB_START commits a class (R13, R16, R17): of every axis for MB. -/
def State.jobCommit (s : State) (c : Cls) : State :=
  if c = .mb then s.each (List.range 8) (fun a s => s.mbAtJob a) else s.boundaryClaims c

/-- The state with the settings that the JB of a JOB_START commits (R13, R16, R17, R23), those that an end by SAFE kept among
them (R20), the job's phases and period, and which segments will run in voltage mode (R55). A KHZ above 20,000 that pends when
its segment falls back commits here all the same, although the segment is then in voltage mode (DESIGN CHOICE, log entry
46). -/
def State.jobSettings (s : State) (e : CmdEntry) : State :=
  let s : State := { s with pend := s.pend.map (fun p => { p with stuck := false }) }
  let s := tokenOrder.foldl State.jobCommit s
  let s : State := { s with seq := { s.seq with phases := jobPhases e, period := jobPeriod e } }
  { s with
    vfe := { s.vfe with
      toVolt := if s.fallsBack then s.enabledSegs.filter (fun k => s.segPresent k && s.marked k && !s.inVolt k) else [] } }

/-- `jobSettings` with the clocks of the segments that will run in voltage mode (R55, R57). -/
def State.jobTrial (s : State) (e : CmdEntry) : State :=
  let t := s.jobSettings e
  t.each t.vfe.toVolt (fun k s => s.voltClock k)

/-- The first phase whose colour is refused (R92). -/
def colourFault (l : List Nat) : Option Nat :=
  (List.range l.length).find? (fun k =>
    let c := l.getD k 0
    decide (5 < c) || (c == 5 && (decide (k + 1 < l.length) || l.length == 1)) ||
      (colourStrings c).any (fun x => (l.take k).any (fun d => (colourStrings d).contains x)))

/-- LEAD and the fit of a phase's window (R94): LEAD holds `least`, and fits when raised for the clocks of a fallback. -/
def State.windowFits (s : State) (least k : Nat) : Bool :=
  let lead := s.fget (Reg.lmpPhaseWin_lead k)
  decide (least ≤ lead) && decide (max lead s.leadMin + s.widthOf k + 15 ≤ s.seq.period)

/-- The phases whose LEAD is below `least` get it (R94). -/
def State.raiseLeads (s : State) (least : Nat) : List Nat × State :=
  let up := (List.range s.seq.phases).filter (fun k => decide (s.fget (Reg.lmpPhaseWin_lead k) < least))
  (up, s.each up (fun k s => s.fput (Reg.lmpPhaseWin_lead k) least))

/-- In PACED the phase period is lengthened to the largest req and to what the windows need, with the LEAD that the state's
clocks ask for (R43, R94). -/
def State.fitPeriod (s : State) : State :=
  let p := (List.range s.seq.phases).foldl (fun p k =>
    max p (max (s.fget (Reg.lmpPhaseWin_lead k)) s.leadMin + s.widthOf k + 15)) (max s.seq.period s.reqMax)
  { s with seq := { s.seq with period := p } }

/-- In PACED the device raises LEAD and lengthens the phase period (R43, R94): the phases whose LEAD was raised. -/
def State.fitWindows (s : State) (least : Nat) : List Nat × State :=
  let r := s.raiseLeads least
  (r.1, r.2.fitPeriod)

/-- 64 bytes and the payload of a full-width line in the job's format (R337). -/
def State.fullLine (s : State) : Nat :=
  64 + s.colourPhases * ({ LineCfg.init with fmt := s.format, width := if s.binned then 163840 else 327680 } : LineCfg).plane

/-- Axis 6 is at rest at PARK with its position trusted (R160). -/
def State.parked (s : State) : Bool :=
  !s.moving 6 && s.flag (Reg.motAxStat_ref 6) && !s.flag (Reg.motAxStat_unc 6) &&
    s.axPos 6 == toInt 32 (s.rget Reg.shdTile1).toNat

/-- The checks of R433 in order, on the present state and on the state with the JB's settings, with the LEAD that the clocks
before a fallback ask for: check code, reason, index. -/
def State.jobCheck (s t : State) (least : Nat) (e : CmdEntry) : Option (Nat × Nat × Nat) :=
  let n := jobPhases e
  let r := jobRegime e
  let ks := List.range n
  let paced := r == 1
  let bank := t.fget Reg.shdBank_sel
  let need := t.needFor t.poolCfg
  let port := t.fget Reg.motFeedEnc_port
  let fail (c : Bool) (code reason idx : Nat) : Option (Nat × Nat × Nat) := if c then some (code, reason, idx) else none
  let at' (o : Option Nat) (code reason : Nat) : Option (Nat × Nat × Nat) := o.map (fun i => (code, reason, i))
  ((fail (n == 0 || decide (4 < n) || jobPeriod e == 0 || r == 0) 1 1 0)
    <|> fail s.isSafe 2 2 0
    <|> fail (!s.flag Reg.cfgStat_ready) 3 2 0
    <|> fail s.running 4 2 (s.fget Reg.sysState_job)
    <|> fail s.shd.cal.isSome 5 3 0
    <|> at' (colourFault (ks.map t.colour)) 6 1
    <|> at' (if paced then none else t.enabledSegs.find? (fun k => decide (t.seq.period < t.req k))) 7 1
    <|> at' (ks.find? (fun k => decide (t.widthOf k < 220) || (!paced && !t.windowFits least k))) 8 1
    <|> fail (!t.bankMatches bank t.binned t.colours) 9 5 bank
    <|> fail (decide (t.inPool < need)) 10 3 need
    <|> fail (t.flag Reg.shdCtrl_shutter && !t.parked) 11 2 0
    <|> at' (t.nzFirstBad t.binned) 12 1
    <|> at' (t.winFirstBad t.binned t.colourPhases) 13 1
    <|> at' ((List.range 256).find? (fun w =>
        let x := t.winEntry winShadow w
        x.kind != 0 && x.src == 1 && s.owner 1 x.g != 6)) 14 4
    <|> fail (r == 3 && s.owner 6 port != 2) 15 4 port
    <|> fail (decide (t.fget Reg.hstLineSlot_val < t.fullLine)) 16 5 0)

/-- PERIOD_ADJUST (R94, R350). -/
def State.periodAdjust (s : State) (up : List Nat) (longer : Bool) : State :=
  let one (k lead : Nat) (s : State) : State := s.raise 0x0008 .info 0 (pf 22 1 k + pf 24 4 s.seq.period + pf 28 2 lead)
  if up ≠ [] then s.each up (fun k s => one k (s.fget (Reg.lmpPhaseWin_lead k)) s)
  else if longer then one 0xFF 0 s
  else s

/-- LEAD is raised to what the clocks ask for after a fallback, with WINDOW_ADJUST (R94, R115). -/
def State.windowAdjust (s : State) : State :=
  let f := s.raiseLeads s.leadMin
  f.2.each f.1 (fun k s =>
    s.raise 0x900D .info 0 (pf 22 1 255 + pf 23 1 k + pf 24 2 (s.fget (Reg.lmpPhaseWin_lead k))))

/-- What the JB of JOB_START clears in tracking, seam loop and nozzle measurement (R172, R174, R189, R195, R198, R204, R206,
R208, R213, R215, R216). -/
def State.jobTracks (s : State) : State :=
  let keep := s.flag Reg.fedCtrl_keep
  let s := if s.holds .jb 0 then s else s.nzCommit
  let s := s.winJb.mapCommit (s.holds .pb 0)
  let s := s.bandsAge.clear 0x15724000 1024
  let s := ((s.rput Reg.fedSeamRes 0).rput Reg.fedSeamMean 0).fput Reg.fedStat_n 0
  let s := if keep then s else ((s.rput Reg.fedIntI 0).rput Reg.fedIntJ 0).rput Reg.fedWebScl 0
  { s with
    trk := { s.trk with acc := 0, sk := 0, sc := 0 }
    fed := { s.fed with
      seams := [], ring := [], firstPass := none, es := [], high := false, scl := if keep then s.fed.scl else 0
      sclHeld := keep && s.fed.sclHeld }
    nzl := { s.nzl with
      bands := [], queue := [], evi := [], pb := [], due := [], hist := [], readTo := 0, span := 0, prof := [], run := []
      streak := [], quiet := [], rows := [], rowK := [], rowRep := [], used := true, wrote := [] } }

/-- Segments at a JB of JOB_START (R12, R41, R45, R79): those that were lost and live again, binning, flush phases; the running
means of the sable samples start anew. -/
def State.jobSegs (s : State) : State :=
  let back := (List.range 64).filter (fun k => tget (fun _ => false) s.vfe.lostSeg k && s.alive k)
  let s := s.each back (fun k s =>
    let s : State := { s with vfe := { s.vfe with lostSeg := tput (fun _ => false) s.vfe.lostSeg k false } }
    let s := if s.segEn k && s.segPresent k then
        s.fput (Reg.vfeSegStat_state k) (if s.flag (Reg.vfeSegStat_fallback k) then 3 else 2) else s
    if s.segEn k then s.groupStartup k else s)
  let s := s.each (s.enabledSegs.filter s.segLive) (fun k s => s.segMode k 0 s.binned (s.inVolt k))
  let s := s.each (List.range 64) (fun g s => s.setGrp g { s.grp g with since := 0 })
  { s with vfe := { s.vfe with flush := 2 }, adc := { s.adc with means := [] } }

/-- Origin of the lines (R239): LOFS, raised to the run-up and MARGIN in PACED and WEB commanded. -/
def State.jobOrigin (s : State) (regime : Nat) : State :=
  let lofs : Int := (s.rget Reg.motLineOfs).toNat
  let least := s.runUpNm + s.fget Reg.motCouchMargin_margin
  let runs := regime == 1 || (regime == 3 && !s.flag Reg.motCtrl_webf)
  let short := runs && decide (lofs < least)
  let s : State := { s with mot := { s.mot with p0 := s.feedNm + if short then least else lofs } }
  if short then s.raise 0xC00A .info 0 (pfI 24 4 least) else s

/-- The JB of an accepted JOB_START (R13, R96, R99, R120, R164, R238, R239, R245, R252): `s` has the JB's settings. -/
def State.jobBegin (s : State) (e : CmdEntry) (up : List Nat) (longer : Bool) : State :=
  let r := jobRegime e
  let s := ((s.fput Reg.sysState_job (jobNumber e)).fput Reg.sysState_regime r).fput Reg.sysState_run 1
  let s : State := { s with
    seq := { s.seq with
      cur := none, started := 0, next := 0, held := none, waitFlush := true, armed := true, closing := 0 }
    mot := { s.mot with
      rem0 := 0, rem1 := 0, adv := none, held := none, heldCmd := none, stopping := none, couch := none, check := s.checkKept
      overrun := false, strip := [], jump := false }
    pxe := { s.pxe with acc := [], tgood := [], lostPair := none, short := false }
    lmp := { s.lmp with
      offArmed := false, diagMask := 0
      str := (s.lmp.str.map (fun x => (x.1, { x.2 with dimFloor := false }))).filter (fun x => x.2 != StrSt.init) } }
  let s := s.jobTracks.jobSegs
  let s := s.each (List.range 64) (fun z s => s.driftReset z)
  let s := (s.fput Reg.pxeStat_need (s.needFor s.poolCfg)).fput Reg.pxeStat_in_pool s.inPool
  let s := (s.fput Reg.motStat_func 0).feedUnc
  let s := s.updateVline.jobOrigin r
  let s := (s.setLampEn true).lampDeliver
  let s := (s.periodAdjust up longer).windowAdjust
  let s := s.dropQueued 0
  if r = 1 ∨ (r = 3 ∧ s.flag Reg.motCtrl_webf = false) then s.moveOrQueue 0 .forward beyondReach else s

/-- JOB_START (R346, R433). LEAD is checked and raised for the segments' clocks before a fallback of R55; the fallback
itself raises it at the JB (R94). -/
def State.jobStart (s : State) (e : CmdEntry) : State :=
  let least := (s.jobSettings e).leadMin
  let t := s.jobTrial e
  let f := if jobRegime e = 1 then t.fitWindows least else ([], t)
  match s.jobCheck f.2 least e with
  | some (code, reason, idx) => s.cmdRefuse 3 e reason (pf 24 1 code + pf 26 2 idx)
  | none =>
    let s := f.2.jobBegin e f.1 (t.seq.period < f.2.seq.period)
    s.cmdFinish 3 e 0

/-- In a binned job the even line of an output line whose odd line will never be captured is dropped (R127). -/
def State.dropHalf (s : State) : State :=
  let half := s.pxe.lines.filter (fun p =>
    p.cfg.bin && p.n % 2 == 0 && !isOverlap p.n && (s.pline (p.n + 1)).isNone)
  (half.foldl (fun s p => ((s.discardLine p.n).poolDropped p.n 3).rewindLine p.n 16) s).handOverLines

/-- The JB that ends a job (R13, R96): JB-class settings commit, KHZ and PHASE of R47 among them (DESIGN CHOICE, log entry 47:
R47 says the next JOB_START, R13 this JB); lamps and clocks go off after the last line. -/
def State.jobEnd (s : State) : State :=
  let s := (s.boundaryClaims .jb).dropHalf.jobOver.feedUnc
  let s : State := { s with lmp := { s.lmp with offArmed := true } }
  if s.seq.cur.isNone then s.stopClocks else s

/-- An accepted JOB_STOP's job may end (R244, R245, R252): no line is in progress, and the pair is at rest where the device
moves it. -/
def State.jobMayEnd (s : State) : Bool :=
  s.running && s.mot.stopping.isSome && s.seq.cur.isNone &&
    (if s.regime = 2 then s.mot.adv.isNone
     else s.regime == 3 && s.flag Reg.motCtrl_webf || (!s.moving 0 && (s.axis 0).queued.isNone))

/-- JOB_STOP (R244, R245, R251, R252, R346). -/
def State.jobStop (s : State) (e : CmdEntry) : State :=
  if !s.running then s.cmdRefuse 4 e 2 0
  else if s.mot.stopping.isSome then s.cmdRefuse 4 e 3 0
  else
    let s := s.cmdAccept 4 e
    let s := (s.fput Reg.motStat_adv_held 0).fput Reg.motStat_couch 0
    let s : State := { s with
      mot := { s.mot with stopping := some e, held := none, heldCmd := none, couch := none } }
    if s.regime = 2 ∧ s.mot.adv.isSome = true then s
    else
      let s : State := { s with seq := { s.seq with armed := false, held := none } }
      if s.regime = 2 ∨ (s.regime = 3 ∧ s.flag Reg.motCtrl_webf = true) then s else s.halt 0

/-- The pair may start an advance (R232, R242): it is idle, in no phase restoration, and not stopped by the loss of the control
island (R12). -/
def State.pairFree (s : State) : Bool :=
  s.running && !s.sys.ctlLost && s.mot.adv.isNone && !s.moving 0 && !s.moving 1 && (s.axis 0).restore.isNone &&
    (s.axis 1).restore.isNone

/-- The motion island accepts the held advance when the pair is idle and ABOVE is clear (R242, R304); CMD_DONE follows
acceptance (R346). -/
def State.advanceTry (s : State) : State :=
  match s.mot.held, s.mot.heldCmd with
  | some (p, a), some e =>
    if s.pairFree && !s.flag Reg.lffStat_above then
      let s := s.acceptAdvance p a
      let s : State := { s with mot := { s.mot with heldCmd := none } }
      s.cmdDone 5 e 0
    else s
  | _, _ => s

/-- ADVANCE (R242). -/
def State.advance (s : State) (e : CmdEntry) : State :=
  if !s.running || s.regime != 2 || s.mot.stopping.isSome || (s.axis 0).restore.isSome || (s.axis 1).restore.isSome then
    s.cmdRefuse 5 e 2 0
  else if s.mot.held.isSome then s.cmdRefuse 5 e 3 0
  else
    let s := s.cmdAccept 5 e
    let s : State := { s with mot := { s.mot with held := some (advPass e, advDistance e), heldCmd := some e } }
    (s.fput Reg.motStat_adv_held 1).advanceTry

/-- The PB of an advance (R13, R23, R244), after the last step of the later axis: PB-class settings and the calender map
commit, bands and windows see it; an accepted JOB_STOP ends the job here, else a held advance follows. Its MB comes after the
PB, as R23 orders them. No PB follows a stop by SAFE (R244). -/
def State.passBoundary (s : State) : State :=
  match s.mot.adv with
  | none => s
  | some v =>
    if !v.settling || s.sys.ctlLost || s.owed 0 != 0 || s.owed 1 != 0 then s
    else
      let s := s.setF (v.f0 + v.a * 2 ^ 32)
      let s := (s.boundaryClaims .pb)
      let s := s.mapCommit (s.flag Reg.sysCommitHold_pb)
      let s := (s.bandPb).trackPb v.pass
      let s := ({ s with mot := { s.mot with adv := none } } : State).fput Reg.motStat_adv_run 0
      if s.mot.stopping.isSome then s.jobEnd else s.advanceTry

/-- A couch dwell ends (R246): the back move begins, or the wait for the low mark. While the control island is lost nothing
moves (R12). -/
def State.couchDwell (s : State) : State :=
  match s.mot.couch with
  | none => s
  | some c =>
    if s.sys.ctlLost then s
    else if s.couchStep = 3 then (s.setCouchStep 4).moveStart 0 .couchBack ((s.axis 0).p.fdiv one48 - c.back)
    else if s.couchStep = 4 ∧ c.backDone = true then s.setCouchStep 5
    else s

/-- The forward run of a couch (R246): the fill is at or below the low mark and no fallback's switch is due. -/
def State.couchForward (s : State) : State :=
  match s.mot.couch with
  | none => s
  | some c =>
    if s.couchStep = 5 ∧ s.flag Reg.lffStat_above = false ∧ s.vfe.toVolt = [] ∧ s.sys.ctlLost = false then
      let s : State := { s with
        mot := { s.mot with
          check := some { line := c.n + 1, ended := 0, queued := false, out := 0, dys := [], verdict := none } } }
      (s.setCouchStep 6).moveStart 0 .forward beyondReach
    else s

/-- A break in a PACED job with the fallback chosen (R54): the segment is to be switched, and the feed couches; before the
first line capture waits for the switch and new flush phases. -/
def State.fallbackDue (s : State) (k : Nat) : State :=
  if s.running && s.regime == 1 && s.fallsBack && !s.inVolt k && s.mot.stopping.isNone then
    let s : State :=
      if s.vfe.toVolt.contains k then s else { s with vfe := { s.vfe with toVolt := s.vfe.toVolt ++ [k] } }
    if s.giveBack.seq.next = 0 ∧ s.seq.cur.isNone = true then
      { s with vfe := { s.vfe with flush := 2 }, seq := { s.seq with waitFlush := true } }
    else s.couchStart 2
  else s

/-- R94 after a fallback (R54): LEAD where it has to be raised, the phase period of a PACED job, vline, the pool's need. -/
def State.fallbackPeriod (s : State) : State :=
  let s := if s.regime = 1 then s.fitPeriod else s
  let s := s.windowAdjust.updateVline
  (s.fput Reg.pxeStat_need (s.needFor s.poolCfg)).poolCheck

/-- A segment's switch to voltage mode begins (R54 to R57): its readouts are over, a couch stands at steps 3 to 5 or capture
has not begun. Its MODE register is written with VM and the alternating pattern; `ok` and `loop` are what the check of the taps
will show once that write is acknowledged. -/
def State.voltageMode (s : State) (k : Nat) (ok : List Bool) (loop : List Nat) : State :=
  let idle := s.seq.cur.isNone && (tget (fun _ => []) s.vfe.reads k == [] || s.seq.waitFlush)
  let due := match s.mot.couch with
    | some _ => decide (3 ≤ s.couchStep ∧ s.couchStep ≤ 5)
    | none => s.seq.waitFlush
  if s.vfe.toVolt.contains k && idle && due && (s.switching k).isNone then
    let s := (s.voltClock k).fput (Reg.vfeSegStat_state k) 4
    let s := s.fput Reg.vfeVrefCtrl_en (putBit (s.fget Reg.vfeVrefCtrl_en) (k / 16) true)
    let s : State := { s with vfe := { s.vfe with
      switch := tput (fun _ => none) s.vfe.switch k (some ok)
      switchLoop := tput (fun _ => []) s.vfe.switchLoop k loop } }
    s.segMode k 1 s.binned true
  else s

/-- EQ and DLY of a tap after a fallback (R49, R56): DLY is the 1.5 clocks at which a voltage-mode receiver samples; EQ, which
is not used there and for which the spec gives no value, is free. -/
def State.voltRx (s : State) (k t : Nat) : State :=
  let eq := Config.openNat s.fresh
  let s := ({ s with fresh := s.fresh + 1 } : State).fput (Reg.vfeTapRx_eq k t) eq
  (s.fput (Reg.vfeTapRx_dly_clk k t) 1).fput (Reg.vfeTapRx_dly_frac k t) 32

/-- MODE.VM has been acknowledged (R57 steps 4 to 6): the receivers and the check, then the test pattern goes off. -/
def State.voltDone (s : State) (k : Nat) (ok : List Bool) : State :=
  let s := (s.fput (Reg.vfeSegStat_state k) 3).fput (Reg.vfeSegStat_fallback k) 1
  let s := s.each (List.range 4) (fun t s => s.voltRx k t)
  let s := s.showLoops k (tget (fun _ => []) s.vfe.switchLoop k)
  let s := s.segMode k 0 s.binned true
  let bad := (List.range 4).foldl (fun t i =>
    tput (fun _ => false) t (4 * k + i) (!ok.getD i false)) s.vfe.vbad
  let s : State := { s with
    vfe := { s.vfe with
      vbad := bad, toVolt := s.vfe.toVolt.filter (· != k), switch := tput (fun _ => none) s.vfe.switch k none
      switchLoop := tput (fun _ => []) s.vfe.switchLoop k [] } }
  let s := s.fallbackPeriod
  s.raise 0x5007 .info k (pf 24 4 s.seq.period)

end Sys2Proof.Machine
end

