-- ==== Sys2Proof/Machine/ReadOps.lean ====
section
/-!
DEFINITION. Reading registers (R7 to R9, R25 to R27): the values that mirror other state, multi-word values and their
latches, the snapshot and its views, fields that a read clears.
-/

namespace Sys2Proof.Machine

/-- A number with the given bits set. -/
def bitsOf (n : Nat) (p : Nat → Bool) : Nat := (List.range n).foldl (fun m i => m + b2n (p i) * 2 ^ i) 0

/-- Replace fields of a register's word by values computed now. -/
def State.withFields (s : State) (a : Nat) (l : List (Fld × Nat)) : Word :=
  BitVec.ofNat 32 (l.foldl (fun n x => putBits n x.1.lo x.1.w x.2) (s.rget a).toNat)

/-- Word `w` of a value. -/
def wordOf (v w : Nat) : Word := BitVec.ofNat 32 (v / 2 ^ (32 * w))

/-- The index of a family of registers that an address is, below `n`. -/
def famIx (f : Nat → Nat) (n a : Nat) : Option Nat := (List.range n).find? (fun i => f i == a)

/-- Pending shadows by class in the layout of SYS_COMMIT_HOLD (R33). -/
def State.commitPend (s : State) : Nat :=
  let has (p : Shadow → Bool) : Nat := b2n (s.pend.any p)
  has (fun p => p.cls == .lb) + 2 * has (fun p => p.cls == .pb) + 4 * has (fun p => p.cls == .jb) +
    8 * bitsOf 8 (fun a => s.pend.any (fun p => p.cls == .mb && p.axis == a) || (s.axis a).defer != [])

/-- Registers of the SYS block that mirror other state. -/
def State.viewSys (s : State) (a : Nat) : Option Word :=
  if a = Reg.sysTime0 then some (wordOf s.sys.now 0)
  else if a = Reg.sysTime1 then some (wordOf s.sys.now 1)
  else if a = Reg.sysCommitPend then some (BitVec.ofNat 32 s.commitPend)
  else none

/-- Registers of the video and converter blocks that mirror other state (R43, R64, R91). -/
def State.viewVideo (s : State) (a : Nat) : Option Word :=
  if a = Reg.vfeStat then
    some (s.withFields a [(Reg.vfeStat_nbad, popcount 256 (bitsOf 256 s.tapBad))])
  else if a = Reg.adcStat then
    let bad (n : Nat) : Bool := s.isFaulty (groupOf n) (localOf n)
    some (s.withFields a
      [(Reg.adcStat_nfaulty, ((List.range 579).filter bad).length)
      , (Reg.adcStat_nlost, ((List.range 65).filter (fun g =>
          (List.range (spareOf g)).any (fun r => s.serving g r == none))).length)])
  else
    match famIx Reg.vfeTapBad 8 a with
    | some w => some (BitVec.ofNat 32 (bitsOf 32 (fun i => s.tapBad (32 * w + i))))
    | none =>
      match famIx Reg.vfeSegStat 64 a with
      | some k => some (s.withFields a [(Reg.vfeSegStat_req_period k, s.req k)])
      | none =>
        match famIx Reg.adcSliceFaulty 19 a with
        | some w => some (BitVec.ofNat 32 (bitsOf 32 (fun i =>
            decide (32 * w + i < 579) && s.isFaulty (groupOf (32 * w + i)) (localOf (32 * w + i)))))
        | none => none

/-- Registers of the lamp, pool, shading and indicator blocks that mirror other state (R116, R144, R166, R411). -/
def State.viewLight (s : State) (a : Nat) : Option Word :=
  let out := bitsOf 48 (fun e => s.fget (Reg.pxeEngStat_state e) != 0)
  if a = Reg.lmpStat then
    some (s.withFields a [(Reg.lmpStat_noreply, ((List.range 64).filter (fun z => decide (2 ≤ s.zoneState z))).length)])
  else if a = Reg.pxeStat then
    some (s.withFields a [(Reg.pxeStat_stage_free,
      min 255 ((List.range 204).filter (fun u => (tget (fun _ => none) s.pxe.unit u).isNone)).length)])
  else if a = Reg.pxeOut0 then some (wordOf out 0)
  else if a = Reg.pxeOut1 then some (wordOf out 1)
  else if a = Reg.shdStat then
    some (s.withFields a [(Reg.shdStat_busy, b2n (s.shd.cal.isSome || s.shd.check != []))])
  else if a = Reg.shdBankStat then
    some (s.withFields a
      [(Reg.shdBankStat_valid0, b2n (s.bankValid 0)), (Reg.shdBankStat_valid1, b2n (s.bankValid 1))
      , (Reg.shdBankStat_busy0, b2n (s.bankBusy 0)), (Reg.shdBankStat_busy1, b2n (s.bankBusy 1))
      , (Reg.shdBankStat_pend0, b2n (s.bankPend == some 0)), (Reg.shdBankStat_pend1, b2n (s.bankPend == some 1))])
  else if a = Reg.indStat then
    some (s.withFields a [(Reg.indStat_active, bitsOf 4 s.engEn)])
  else if Reg.lmpZoneStrOut 0 0 ≤ a ∧ a ≤ Reg.lmpZoneStrOut 63 3 ∧ a % 16 = 12 ∧ a / 16 % 16 ∈ [2, 3, 4, 5] then
    let z := (a - 0xF1000) / 0x100
    let c := a / 16 % 16 - 2
    some (BitVec.ofNat 32 ((s.str z c).force.i % 65536 * 65536 + min (s.litForce z c) 65535))
  else
    match famIx Reg.pxeQStat 16 a with
    | some q =>
      match s.queue q with
      | [] => some 0
      | b :: r => some (s.withFields a [(Reg.pxeQStat_age q, min 65535 (s.cycle - b.age)), (Reg.pxeQStat_depth q, r.length + 1)])
    | none => none

/-- MOT_AX_a_STAT of a feed axis that has left the home at which PHOME_a was last seen: the pin's level is a free value of the
driver's position, which PH is (R232, R254; log entry 31). -/
def State.homeStat (s : State) (a : Nat) : Option Word :=
  let ph := s.fget (Reg.motAxPhase_ph a)
  if s.flag (Reg.motAxStat_phome a) && ph != 0 then
    some (s.withFields (Reg.motAxStat a) [(Reg.motAxStat_phome a, b2n (Config.homeLevel a ph))])
  else none

/-- Registers of the analysis, motion and position blocks that mirror other state (R194, R218, R254, R268). -/
def State.viewWeb (s : State) (a : Nat) : Option Word :=
  let next : Option Nat := s.triggerLine.map (fun t => ofInt 48 (s.linePos t.1))
  if a = Reg.nzlStat then some (s.withFields a [(Reg.nzlStat_ready, s.nzl.queue.length)])
  else if a = Reg.nzlStreakCnt then
    some (s.withFields a [(Reg.nzlStreakCnt_cols, min 65535 (s.nzl.streak.filter (fun c => c.2)).length)])
  else if a = Reg.trkStat then
    some (s.withFields a [(Reg.trkStat_active, s.activeWins.length), (Reg.trkStat_ready, min 1023 s.trk.queue.length)])
  else if a = Reg.motLineNext0 then next.map (fun v => wordOf v 0)
  else if a = Reg.motLineNext1 then next.map (fun v => wordOf v 1)
  else if a = Reg.posClaim then some (BitVec.ofNat 32 (s.claimWord Reg.cfgClaimPos))
  else
    match famIx Reg.nzlStateCnt 6 a, famIx Reg.motAxStat 2 a with
    | some k, _ => some (BitVec.ofNat 32 (s.stateCount k))
    | none, some x => s.homeStat x
    | none, none => (famIx Reg.posQeiSpd 4 a).map s.qeiSpd

/-- Registers of the FIFO and DMA blocks that mirror other state (R323, R324). -/
def State.viewFifo (s : State) (a : Nat) : Option Word :=
  let held (p : Nat) : Nat := (s.lff.ring.filter (fun e => e.port == p && !e.released)).length
  let gap : Nat := match s.lff.gap with
    | some g => g.first
    | none => 0
  if a = Reg.lffStat then
    some (s.withFields a
      [(Reg.lffStat_gap, b2n s.lff.gap.isSome), (Reg.lffStat_empty, b2n (s.issuePtr == s.commitPtr))
      , (Reg.lffStat_ring_full, b2n (decide (4096 ≤ s.lff.ring.length)))
      , (Reg.lffStat_cause, match s.lff.gap with
          | some g => g.cause
          | none => 0)])
  else if a = Reg.lffFill then some (BitVec.ofNat 32 s.fill)
  else if a = Reg.lffGap0 then some (wordOf gap 0)
  else if a = Reg.lffGap1 then some (wordOf gap 1)
  else if a = Reg.lffIssue then
    some (s.withFields a [(Reg.lffIssue_port1, held 1), (Reg.lffIssue_port0, held 0)])
  else (famIx Reg.dmaChStat 32 a).map (fun c => s.withFields a [(Reg.dmaChStat_owner c, s.owner 3 c)])

/-- Registers of the host block that mirror other state (R330, R354): the paused time, in a pause too. -/
def State.viewHost (s : State) (a : Nat) : Option Word :=
  (famIx Reg.hstPortPause 2 a).map (fun p => BitVec.ofNat 32 (min (2 ^ 32 - 1) (s.pauseTime p / 1000)))

/-- The step of start-up (R381, R388): until the flash is in its read mode it follows from device time. -/
def State.startStep (s : State) : Nat :=
  let fuse := min 50000 Config.fuseNs
  if s.fget Reg.cfgStat_step ≠ 1 then s.fget Reg.cfgStat_step
  else if s.sys.now < fuse then 1
  else if s.sys.now < fuse + min 200000 Config.lockNs then 2
  else 3

/-- IDCODE (R398). -/
def State.idcode (s : State) : Nat := 0x0346454F + s.sec.rev % 16 * 0x10000000

/-- Registers of the CFG, SEC and DBG blocks that mirror other state (R388, R389, R398, R412). -/
def State.viewBase (s : State) (a : Nat) : Option Word :=
  if a = Reg.sysId then some (s.withFields a [(Reg.sysId_rev, s.sec.rev)])
  else if a = Reg.cfgStat then some (s.withFields a [(Reg.cfgStat_loaded, s.fget Reg.sysState_loaded), (Reg.cfgStat_step, s.startStep)])
  else if a = Reg.cfgClaimPin ∨ a = Reg.cfgClaimAxis ∨ a = Reg.cfgClaimPos ∨ (famIx Reg.cfgClaimDma 4 a).isSome then
    some (BitVec.ofNat 32 (s.claimWord a))
  else if a = Reg.secStat then
    some (s.withFields a
      [(Reg.secStat_prov, b2n (s.sec.pkhNow.any (fun b => b != 0))), (Reg.secStat_dbglock, b2n s.sec.dbglock)
      , (Reg.secStat_svn, popcount 32 s.sec.svn), (Reg.secStat_fbusy, b2n s.sec.burning.isSome)
      , (Reg.secStat_secrets, b2n s.sec.keys.isSome)])
  else if a = Reg.secUid0 then some (wordOf s.sec.uid 0)
  else if a = Reg.secUid1 then some (wordOf s.sec.uid 1)
  else if a = Reg.dbgStat then
    some (s.withFields a [(Reg.dbgStat_lock, b2n s.sec.dbglock)
      , (Reg.dbgStat_pins, b2n (pinDriving s.irActs))])
  else if a = Reg.dbgIdcode then some (BitVec.ofNat 32 s.idcode)
  else (famIx Reg.secPkh 8 a).map (fun i => BitVec.ofNat 32 (leAt s.sec.pkhNow (4 * i) 4))

/-- Registers of the two-wire block that mirror other state (R410): which level stands on SDA within a transfer is not followed
bit by bit. -/
def State.viewTwb (s : State) (a : Nat) : Option Word :=
  if a = Reg.twbStat then
    some (s.withFields a [(Reg.twbStat_state, s.twb.state)
      , (Reg.twbStat_hold, if s.twb.state = 0 then 0 else Config.openNat s.sys.now % 2)])
  else none

/-- The value of a register that mirrors other state. -/
def State.view (s : State) (a : Nat) : Option Word :=
  match a / 0x10000 with
  | 0x00 => (s.viewSys a).orElse (fun _ => s.viewBase a)
  | 0x01 | 0x02 | 0x18 => s.viewBase a
  | 0x03 => s.viewHost a
  | 0x07 | 0x08 => s.viewFifo a
  | 0x09 | 0x0A | 0x0B | 0x0C => s.viewVideo a
  | 0x0D | 0x0E | 0x0F | 0x10 => s.viewLight a
  | 0x11 | 0x12 | 0x14 | 0x15 => s.viewWeb a
  | 0x17 => s.viewTwb a
  | _ => none

/-- The value in force of a register: assigned, aligned, write-only bits read 0 (R8, R9). -/
def State.inForce (s : State) (a : Nat) : Word :=
  match findReg a with
  | none => 0
  | some d => ((s.view a).getD (s.rget a)) &&& ~~~ (BitVec.ofNat 32 (fieldMask d.flds (fun f => f.acc == .wo)))

/-- Values and groups held together of R27: first word, stride and number of instances, words. -/
def readGroups : List (Nat × Nat × Nat × Nat) :=
  [ (Reg.sysTime0, 8, 1, 2), (Reg.sysTsyncTime0, 8, 1, 2), (Reg.sysLine0, 8, 1, 2), (Reg.sysSnapLine0, 8, 1, 2)
  , (Reg.sysIslandAlive 0, 12, 1, 3), (Reg.vfeSegEn0, 8, 1, 2), (Reg.vfeSegPresent0, 8, 1, 2), (Reg.vfeTapBad 0, 32, 1, 8)
  , (Reg.adcSliceFaulty 0, 76, 1, 19), (Reg.lmpZoneLamps0 0, 0x100, 64, 2), (Reg.pxeDeckle0, 8, 1, 2)
  , (Reg.pxeOut0, 8, 1, 2), (Reg.nzlBandLine0 0, 0x10, 4, 2), (Reg.motFeedPos0, 8, 1, 2), (Reg.motLineNext0, 8, 1, 2)
  , (Reg.motAxPos0 0, 0x100, 8, 2), (Reg.motAxSetpos0 0, 0x100, 8, 2), (Reg.motAxTgt0 0, 0x100, 8, 2)
  , (Reg.motAxLatch0 0, 0x100, 8, 2), (Reg.posAbsWord 0 0, 0x40, 4, 3), (Reg.posQeiIdx 0 0, 0x40, 4, 4)
  , (Reg.monChTime0 0, 0x40, 16, 2), (Reg.lffLastCommit0, 8, 1, 2), (Reg.lffGap0, 8, 1, 2), (Reg.lffSvcData 0, 16, 1, 4)
  , (Reg.dmaChSrc0 0, 0x40, 32, 2), (Reg.dmaChDst0 0, 0x40, 32, 2), (Reg.dmaChNext0 0, 0x40, 32, 2)
  , (Reg.dmaChCur0 0, 0x40, 32, 2), (Reg.hstLinePi0, 8, 1, 2), (Reg.hstLineCi0, 8, 1, 2), (Reg.hstLineIssue0, 8, 1, 2)
  , (Reg.hstPortMac0 0, 0x40, 2, 2), (Reg.cmdCi0, 8, 1, 2), (Reg.evqPi0, 8, 1, 2), (Reg.evqCi0, 8, 1, 2)
  , (Reg.cfgBuild0, 8, 1, 2), (Reg.secUid0, 8, 1, 2) ]

/-- The value an address belongs to: address of its first word, number of words, index of the word. -/
def groupAt (a : Nat) : Option (Nat × Nat × Nat) :=
  readGroups.findSome? (fun g =>
    if g.1 ≤ a ∧ a < g.1 + g.2.1 * g.2.2.1 ∧ (a - g.1) % g.2.1 < 4 * g.2.2.2 ∧ a % 4 = 0 then
      some (a - (a - g.1) % g.2.1, g.2.2.2, (a - g.1) % g.2.1 / 4)
    else none)

/-- Key of a path's latch or held part. -/
def pathKey (p : Path) (a : Nat) : Nat := (pathNum p) * 2 ^ 32 + a

/-- VIEW of a path (R26). -/
def State.viewOn (s : State) : Path → Bool
  | .ring => s.flag Reg.sysSnapCtrl_view
  | .twb => s.sys.viewTwb
  | .dbg => s.sys.viewDbg

/-- What a path sees of a register (R26): its read-only fields from the snapshot while VIEW is 1; SYS_SNAP_CTRL.VIEW is
the path's own. Before a snapshot has been taken the store is empty, and these fields read as their reset values (DESIGN CHOICE,
log entry 88). -/
def State.seen (s : State) (p : Path) (a : Nat) : Word :=
  let w := s.inForce a
  let w := if a = Reg.sysSnapCtrl then BitVec.ofNat 32 (putBit w.toNat 2 (s.viewOn p)) else w
  if s.viewOn p then
    match findReg a with
    | some d =>
      let m := fieldMask d.flds (fun f => f.acc == .ro)
      BitVec.ofNat 32 (blend w.toNat m (tget resetWord s.sys.snap a).toNat)
    | none => w
  else w

/-- Addresses of the registers that mirror other state. -/
def viewAddrs : List Nat :=
  [ Reg.sysId, Reg.sysTime0, Reg.sysTime1, Reg.sysCommitPend, Reg.vfeStat, Reg.adcStat, Reg.lmpStat, Reg.pxeStat
  , Reg.pxeOut0, Reg.pxeOut1, Reg.shdStat, Reg.shdBankStat, Reg.indStat, Reg.nzlStat, Reg.nzlStreakCnt, Reg.trkStat
  , Reg.motLineNext0, Reg.motLineNext1, Reg.posClaim, Reg.lffStat, Reg.lffFill, Reg.lffGap0, Reg.lffGap1, Reg.lffIssue
  , Reg.cfgStat, Reg.cfgClaimPin, Reg.cfgClaimAxis, Reg.cfgClaimPos, Reg.secStat, Reg.secUid0, Reg.secUid1, Reg.dbgStat
  , Reg.dbgIdcode, Reg.twbStat, Reg.hstPortPause 0, Reg.hstPortPause 1 ] ++
  (List.range 256).map (fun i => Reg.lmpZoneStrOut (i / 4) (i % 4)) ++ (List.range 8).map Reg.vfeTapBad ++
  (List.range 64).map Reg.vfeSegStat ++ (List.range 19).map Reg.adcSliceFaulty ++
  (List.range 16).map Reg.pxeQStat ++ (List.range 6).map Reg.nzlStateCnt ++ (List.range 2).map Reg.motAxStat ++
  (List.range 4).map Reg.posQeiSpd ++
  (List.range 32).map Reg.dmaChStat ++ (List.range 4).map Reg.cfgClaimDma ++ (List.range 8).map Reg.secPkh

/-- A read clears the fields of type RC (R8). The largest fill since the read is at least the fill now (R323);
paused time counts anew from the read on (R354). -/
def State.clearRc (s : State) (a : Nat) : State :=
  match findReg a with
  | some d =>
    let m := fieldMask d.flds (fun f => f.acc == .rc)
    if m = 0 then s
    else
      let s := s.rput a (BitVec.ofNat 32 (blend (s.rget a).toNat m 0))
      if a = Reg.lffFillMax then s.fput Reg.lffFillMax_fill s.fill
      else match famIx Reg.hstPortPause 2 a with
        | some p => s.setPort p { s.port p with pausedNs := 0, pausedAt := s.sys.now }
        | none => s
  | none => s

/-- Latch every word of a value for a path (R27). -/
def State.latchAll (s : State) (p : Path) (base n : Nat) : State :=
  s.each (List.range n) (fun w s => { s with sys := { s.sys with
    latch := tput (fun _ => 0) s.sys.latch (pathKey p (base + 4 * w)) (s.seen p (base + 4 * w)) } })

/-- Blocks that answer before an image is loaded: SYS, CFG, SEC, TWB and DBG (R382, R392). -/
def bareBlock (a : Nat) : Bool := decide (a < 0x30000) || a / 0x10000 == 0x17 || a / 0x10000 == 0x18

/-- Only those blocks answer: until LOADED is set, and in SAFE with cause IMAGE (R382, R392). -/
def State.bare (s : State) : Bool := !s.flag Reg.sysState_loaded || bitAt (s.fget Reg.sysSafeCause_val) 0

/-- The SEC_SEAL registers are kept from the command ring (R385). -/
def sealReg (a : Nat) : Bool :=
  decide (Reg.secSealCtrl ≤ a ∧ a ≤ Reg.secSealTag 3) || decide (Reg.secSealBuf 0 ≤ a ∧ a ≤ Reg.secSealBuf 511)

/-- A register read on a path (R8, R9, R26, R27, R308): the value and the state after it. A block that does not answer and
an unassigned address read 0, and so does every register while the control island is lost (R12). -/
def State.readReg (s : State) (p : Path) (a : Nat) : Word × State :=
  if s.sys.ctlLost || s.bare && !bareBlock a then (0, s)
  else if p = .ring && sealReg a then (0, s.regRefused p a 0 4)
  else
    match groupAt a with
    | some (_, n, 0) =>
      let s := if a = Reg.lffSvcData 0 then s.svcRead else s
      let s := s.latchAll p a n
      (s.seen p a, s)
    | some _ => (tget (fun _ => 0) s.sys.latch (pathKey p a), s)
    | none => (s.seen p a, s.clearRc a)

/-- Take the snapshot (R25): every read-only field of every block, at line `line`. -/
def State.snapTake (s : State) (line : Nat) : State :=
  let snap := viewAddrs.foldl (fun t a => tput resetWord t a (s.inForce a)) s.regs
  let s : State := { s with sys := { s.sys with snapPend := false, snap := snap } }
  (s.wput Reg.sysSnapLine0 line).fput Reg.sysSnapCtrl_done 1

end Sys2Proof.Machine
end

