-- ==== Sys2Proof/Machine/RegRules.lean ====
section
/-!
DEFINITION. What a register write may hold (R349): the range rules of each field, which the image loader applies too
(R370), and the rules of state, business and ownership.
-/

namespace Sys2Proof.Machine

/-- `v` lies between `lo` and `hi`. -/
def within (lo hi v : Nat) : Bool := decide (lo ≤ v ∧ v ≤ hi)

/-- Range rules of the video and converter blocks (R46, R58, R64, R91). `volt` tells which segments run in voltage mode. -/
def badVideo (volt : Nat → Bool) (w a : Nat) : Bool :=
  match famIx Reg.vfeSegClk 64 a with
  | some k => !within 1000 (if volt k then 20000 else 125000) (fld w (Reg.vfeSegClk_khz k))
  | none =>
    match famIx Reg.vfeSegTiming 64 a with
    | some k =>
      !within 8 255 (fld w (Reg.vfeSegTiming_guard k)) || !within 16 4095 (fld w (Reg.vfeSegTiming_xfer k)) ||
        !within 1 255 (fld w (Reg.vfeSegTiming_sp_w k))
    | none =>
      match famIx Reg.adcGrpCtrl 65 a with
      | some g =>
        fld w (Reg.adcGrpCtrl_park_en g) == 1 && decide (spareOf g ≤ fld w (Reg.adcGrpCtrl_park g))
      | none =>
        match famIx Reg.vfeScbCtrl 4 a with
        | some b => !within 500 10000 (fld w (Reg.vfeScbCtrl_khz b))
        | none => false

/-- Range rules of the lamp, pool, shading and indicator blocks (R102, R144, R125, R128, R167, R404, R405). `get` gives the
words that other registers will hold, `bin` the binning they are checked with. -/
def badLight (get : Nat → Nat) (bin : Bool) (w a : Nat) : Bool :=
  if a = Reg.lmpDerate0 then fld w Reg.lmpDerate0_span == 0
  else if a = Reg.lmpDerate1 then !within 6554 65535 (fld w Reg.lmpDerate1_dmin)
  else if a = Reg.pxeCtrl then !within 1 8 (fld w Reg.pxeCtrl_clamp_a)
  else if a = Reg.pxeDeckle1 then
    let start := fld (get Reg.pxeDeckle0) Reg.pxeDeckle0_start
    let width := fld w Reg.pxeDeckle1_width
    start % 32 != 0 || width % 128 != 0 || decide (width < 128) ||
      decide ((if bin then 163840 else 327680) < start + width)
  else if a = Reg.shdDriftCtrl then !within 4 10 (fld w Reg.shdDriftCtrl_kd)
  else if a = Reg.indCtrl then !indCtrlOk w
  else if a = Reg.indCur then !within 1 20 (fld w Reg.indCur_icol)
  else
    match famIx Reg.pxeJoint 63 a with
    | some j =>
      let d := toInt 10 (fld w (Reg.pxeJoint_d j))
      decide (d < -63) || decide (255 < d)
    | none =>
      match famIx Reg.shdZoneWin 64 a with
      | some z => decide (5120 < fld w (Reg.shdZoneWin_start z) + fld w (Reg.shdZoneWin_width z))
      | none =>
        match (List.range 4).find? (fun e => Reg.indEngCfg e == a || Reg.indEngTime e == a) with
        | some e =>
          let cfg := if a = Reg.indEngCfg e then w else get (Reg.indEngCfg e)
          let time := if a = Reg.indEngTime e then w else get (Reg.indEngTime e)
          fld cfg (Reg.indEngCfg_type e) != 2 && fld time (Reg.indEngTime_t1 e) == 0
        | none => false

/-- Range rules of the analysis blocks (R189, R194, R218, R219). -/
def badAnalysis (w a : Nat) : Bool :=
  if a = Reg.nzlCtrl then !within 1 8 (fld w Reg.nzlCtrl_kv) || !within 1 8 (fld w Reg.nzlCtrl_ka)
  else if a = Reg.nzlStreak then
    !within 4 7 (fld w Reg.nzlStreak_sm) || !within 1 3 (fld w Reg.nzlStreak_conf_s) ||
      !within 1 1000 (fld w Reg.nzlStreak_thr) ||
      decide (512 < (fld w Reg.nzlStreak_conf_s + 1) * 2 ^ fld w Reg.nzlStreak_sm)
  else if a = Reg.trkCtrl then !within 0 8 (fld w Reg.trkCtrl_ks)
  else if a = Reg.fedLoop then fld w Reg.fedLoop_d == 0
  else if a = Reg.fedCalCirc then w == 0
  else if a = Reg.fedCalEnc then decide (fld w Reg.fedCalEnc_top < 15)
  else
    match famIx Reg.nzlTset0 4 a with
    | some t => decide (fld w (Reg.nzlTset0_d_weak t) ≤ fld w (Reg.nzlTset0_d_miss t))
    | none => false

/-- The highest step rate of an axis by its PULSE word (R221). -/
def stepRate (pulse a : Nat) : Nat :=
  let w := fld pulse (Reg.motAxPulse_step_w a)
  if w = 0 then 5000000 else min 5000000 (1000000000 / (10 * w))

/-- Range rules of the motion block (R221, R222, R254). -/
def badMotion (get : Nat → Nat) (w a : Nat) : Bool :=
  match (List.range 8).find? (fun x => Reg.motAxCtrl x / 256 == a / 256) with
  | none => false
  | some x =>
    if a = Reg.motAxSpeed x then !within 1 (stepRate (get (Reg.motAxPulse x)) x) (fld w (Reg.motAxSpeed_speed x))
    else if a = Reg.motAxVstart x then
      !within 1 (min 100000 (stepRate (get (Reg.motAxPulse x)) x)) (fld w (Reg.motAxVstart_vstart x))
    else if a = Reg.motAxAcc x ∨ a = Reg.motAxDec x then w == 0
    else if a = Reg.motAxNm x then decide (w < 0x1000)
    else if a = Reg.motAxPulse x then
      !within 20 255 (fld w (Reg.motAxPulse_step_w x)) || !within 10 255 (fld w (Reg.motAxPulse_dir_su x)) ||
        !within 10 255 (fld w (Reg.motAxPulse_dir_hd x))
    else false

/-- Range rules of the position and monitor blocks (R259, R268, R290). -/
def badSense (w a : Nat) : Bool :=
  if a = Reg.monCtrl then !within 4 8 (fld w Reg.monCtrl_caln)
  else if a = Reg.monRref then w == 0
  else
    match famIx Reg.posAbsCfg 4 a with
    | some n =>
      fld w (Reg.posAbsCfg_ew n) == 3 || !within 8 32 (fld w (Reg.posAbsCfg_dlen n)) ||
        !within 100 (if fld w (Reg.posAbsCfg_proto n) = 1 then 10000 else 2000) (fld w (Reg.posAbsCfg_khz n))
    | none =>
      match famIx Reg.posQeiCfg 4 a with
      | some n => !within 1 1000 (fld w (Reg.posQeiCfg_win n))
      | none =>
        match famIx Reg.monChCfg 16 a with
        | some n => fld w (Reg.monChCfg_form n) == 3 || !within 1 8 (fld w (Reg.monChCfg_n n))
        | none => (famIx Reg.monChRnorm 16 a).isSome && w == 0

/-- Range rules of the FIFO, DMA and host blocks (R304, R315, R316, R354, R355). -/
def badHost (w a : Nat) : Bool :=
  if a = Reg.lffMarks then decide (fld w Reg.lffMarks_high ≤ fld w Reg.lffMarks_low)
  else if a = Reg.hstCtrl then
    fld w Reg.hstCtrl_mode == 3 || !within 1 100 (fld w Reg.hstCtrl_link_hold) || !within 1 100 (fld w Reg.hstCtrl_poll)
  else if a = Reg.qptEcn0 then !within 1 15 (fld w Reg.qptEcn0_g) || !within 10 4095 (fld w Reg.qptEcn0_rtimer)
  else
    match famIx Reg.dmaTmr 8 a with
    | some t => decide (fld w (Reg.dmaTmr_period t) < 100)
    | none =>
      match famIx Reg.dmaChCfg 32 a with
      | some c =>
        fld w (Reg.dmaChCfg_trig c) == 3 || (fld w (Reg.dmaChCfg_trig c) == 2 && fld w (Reg.dmaChCfg_chsrc c) == c)
      | none => false

/-- The word `w` of a register lies outside what its fields allow (R349 reason 1). -/
def valueBad (get : Nat → Nat) (volt : Nat → Bool) (bin : Bool) (a w : Nat) : Bool :=
  match a / 0x10000 with
  | 0x09 | 0x0B => badVideo volt w a
  | 0x0D | 0x0E | 0x0F | 0x10 => badLight get bin w a
  | 0x11 | 0x12 | 0x13 => badAnalysis w a
  | 0x14 => badMotion get w a
  | 0x15 | 0x16 => badSense w a
  | 0x03 | 0x04 | 0x07 | 0x08 => badHost w a
  | _ => false

/-- Registers whose fields marked "image" have range rules (R370). -/
def ruledRegs : List Nat :=
  (List.range 64).flatMap (fun k => [Reg.vfeSegClk k, Reg.vfeSegTiming k, Reg.shdZoneWin k]) ++
  [ Reg.lmpDerate0, Reg.lmpDerate1, Reg.pxeCtrl, Reg.pxeDeckle1, Reg.shdDriftCtrl, Reg.nzlCtrl, Reg.nzlStreak
  , Reg.trkCtrl, Reg.fedLoop, Reg.fedCalCirc, Reg.fedCalEnc, Reg.monCtrl, Reg.monRref, Reg.lffMarks, Reg.hstCtrl
  , Reg.qptEcn0 ] ++
  (List.range 63).map Reg.pxeJoint ++ (List.range 4).flatMap (fun t => [Reg.vfeScbCtrl t, Reg.nzlTset0 t, Reg.posAbsCfg t, Reg.posQeiCfg t]) ++
  (List.range 8).flatMap (fun x => [Reg.motAxSpeed x, Reg.motAxVstart x, Reg.motAxAcc x, Reg.motAxDec x, Reg.motAxNm x
    , Reg.motAxPulse x]) ++
  (List.range 16).flatMap (fun n => [Reg.monChCfg n, Reg.monChRnorm n]) ++ (List.range 32).map Reg.dmaChCfg

/-- Engine of a CTRL register. -/
def engAt (a : Nat) : Option (EngKind × Nat) :=
  match famIx Reg.pxeEngCtrl 48 a with
  | some e => some (.pixel, e)
  | none =>
    match famIx Reg.nzlEngCtrl 24 a with
    | some e => some (.nozzle, e)
    | none => (famIx Reg.trkEngCtrl 16 a).map (fun e => (.correlator, e))

/-- The host's use of a position port's configuration is refused (R256). -/
def State.portKept (s : State) (cls n : Nat) : Bool :=
  s.owner cls n == 12 || (s.running && (s.owner cls n == 2 || s.owner cls n == 3))

/-- The written word without what may not be written in the present state (R116: LMP_ZONE_z_CFG.EN is read-only in a job). -/
def State.writable (s : State) (a mask : Nat) : Nat :=
  if s.running && (famIx Reg.lmpZoneCfg 64 a).isSome then mask % 2 ^ 31 else mask

/-- Rules of state of the SYS, video, converter and light blocks: the reason of a refusal, 0 for none; `v` is the word written
(R50, R62, R86, R116,
R140, R146, R161, R162). -/
def State.lightReason (s : State) (a v : Nat) : Nat :=
  if a = Reg.vfeCtrl then
    if fld v Reg.vfeCtrl_train = 1 ∧ (s.running || !s.flag Reg.cfgStat_ready) = true then 2 else 0
  else if a = Reg.lmpCtrl then (if fld v Reg.lmpCtrl_all_off = 1 ∧ s.running = true then 4 else 0)
  else if a = Reg.shdBank then s.selectReason (fld v Reg.shdBank_sel)
  else
    match (List.range 4).find? (fun b => Reg.vfeScbCmd b == a) with
    | some b =>
      if fld v (Reg.vfeScbCmd_go b) = 0 then 0
      else
        let rd := fld v (Reg.vfeScbCmd_rd b) == 1
        let ad := fld v (Reg.vfeScbCmd_addr b)
        if !(decide (ad ≤ 15) || (ad == 31 && !rd)) then 1
        else if s.flag (Reg.vfeScbStat_busy b) then 3
        else if s.running && !rd then 2
        else 0
    | none =>
      match famIx Reg.adcGrpCtrl 65 a with
      | some g => if fld v (Reg.adcGrpCtrl_retest g) = 1 ∧ s.flag Reg.adcCtrl_freeze = true then 2 else 0
      | none =>
        match (List.range 2).find? (fun b => Reg.shdBankCtrl b == a) with
        | some b =>
          let r := if fld v (Reg.shdBankCtrl_check b) = 1 then s.bankTestReason b true else 0
          if r ≠ 0 then r
          else if fld v (Reg.shdBankCtrl_mbist b) = 1 then s.bankTestReason b false
          else 0
        | none =>
          match engAt a with
          | some (k, e) => if s.engKeeps k e v then 4 else 0
          | none => 0

/-- Rules of state of the analysis, motion, position and monitor blocks (R171, R221, R225, R231, R233, R254, R256, R281,
R284). -/
def State.senseReason (s : State) (a v w : Nat) : Nat :=
  if a = Reg.nzlCtrl then (if fld v Reg.nzlCtrl_clear = 1 ∧ s.running = true then 4 else 0)
  else if a = Reg.monCtrl then
    if fld v Reg.monCtrl_cal = 1 ∧ (s.flag Reg.monStat_cal_busy || s.mon.calReq) = true then 3 else 0
  else if a = Reg.monInj then
    let n := fld v Reg.monInj_ch
    if fld v Reg.monInj_go = 0 then 0
    else if 4 ≤ s.mon.inj.length then 3
    else if !s.monEn n || s.flag (Reg.monChRes_fault n) then 2
    else 0
  else
    match (List.range 8).find? (fun x => Reg.motAxCtrl x / 256 == a / 256) with
    | some x =>
      let feed := decide (x < 2) && (s.running || s.mot.couch.isSome)
      if a = Reg.motAxCtrl x then
        if s.flag (Reg.motAxCtrl_ena x) && fld w (Reg.motAxCtrl_ena x) == 0 && (s.moving x || feed) then 4
        else if fld v (Reg.motAxCtrl_encset x) = 0 then 0
        else if s.moving x then 2
        else if !s.flag (Reg.motAxEnc_en x) then 2
        else
          match s.absWord (s.fget (Reg.motAxEnc_port x)) with
          | some (_, age) => if age ≤ 100000 then 0 else 2
          | none => 2
      else if a = Reg.motAxPulse x then
        if s.moving x then 2 else if stepRate w x < s.fget (Reg.motAxSpeed_speed x) then 1 else 0
      else if a = Reg.motAxNm x then (if decide (x < 2) && s.running then 4 else 0)
      else if a = Reg.motAxSetpos0 x ∨ a = Reg.motAxSetpos1 x then (if s.moving x then 2 else 0)
      else 0
    | none =>
      if Reg.posAbsCfg 0 ≤ a ∧ a < Reg.posQeiCfg 0 ∧ (a - Reg.posAbsCfg 0) % 0x40 < 0x10 then
        if s.portKept 5 ((a - Reg.posAbsCfg 0) / 0x40) then 4 else 0
      else if Reg.posQeiCfg 0 ≤ a ∧ a < Reg.posQeiCfg 0 + 0x100 ∧ (a - Reg.posQeiCfg 0) % 0x40 < 0x0C then
        if s.portKept 6 ((a - Reg.posQeiCfg 0) / 0x40) then 4 else 0
      else 0

/-- The DMA channel whose registers an address lies among. -/
def chanAt (a : Nat) : Option Nat := (List.range 32).find? (fun c => Reg.dmaChCtrl c / 64 == a / 64)

/-- A host write to any register of a channel that something else owns, or that is armed or running, is refused (R315). -/
def State.chanReason (s : State) (c a v : Nat) : Nat :=
  let busy := s.chState c != 0 && s.chState c != 5
  if !(s.owner 3 c == 0 || s.owner 3 c == 1) then 4
  else if !busy then 0
  else if a = Reg.dmaChCtrl c ∧ fld v (Reg.dmaChCtrl_stop c) = 1 ∧ fld v (Reg.dmaChCtrl_start c) = 0 then 0
  else 3

/-- Rules of state of the FIFO, DMA, host, fuse and seal registers (R307, R315, R327, R333, R354, R384, R385). -/
def State.hostReason (s : State) (a v w : Nat) : Nat :=
  if a = Reg.lffCtrl then (if s.running || s.lff.ring.any (fun e => !e.released) then 4 else 0)
  else if a = Reg.hstCtrl then
    if s.running && (fld w Reg.hstCtrl_mode != s.fget Reg.hstCtrl_mode || fld w Reg.hstCtrl_primary != s.fget Reg.hstCtrl_primary)
    then 2 else 0
  else
    match chanAt a with
    | some c => s.chanReason c a v
    | none =>
      match (List.range 2).find? (fun p => Reg.hstPortCtrl p == a) with
      | some p => if fld v (Reg.hstPortCtrl_down p) = 1 ∧ s.running = true ∧ s.portUp (1 - p) = false then 4 else 0
      | none =>
        match famIx Reg.qptQpCtrl 16 a with
        | some q =>
          if fld v (Reg.qptQpCtrl_reset q) = 0 then 0
          else if s.fget (Reg.qptQpStat_state q) = 2 ∨ s.qpMoved q = true ∨ (s.qpOn q && !s.portUp (slotPort q)) = true then 0
          else 2
        | none => 0

/-- The reason for which a register write is refused, 0 when it is carried out (R349, R378): `v` is the word written, `w`
the word the register's settings will hold, `get` that of every other register. -/
def State.writeReason (s : State) (get : Nat → Nat) (a v w : Nat) : Nat :=
  let state := s.lightReason a v
  let state := if state = 0 then s.senseReason a v w else state
  let state := if state = 0 then s.hostReason a v w else state
  let bin : Bool := fld (if s.running then (s.rget Reg.pxeFmt).toNat else s.shadowed Reg.pxeFmt) Reg.pxeFmt_bin == 1
  if valueBad get s.inVolt bin a w then 1
  else if state ≠ 0 then state
  else if s.claimRefused a w then 4
  else 0

end Sys2Proof.Machine
end

