-- ==== Sys2Proof/Machine/RegOps.lean ====
section
/-!
DEFINITION. Register writes (R8, R9, R14 to R17, R24, R28, R38, R349, R378): the checks, the write itself, and what a
write makes each block do.
-/

namespace Sys2Proof.Machine

/-- Boundary classes. -/
def allCls : List Cls := [.lb, .pb, .jb, .mb]

/-- Axis of a register of the MOT block. -/
def axisOf (a : Nat) : Nat := (a - 0x141000) / 0x100

/-- Put the written bits into the fields of a register by their access types (R8, R16). -/
def State.putReg (s : State) (d : RegDesc) (a v : Nat) : State :=
  let rw := s.writable a (fieldMask d.flds (fun f => f.acc == .rw))
  let w1c := fieldMask d.flds (fun f => f.acc == .w1c)
  let s := if rw = 0 then s else s.rput a (BitVec.ofNat 32 (blend (s.rget a).toNat rw v))
  let s := if w1c &&& v = 0 then s else s.rput a (BitVec.ofNat 32 (blend (s.rget a).toNat (w1c &&& v) 0))
  allCls.foldl (fun s c =>
    let m := fieldMask d.flds (fun f => f.acc == .rws && f.cls == some c)
    if m = 0 then s
    else if c = .mb then
      let x := axisOf a
      (s.shadow c x a m v).setAxis x { s.axis x with wrote := true }
    else s.shadow c 0 a m v) s

/-- The word a register's settings will hold after a write. -/
def State.newWord (s : State) (d : RegDesc) (a v : Nat) : Nat :=
  blend (s.shadowed a) (s.writable a (fieldMask d.flds (fun f => f.acc == .rw || f.acc == .rws))) v

/-- SYS_COMMIT_HOLD, SYS_SNAP_CTRL and SYS_SAFE_FORCE (R17, R25, R26, R33). -/
def State.effectSys (s before : State) (p : Path) (a v : Nat) : State :=
  if a = Reg.sysCommitHold then
    if before.flag Reg.sysCommitHold_lb = s.flag Reg.sysCommitHold_lb then s
    else { s with sys := { s.sys with lbHoldLines := 0 } }
  else if a = Reg.sysSnapCtrl then
    let view := fld v Reg.sysSnapCtrl_view == 1
    let s : State := match p with
      | .ring => s
      | .twb => ({ s with sys := { s.sys with viewTwb := view } } : State).fput Reg.sysSnapCtrl_view
          (before.fget Reg.sysSnapCtrl_view)
      | .dbg => ({ s with sys := { s.sys with viewDbg := view } } : State).fput Reg.sysSnapCtrl_view
          (before.fget Reg.sysSnapCtrl_view)
    if fld v Reg.sysSnapCtrl_req = 1 then { s with sys := { s.sys with snapPend := true } } else s
  else if a = Reg.sysSafeForce then (if v = 0x5AFE0001 then s.enterSafe .force else s)
  else s

/-- RETEST (R86): the consecutive-failure count of every faulty, off-line slice starts at 0. A role whose hand-over is
still due keeps its slice out. -/
def State.retest (s : State) (g : Nat) : State :=
  let l := (List.range (spareOf g + 1)).filter (fun x => s.isFaulty g x && s.roleOf g x == 15)
  let s := s.each l (fun x s => s.fput (Reg.adcSliceStat_fails (sliceNo g x)) 0)
  s.setGrp g { s.grp g with retest := l.filter (fun x => !(s.grp g).back.contains x) }

/-- Training, segment control frames and converter groups (R50, R62, R86). -/
def State.effectVideo (s : State) (a v : Nat) : State :=
  if a = Reg.vfeCtrl then (if fld v Reg.vfeCtrl_train = 1 then s.trainBegin else s)
  else
    match (List.range 4).find? (fun b => Reg.vfeScbCmd b == a) with
    | some b =>
      if fld v (Reg.vfeScbCmd_go b) = 1 then
        s.scbStart b { addr := fld v (Reg.vfeScbCmd_addr b), rd := fld v (Reg.vfeScbCmd_rd b) == 1
                       reg := fld v (Reg.vfeScbCmd_reg b), data := fld v (Reg.vfeScbCmd_data b), host := true }
      else s
    | none =>
      match famIx Reg.adcGrpCtrl 65 a with
      | some g => if fld v (Reg.adcGrpCtrl_retest g) = 1 then s.retest g else s
      | none => s

/-- Lamp buses follow LMP_CTRL.BUS_EN (R116): an enabled bus is UP, a disabled one sends nothing. -/
def State.busEnable (s : State) (b : Nat) : State :=
  if bitAt (s.fget Reg.lmpCtrl_bus_en) b then
    if s.fget (Reg.lmpBusStat_state b) = 0 then (s.setLbus b LBus.init).fput (Reg.lmpBusStat_state b) 1 else s
  else (s.setLbus b LBus.init).fput (Reg.lmpBusStat_state b) 0

/-- ALL_OFF by the host (R114, R116): at once on a free bus, else as its next frame; no earlier delivery counts (R99). -/
def State.hostAllOff (s : State) : State :=
  let s := s.each ((List.range 2).filter (fun b => s.fget (Reg.lmpBusStat_state b) != 0)) (fun b s =>
    if (s.lbus b).cur.isSome then s.setLbus b { s.lbus b with allOffDue := (s.lbus b).allOffDue + 1 } else s.allOffOn b)
  s.allOffDone

/-- The lamp block (R100, R113, R116). A zone enabled after start-up counts as ABSENT until the host's PING is answered. -/
def State.effectLamp (s before : State) (a v : Nat) : State :=
  if a = Reg.lmpCtrl then
    let s := s.each (List.range 2) (fun b s => s.busEnable b)
    if fld v Reg.lmpCtrl_all_off = 1 then s.hostAllOff else s
  else if a = Reg.lmpTint then
    if fld v Reg.lmpTint_resetf = 1 then
      (s.each (List.range 256) (fun i s => s.fput (Reg.lmpZoneStrStat_f (i / 4) (i % 4)) 16384)).tintInside true
    else s
  else if a = Reg.lmpTintLim then s.tintInside false
  else
    match famIx Reg.lmpZoneCfg 64 a with
    | some z =>
      if s.zoneEn z = before.zoneEn z then s
      else (s.setZone z ZoneSt.init).fput (Reg.lmpZoneStat_state z) (if s.zoneEn z then 3 else 0)
    | none =>
      match famIx Reg.lmpZoneCtrl 64 a with
      | some z =>
        if !s.zoneEn z then s
        else
          let s :=
            if fld v (Reg.lmpZoneCtrl_ping z) = 1 then
              let s := s.setZone z { s.zone z with diagDue := true }
              let b := if s.busUp (z % 2) then z % 2 else 1 - z % 2
              s.setLbus b { s.lbus b with pingDue := (s.lbus b).pingDue ++ [z] }
            else s
          s.setZone z { s.zone z with clearDue := (s.zone z).clearDue ||| fld v (Reg.lmpZoneCtrl_clear z) }
      | none => s

/-- Engines, banks and calibrations (R140, R146, R159, R161, R162). -/
def State.effectPool (s : State) (a v : Nat) : State :=
  match engAt a with
  | some (k, e) => s.engWrite k e v
  | none =>
    if a = Reg.shdCtrl then (if fld v Reg.shdCtrl_cal_abort = 1 then s.calAbort else s)
    else
      match (List.range 2).find? (fun b => Reg.shdBankCtrl b == a) with
      | some b =>
        let s := if fld v (Reg.shdBankCtrl_check b) = 1 then s.checkStart b else s
        if fld v (Reg.shdBankCtrl_mbist b) = 1 then s.mbistStart b else s
      | none => s

/-- Nozzle and tracking blocks (R171, R175, R195). -/
def State.effectTrack (s : State) (a v : Nat) : State :=
  if a = Reg.nzlCtrl then (if fld v Reg.nzlCtrl_clear = 1 then s.zeroContexts 0 0xA0000 else s)
  else if a = Reg.trkCtrl then
    if fld v Reg.trkCtrl_place = 1 then { s with trk := { s.trk with place := true } } else s
  else
    match famIx Reg.nzlBandLine1 4 a with
    | some st => s.bandHost st
    | none => s

/-- EN_a follows ENA (R231, R232): a feed axis that is enabled restores its phase; the loss of axis 6's position ends a
calibration (R159). -/
def State.enableAxis (s : State) (x : Nat) (was : Bool) : State :=
  let on := s.flag (Reg.motAxCtrl_ena x)
  if on = was then s
  else if on then
    if x < 2 then ((s.setAxis x { s.axis x with restore := some .seek }).fput (Reg.motAxStat_state x) 5).fput
        (Reg.motAxStat_hold x) 1
    else s
  else
    let s := if (s.axis x).restore.isSome then
        (s.setAxis x { s.axis x with restore := none }).fput (Reg.motAxStat_state x) 0 else s
    let sure := !s.flag (Reg.motAxStat_unc x)
    let s := s.enableFalls x
    if x = 6 ∧ sure = true then s.calAxis else s

/-- An immediate stop of axes by the host (R234, R236): in a job, that of a feed axis, moving or not, ends it; that of axis 6
ends a calibration when the position becomes uncertain (R159). -/
def State.hostStop (s : State) (l : List Nat) : State :=
  let was := s.flag (Reg.motAxStat_unc 6)
  let s := s.stopAxes l 0
  let s := if l.contains 6 && !was && s.flag (Reg.motAxStat_unc 6) then s.calAxis else s
  match l.find? (fun a => decide (a < 2)) with
  | some a => s.feedStop a 1
  | none => s

/-- The motion block (R226, R227, R231 to R234): STOP wins over HALT. -/
def State.effectMotion (s before : State) (a v : Nat) : State :=
  if a = Reg.motCtrl then (if fld v Reg.motCtrl_stop = 1 then s.hostStop (List.range 8) else s)
  else
    match famIx Reg.motAxCtrl 8 a with
    | some x =>
      let s := s.enableAxis x (before.flag (Reg.motAxCtrl_ena x))
      let s :=
        if fld v (Reg.motAxCtrl_stop x) = 1 then s.hostStop [x]
        else if fld v (Reg.motAxCtrl_halt x) = 1 then s.halt (if x = 1 ∧ s.moving 0 = true then 0 else x)
        else s
      if fld v (Reg.motAxCtrl_encset x) = 1 then
        match s.absWord (s.fget (Reg.motAxEnc_port x)) with
        | some (w, _) => s.setPosition x (s.encPos x w)
        | none => s
      else s
    | none => s

/-- The position ports (R256, R260 to R265). A write of a CFG register makes the next jump check start afresh (R260). -/
def State.effectPos (s : State) (a v : Nat) : State :=
  match famIx Reg.posAbsCtrl 4 a with
  | some n =>
    let s := if fld v (Reg.posAbsCtrl_clrunc n) = 1 then (s.fput (Reg.posAbsStat_junc n) 0).absUnc n else s
    if fld v (Reg.posAbsCtrl_req n) = 1 then s.absTrigger n else s
  | none =>
    match famIx Reg.posQeiCtrl 4 a with
    | some n =>
      let s :=
        if fld v (Reg.posQeiCtrl_clrunc n) = 1 then
          ((s.setQeiUnc n false).fput (Reg.posQeiStat_iflt n) 0).setQei n { s.qeiPort n with ill := false }
        else s
      if fld v (Reg.posQeiCtrl_reidx n) = 1 then
        (s.setQei n { s.qeiPort n with reidx := true }).fput (Reg.posQeiStat_iflt n) 0
      else s
    | none =>
      match famIx Reg.posAbsCfg 4 a with
      | some n => s.setAbs n { s.absPort n with recfg := true }
      | none => s

/-- Position ports without an owner are claimed for the host by a write of their configuration (R256, R378). -/
def State.claimPort (s : State) (a : Nat) : State :=
  let claim (cls n : Nat) : State :=
    if s.owner cls n = 0 then
      { s with cfg := { s.cfg with claims := s.cfg.claims ++ [{ cls := cls, idx := n, owner := 1, fixed := false }] } }
    else s
  if Reg.posAbsCfg 0 ≤ a ∧ a < Reg.posQeiCfg 0 ∧ (a - Reg.posAbsCfg 0) % 0x40 < 0x10 then claim 5 ((a - Reg.posAbsCfg 0) / 0x40)
  else if Reg.posQeiCfg 0 ≤ a ∧ a < Reg.posQeiCfg 0 + 0x100 ∧ (a - Reg.posQeiCfg 0) % 0x40 < 0x0C then
    claim 6 ((a - Reg.posQeiCfg 0) / 0x40)
  else s

/-- The settings of a channel that R288 applies at the next chop-period boundary. -/
def chanKey (n w : Nat) : List Nat :=
  [fld w (Reg.monChCfg_en n), fld w (Reg.monChCfg_form n), fld w (Reg.monChCfg_exc n), fld w (Reg.monChCfg_gain n)]

/-- The monitor (R275, R281 to R288). A change of POL turns the level at BLANK into the other one. A changed channel whose constants are not there becomes FAULT (R280). -/
def State.effectMon (s before : State) (a v : Nat) : State :=
  let faults (s : State) : State := if s.mon.calFirst || s.flag Reg.monStat_cal_busy then s else s.faultUpdate
  if a = Reg.monCtrl then
    let s := s.ageChanged (before.fget Reg.monCtrl_age)
    if fld v Reg.monCtrl_cal = 1 then { s with mon := { s.mon with calReq := true } } else s
  else if a = Reg.monSeqCtrl then
    if fld v Reg.monSeqCtrl_req = 1 then s.monTriggerBy 0 else s
  else if a = Reg.monInj then
    if fld v Reg.monInj_go = 1 then
      let s : State := { s with mon := { s.mon with
        inj := s.mon.inj ++ [(fld v Reg.monInj_ch, fld v Reg.monInj_notify == 1)] } }
      s.fput Reg.monStat_inj_pend s.mon.inj.length
    else s
  else if a = Reg.monBlank then
    if before.flag Reg.monBlank_pol = s.flag Reg.monBlank_pol then s
    else if s.blankActive then s.blankRose else s.blankFell
  else
    match famIx Reg.monChCfg 16 a with
    | some n =>
      if chanKey n (before.rget a).toNat = chanKey n (s.rget a).toNat then s else faults (s.monChanged n (before.monHeld n))
    | none =>
      match famIx Reg.monChCmwin 16 a with
      | some n => if before.rget a = s.rget a then s else s.monChanged n (before.monHeld n)
      | none =>
        match famIx Reg.monChCtrl 16 a with
        | some n =>
          if fld v (Reg.monChCtrl_load n) = 1 then s.setChan n { s.chan n with load := true } else s
        | none => s

/-- Ports follow HST_CTRL.MODE and PRIMARY (R327): SINGLE disables the other port; STANDBY starts with PRIMARY active. -/
def State.portModes (s : State) (fresh : Bool) : State :=
  let s := if fresh then { s with hst := { s.hst with active := s.primary } } else s
  let s := s.each (List.range 2) (fun p s =>
    if s.portMode = 0 ∧ p ≠ s.primary then
      ((s.setPort p { s.port p with train := true, holding := false }).linkDark p).fput (Reg.hstPortStat_state p) 3
    else if s.portState p = 3 then s.fput (Reg.hstPortStat_state p) 0
    else s)
  let s := if s.portMode = 1 ∧ s.portUp s.hst.active = false ∧ s.portUp (1 - s.hst.active) = true then
      { s with hst := { s.hst with active := 1 - s.hst.active } } else s
  s.showPorts

/-- RESET of a slot (R333, R352): RTS at NEWPSN. What the slot still has to deliver gets new PSNs, and goes out when its
port comes up; a DMA-only slot in ERROR has nothing left (R318). -/
def State.slotReset (s : State) (q : Nat) : State :=
  let x := s.qp q
  let s := s.fput (Reg.qptQpPsn_psn q) (s.fget (Reg.qptQpNewpsn_psn q))
  let s := (s.fput (Reg.qptQpStat_state q) 1).fput (Reg.qptQpStat_err q) 0
  let s := (s.fput (Reg.qptQpStat_run q) 0).fput (Reg.qptQpStat_moved q) 0
  let rate := if s.flag Reg.hstCtrl_lane then 4235 else 4000
  let s := (s.fput (Reg.qptQpRate_r q) rate).fput (Reg.qptQpRate_rt q) rate
  let s := s.setQp q { x with msgs := [], reads := [], acked := none, alpha := 65536, n := 0, react := none }
  let s := x.msgs.foldl (fun s m =>
      let n := (s.takePsn q m.pkts).1
      let s := (s.takePsn q m.pkts).2
      s.setQp q { s.qp q with msgs := (s.qp q).msgs ++ [{ m with psn := n }] }) s
  let s := x.reads.foldl (fun s r =>
      let n := (s.takePsn q 1).1
      let s := (s.takePsn q 1).2
      s.setQp q { s.qp q with reads := (s.qp q).reads ++ [{ r with psn := n }] }) s
  (s.fput (Reg.qptQpStat_reads q) (s.qp q).reads.length).portTry (slotPort q)

/-- FIFO, DMA and host blocks (R304, R315, R319, R327, R333, R351, R378). -/
def State.effectHost (s before : State) (a v : Nat) : State :=
  if a = Reg.hstCtrl then
    if s.portMode = before.portMode ∧ s.primary = before.primary then s else s.portModes (s.portMode != before.portMode)
  else
    match chanAt a with
    | some c =>
      if a = Reg.dmaChCtrl c then
        let s := if fld v (Reg.dmaChCtrl_start c) = 1 then s.dmaArm c .none else s
        if fld v (Reg.dmaChCtrl_stop c) = 1 then s.dmaStop c else s
      else s
    | none =>
      match famIx Reg.hstPortCtrl 2 a with
      | some p =>
        if fld v (Reg.hstPortCtrl_down p) = 1 then
          if before.flag (Reg.hstPortCtrl_down p) || !s.portUp p then s else s.portDown p 4 0
        else s.portTry p
      | none =>
        match famIx Reg.qptQpCtrl 16 a with
        | some q => if fld v (Reg.qptQpCtrl_reset q) = 1 then s.slotReset q else s
        | none => s

/-- A device reset is caused (R358): it takes effect 1 µs later. Through the command ring it ends the ring's work (R347). -/
def State.deviceReset (s : State) (p : Path) : State :=
  { s with
    cfg := { s.cfg with due := some (s.cfg.due.getD false) }
    cmd := if p = .ring then { s.cmd with stopped := true } else s.cmd }

/-- The seal buffer as bytes (R385). -/
def State.sealBuf (s : State) (n : Nat) : List Byte :=
  ((List.range 512).flatMap (fun w => leBytes 4 (s.rget (Reg.secSealBuf w)).toNat)).take n

/-- Zero IV and tag, and the buffer from a byte on (R385). -/
def State.sealClear (s : State) (p : Nat) : State :=
  let s := s.each (List.range 3) (fun i s => s.rput (Reg.secSealIv i) 0)
  let s := s.each (List.range 4) (fun i s => s.rput (Reg.secSealTag i) 0)
  s.each ((List.range 512).filter (fun w => decide (p ≤ 4 * w))) (fun w s => s.rput (Reg.secSealBuf w) 0)

/-- The fuse operation of a write to SEC_FUSE_CTRL (R384): the reason of its refusal, 0 for none. -/
def State.fuseReason (s : State) (p : Path) (v : Nat) : Nat :=
  let op := fld v Reg.secFuseCtrl_op
  let floor := (tget (fun _ => 0) s.sec.fuseData 0).toNat % 64
  if fld v Reg.secFuseCtrl_key ≠ 0xF05E ∨ op = 0 then 0
  else if s.running then 2
  else if s.sec.burning.isSome then 3
  else if op = 1 then (if p = .twb ∧ s.sec.pkhNow.all (fun b => b == 0) = true then 0 else 1)
  else if op = 2 then
    if s.flag Reg.sysState_loaded && decide (popcount 32 s.sec.svn < floor ∧ floor ≤ (s.rget Reg.cfgSvn).toNat) then 0 else 1
  else 0

/-- Reason a write to the SEC block is refused, 0 for none (R384, R385). -/
def State.secReason (s : State) (p : Path) (a v : Nat) : Nat :=
  if a = Reg.secFuseCtrl then s.fuseReason p v
  else if a = Reg.secSealCtrl ∧ fld v Reg.secSealCtrl_go = 1 then
    let n := fld v Reg.secSealCtrl_p
    if p ≠ .twb then 4
    else if n = 0 ∨ n % 16 ≠ 0 ∨ 2048 < n then 1
    else if s.flag Reg.secSealCtrl_busy then 3
    else 0
  else 0

/-- CFG_RESET, fuses, sealing, zeroisation (R358, R384 to R386). -/
def State.effectSec (s : State) (p : Path) (a v : Nat) : State :=
  if a = Reg.cfgReset then (if v = 0xA5A55A5A then s.deviceReset p else s)
  else if a = Reg.secFuseCtrl then
    if fld v Reg.secFuseCtrl_key = 0xF05E ∧ fld v Reg.secFuseCtrl_op ≠ 0 then
      { s with sec := { s.sec with burning := some (fld v Reg.secFuseCtrl_op
                                                   , (List.range 8).map (tget (fun _ => 0) s.sec.fuseData)) } }
    else s
  else if a = Reg.secZeroise then
    if v = 0x5EC00001 then
      let s := s.enterSafe .force
      { s with sec := { s.sec with zeroDue := true } }
    else s
  else if a = Reg.secSealCtrl then
    if fld v Reg.secSealCtrl_go = 1 then
      (s.sealClear (fld v Reg.secSealCtrl_p)).fput Reg.secSealCtrl_busy 1
    else s
  else
    match famIx Reg.secFuseData 8 a with
    | some i => { s with sec := { s.sec with fuseData := tput (fun _ => 0) s.sec.fuseData i (BitVec.ofNat 32 v) } }
    | none => s

/-- A pattern engine's phase restarts at a write of its settings (R405). -/
def State.effectInd (s : State) (a : Nat) : State :=
  match (List.range 4).find? (fun e => Reg.indEngCfg e / 32 == a / 32) with
  | some e => if a = Reg.indEngCfg e ∨ a = Reg.indEngTime e ∨ a = Reg.indEngArg e then s.engRestart e else s
  | none => s

/-- What an accepted register write makes its block do; `before` is the state before the fields were written. -/
def State.effect (s before : State) (p : Path) (a v : Nat) : State :=
  match a / 0x10000 with
  | 0x00 => s.effectSys before p a v
  | 0x01 | 0x02 => s.effectSec p a v
  | 0x03 | 0x04 | 0x07 | 0x08 => s.effectHost before a v
  | 0x09 | 0x0B => s.effectVideo a v
  | 0x0F => s.effectLamp before a v
  | 0x0D | 0x0E => s.effectPool a v
  | 0x10 => s.effectInd a
  | 0x11 | 0x12 =>
    match engAt a with
    | some (k, e) => s.engWrite k e v
    | none => s.effectTrack a v
  | 0x14 => s.effectMotion before a v
  | 0x15 => (s.effectPos a v).claimPort a
  | 0x16 => s.effectMon before a v
  | _ => s

/-- Carry out a write that nothing refuses. -/
def State.doWrite (s : State) (p : Path) (d : RegDesc) (a v : Nat) : State :=
  if a = Reg.sysSafeCause then s.clearCauses v
  else if a = Reg.shdBank then s.selectBank (fld v Reg.shdBank_sel)
  else
    let t := (s.putReg d a v).effect s p a v
    if claimRegs.contains a then t.reclaim else t

/-- Writable multi-word values (R28): first word, stride and number of instances, words. -/
def writeGroups : List (Nat × Nat × Nat × Nat) :=
  [ (Reg.pxeDeckle0, 8, 1, 2), (Reg.nzlBandLine0 0, 0x10, 4, 2), (Reg.motAxSetpos0 0, 0x100, 8, 2)
  , (Reg.dmaChSrc0 0, 0x40, 32, 2), (Reg.dmaChDst0 0, 0x40, 32, 2), (Reg.dmaChNext0 0, 0x40, 32, 2) ]

/-- The writable value an address belongs to: address of its first word, number of words, index of the word. -/
def writeGroup (a : Nat) : Option (Nat × Nat × Nat) :=
  writeGroups.findSome? (fun g =>
    if g.1 ≤ a ∧ a < g.1 + g.2.1 * g.2.2.1 ∧ (a - g.1) % g.2.1 < 4 * g.2.2.2 ∧ a % 4 = 0 then
      some (a - (a - g.1) % g.2.1, g.2.2.2, (a - g.1) % g.2.1 / 4)
    else none)

/-- A held part of a path (R28). -/
def State.heldPart (s : State) (p : Path) (a : Nat) : Option Word := tget (fun _ => none) s.sys.held (pathKey p a)

def State.setHeld (s : State) (p : Path) (a : Nat) (w : Option Word) : State :=
  { s with sys := { s.sys with held := tput (fun _ => none) s.sys.held (pathKey p a) w } }

/-- The value a part takes that no held write gives (R28): MOT_AX_a_SETPOS reads as the present position. -/
def State.partNow (s : State) (a : Nat) : Nat :=
  match famIx Reg.motAxSetpos0 8 a with
  | some x => (s.rget (Reg.motAxPos0 x)).toNat
  | none => s.shadowed a

/-- The low words that complete a multi-word value: held parts, else what the field holds (R28). -/
def State.lowPart (s : State) (p : Path) (base : Nat) : Nat :=
  ((s.heldPart p base).map (·.toNat)).getD (s.partNow base)

/-- The word each other register holds when a write on a path is checked: within a multi-word value, its low word. -/
def State.othersFor (s : State) (p : Path) (a : Nat) : Nat → Nat :=
  match writeGroup a with
  | some (base, _, _) => fun b => if b = base then s.lowPart p base else s.shadowed b
  | none => s.shadowed

/-- A word of a multi-word value that is only held (R28). -/
def heldOnly (a : Nat) : Bool :=
  match writeGroup a with
  | some (_, n, i) => decide (i + 1 < n)
  | none => false

/-- The SAFE controller owns these blocks in SAFE (R38). -/
def safeBlock (a : Nat) : Bool := a / 0x10000 == 0x14 || a / 0x10000 == 0x0F || a / 0x10000 == 0x10

/-- A register with something to write. -/
def RegDesc.writes (d : RegDesc) : Bool := d.flds.any (fun f => f.acc != .ro && f.acc != .rc)

/-- The reason for which a register write on a path is refused (R349), 0 when nothing refuses it: blocks that do not answer
(R382), the SAFE controller's blocks (R38), the sealing registers (R385), the rules of the register itself. -/
def State.regReason (s : State) (p : Path) (a : Nat) (v : Word) : Nat :=
  if s.bare && !bareBlock a then 2
  else
    match findReg a with
    | none => 0
    | some d =>
      if s.isSafe && safeBlock a then 4
      else if p = .ring && sealReg a then 4
      else if !d.writes || heldOnly a then
        -- even a register without writable fields, or a word only held, is refused there (R315)
        (match chanAt a with
        | some c => s.chanReason c a v.toNat
        | none => 0)
      else
        let r := s.writeReason (s.othersFor p a) a v.toNat (s.newWord d a v.toNat)
        if r = 0 then s.secReason p a v.toNat else r

/-- A word of a multi-word value (R28, R233): a lower word is held, and word 0 discards held parts; the highest one
completes the value. -/
def State.partWrite (s : State) (p : Path) (base n i : Nat) (v : Word) : State :=
  let a := base + 4 * i
  if i + 1 < n then
    let s := if i = 0 then s.each (List.range n) (fun k s => s.setHeld p (base + 4 * k) none) else s
    s.setHeld p a (some v)
  else
    let low := s.lowPart p base
    let s := s.setHeld p base none
    match famIx Reg.motAxSetpos1 8 a with
    | some x => s.setPosition x (toInt 48 (low + 2 ^ 32 * v.toNat))
    | none =>
      match findReg base, findReg a with
      | some d0, some d1 => (s.putReg d0 base low).doWrite p d1 a v.toNat
      | _, _ => s

/-- A register write that nothing refuses. Any write among the registers of a DMA channel without an owner claims it for the
host (R315, R378). -/
def State.regDo (s : State) (p : Path) (a : Nat) (v : Word) : State :=
  match findReg a with
  | none => s
  | some d =>
    let s := match chanAt a with
      | some c => s.claimChannel c
      | none => s
    if !d.writes then s
    else
      match writeGroup a with
      | some (base, n, i) => s.partWrite p base n i v
      | none => s.doWrite p d a v.toNat

/-- Held parts of a value whose completion is refused are gone (DESIGN CHOICE, log entry 89: R28 does not say). -/
def State.dropHeld (s : State) (p : Path) (a : Nat) : State :=
  match writeGroup a with
  | some (base, _, _) => s.setHeld p base none
  | none => s

/-- A register write on a path. Nothing answers while the control island is lost (R12). -/
def State.regWrite (s : State) (p : Path) (a : Nat) (v : Word) : State :=
  if s.sys.ctlLost then s
  else
    let r := s.regReason p a v
    if r = 0 then s.regDo p a v else (s.dropHeld p a).regRefused p a v r

end Sys2Proof.Machine
end

