-- ==== Sys2Proof/Machine/RingOps.lean ====
section
/-!
DEFINITION. The command ring's own work (R338, R339, R344 to R347, R407): polls, entries taken, and the commands that
concern no other block.
-/

namespace Sys2Proof.Machine

/-- NOP (R346). -/
def State.nop (s : State) (e : CmdEntry) : State := s.cmdFinish 0 e 0

/-- The writes of a REG_WRITE in order (R347): the mask of those refused. A write of the reset code ends them. -/
def State.ringWrites (s : State) (k mask : Nat) : List (Nat × Word) → State × Nat
  | [] => (s, mask)
  | (a, v) :: r =>
    let mask := if s.regReason .ring a v = 0 then mask else mask + 2 ^ k
    let s := s.regWrite .ring a v
    if s.cmd.stopped then (s, mask) else s.ringWrites (k + 1) mask r

/-- REG_WRITE (R346, R347). -/
def State.regWriteCmd (s : State) (e : CmdEntry) : State :=
  if writeCount e = 0 ∨ 6 < writeCount e then s.cmdRefuse 1 e 1 0
  else
    let r := (s.cmdAccept 1 e).ringWrites 0 0 (writeList e)
    if r.1.cmd.stopped then r.1 else r.1.cmdDone 1 e (pf 23 1 r.2)

/-- The reads of a REG_READ in order (R347): the values. -/
def State.ringReads (s : State) : List Nat → List Word × State
  | [] => ([], s)
  | a :: r =>
    let x := s.readReg .ring a
    let y := x.2.ringReads r
    (x.1 :: y.1, y.2)

/-- Bytes of the control region, as the port that carries control traffic has it (R335, R373). -/
def State.ctlSize (s : State) : Nat := s.regionKey s.ctrlPort 40 8

/-- REG_READ (R346, R347). -/
def State.regReadCmd (s : State) (e : CmdEntry) : State :=
  let n := readCount e
  let o := readOffset e
  let event := o = 0xFFFFFFFF
  if n = 0 ∨ 8 < n then s.cmdRefuse 2 e 1 0
  else if event ∧ n ≠ 1 then s.cmdRefuse 2 e 1 0
  else if ¬ event ∧ (o % 64 ≠ 0 ∨ s.ctlSize < o + 64) then s.cmdRefuse 2 e 1 0
  else
    let r := (s.cmdAccept 2 e).ringReads (readList e)
    if event then r.2.cmdDoneEvent 2 e.tag.toNat (pf 24 4 ((r.1.map (·.toNat)).headD 0))
    else
      let b := padTo 60 (r.1.flatMap (fun w => leBytes 4 w.toNat)) ++ leBytes 2 e.tag.toNat ++ zeros 2
      (r.2.ctlPost o b).cmdDone 2 e 0

/-- The checks of R313 that a TABLE_LOAD's arguments decide (R346). -/
def State.loadOk (s : State) (e : CmdEntry) : Bool :=
  loadCount e % 64 == 0 && loadCount e != 0 && loadSrc e % 64 == 0 && loadDst e % 64 == 0 && isHost (loadSrc e) &&
    !isHost (loadDst e) && s.rangeOk (loadSrc e) (loadCount e) false && s.rangeOk (loadDst e) (loadCount e) true

/-- The idle channel a TABLE_LOAD runs on: the lowest-numbered one owned by TABLE_LOAD. -/
def State.loadChannel (s : State) : Option Nat :=
  (List.range 32).find? (fun c => s.owner 3 c == 9 && (s.chState c == 0 || s.chState c == 5))

/-- TABLE_LOAD (R346). -/
def State.tableLoad (s : State) (e : CmdEntry) : State :=
  if !s.loadOk e then s.cmdRefuse 7 e 1 0
  else
    match s.loadChannel with
    | none => s.cmdRefuse 7 e 3 0
    | some c =>
      let s := s.cmdAccept 7 e
      let s := ((s.wput (Reg.dmaChSrc0 c) (loadSrc e)).wput (Reg.dmaChDst0 c) (loadDst e)).wput (Reg.dmaChNext0 c) 0
      let s := s.rput (Reg.dmaChCount c) (BitVec.ofNat 32 (loadCount e))
      let s := ((s.fput (Reg.dmaChCtrl_op c) 0).fput (Reg.dmaChCtrl_som c) 0).fput (Reg.dmaChCtrl_notify c) 0
      let s := s.dmaArm c (.tableLoad e.tag.toNat e.flags.toNat)
      (s.setCh c { s.ch c with go := true }).useBanks c (s.regDesc c).banks

/-- INDICATE (R346, R407): reserved bits refuse it with reason 7, a field out of range with reason 1. -/
def State.indicate (s : State) (e : CmdEntry) : State :=
  let w0 := cmdArg e 0
  let w6 := cmdArg e 6
  let x := bitsAt w0 0 2
  let type := bitsAt w0 8 2
  if w0 &&& 0x00FF1313 ≠ w0 ∨ w6 &&& 0x007F017F ≠ w6 then s.cmdRefuse 11 e 7 0
  else if type ≠ 2 ∧ bitsAt (cmdArg e 1) 16 16 = 0 then s.cmdRefuse 11 e 1 0
  else
    let s := ((s.fput (Reg.indEngCfg_en x) (bitsAt w0 4 1)).fput (Reg.indEngCfg_type x) type).fput (Reg.indEngCfg_src x)
      (bitsAt w0 12 1)
    let s := s.fput (Reg.indEngCfg_level x) (bitsAt w0 16 8)
    let s := s.rput (Reg.indEngTime x) (BitVec.ofNat 32 (cmdArg e 1))
    let s := ((s.fput (Reg.indEngArg_len x) (bitsAt w6 16 7)).fput (Reg.indEngArg_dir x) (bitsAt w6 8 1)).fput
      (Reg.indEngArg_p x) (bitsAt w6 0 7)
    let s := s.each (List.range 4) (fun k s => s.rput (Reg.indEngMask x k) (BitVec.ofNat 32 (cmdArg e (2 + k))))
    (s.engRestart x).cmdFinish 11 e 0

/-- SNAPSHOT (R25, R346): merged with a request that pends; CMD_DONE follows the snapshot. -/
def State.snapshotCmd (s : State) (e : CmdEntry) : State :=
  let s := s.cmdAccept 12 e
  { s with sys := { s.sys with snapPend := true }, cmd := { s.cmd with snaps := s.cmd.snaps ++ [e] } }

/-- The requested snapshot is taken (R25): at the LB of line `line`, or outside a job. -/
def State.snapshotNow (s : State) : State :=
  let line := if s.running then s.lastLb else lineNone
  let done := s.cmd.snaps
  let s := s.snapTake line
  let s : State := { s with cmd := { s.cmd with snaps := [] } }
  done.foldl (fun s e => s.cmdDone 12 e (pf 24 6 line)) s

/-- SAFE_CLEAR (R39, R346): outside SAFE done at once; else SAFE_N is released and the ring held for the 10 µs wait. -/
def State.safeClearCmd (s : State) (e : CmdEntry) : State :=
  if !s.isSafe then s.cmdFinish 13 e 0
  else { s with sys := { s.sys with safeNLow := false, safeClear := some e } }

/-- The re-evaluation after the wait (R39). -/
def State.safeClearEval (s : State) : State :=
  match s.sys.safeClear with
  | none => s
  | some e =>
    let s := if s.sys.extLow then s.latchCause .ext else s
    let s : State := { s with sys := { s.sys with safeClear := none } }
    let s := ((s.clearActive .force).clearActive .motion).clearCauses (2 ^ 12 - 1)
    let left := s.fget Reg.sysSafeCause_val
    let s :=
      if left = 0 then s.leaveSafe.cmdFinish 13 e 0
      else ({ s with sys := { s.sys with safeNLow := true } } : State).cmdRefuse 13 e 6 (pf 24 4 left)
    s.cmdNext

/-- The phase bit expected of entry `c` (R343). -/
def cmdPhase (count c : Nat) : Bool := count != 0 && c / count % 2 == 0

/-- CI_CMD advances by one entry taken (R344). -/
def State.takeEntry (s : State) (b : List Byte) (bad : Bool) : State :=
  let ci := s.wget Reg.cmdCi0
  let s := (s.wput Reg.cmdCi0 (ci + 1)).fput Reg.cmdStat_retry 0
  let s := s.fputB Reg.cmdStat_phase (cmdPhase (s.fget Reg.cmdCount_ccount) (ci + 1))
  let t : Taken := { op := (entryOf b).1, entry := (entryOf b).2, bad := bad }
  let s : State := { s with cmd := { s.cmd with taken := s.cmd.taken ++ [t] } }
  if bad then s.raise 0x3003 .warn 0 (pf 24 8 ci) else s

/-- The entries of a poll's READ, in order (R344): an entry whose phase does not match, or whose CHECK fails for the first
or second time in a row, ends the batch. -/
def State.takeEntries (s : State) : List (List Byte) → State
  | [] => s
  | b :: r =>
    let ci := s.wget Reg.cmdCi0
    if bitAt (leAt b 0 1) 7 != cmdPhase (s.fget Reg.cmdCount_ccount) ci then s
    else if crc32c (b.take 60) = leAt b 60 4 then (s.takeEntry b false).takeEntries r
    else
      let s := s.bump Reg.cmdCntCheck_val 1
      let n := s.fget Reg.cmdStat_retry + 1
      if n < 3 then s.fput Reg.cmdStat_retry n else (s.takeEntry b true).takeEntries r

/-- Cut a byte string into pieces of 64 bytes. -/
def chunks64 (n : Nat) (b : List Byte) : List (List Byte) := (List.range n).map (fun i => (b.drop (64 * i)).take 64)

/-- The bytes of a READ response. -/
def readBytes : ReadData → List Byte
  | .credits a b => leBytes 8 a.toNat ++ leBytes 8 b.toNat
  | .entries es => es.flatten
  | .data b => b

/-- A READ of a poll or of the standby port; those of channels are answered by the rows that need them. -/
def RdKind.polls : RdKind → Bool
  | .dma _ _ _ => false
  | _ => true

/-- The response to the oldest READ of the device's own polls on a slot (R339, R344). -/
def State.readResponse (s : State) (q : Nat) (r : ReadData) : State :=
  match (s.qp q).reads.find? (fun d => d.kind.polls) with
  | none => s
  | some d =>
    let s := (s.readsLeft q ((s.qp q).reads.erase d)).fput (Reg.qptQpStat_run q) 0
    let b := readBytes r
    match d.kind with
    | .standby => s
    | .dma _ _ _ => s
    | .credits => (s.creditLine (leAt b 0 8)).creditEvent (leAt b 8 8)
    | .cmds first n =>
      let s := s.fput Reg.cmdStat_fetch 0
      if first ≠ s.wget Reg.cmdCi0 then s
      else
        let s := s.takeEntries ((chunks64 n b).takeWhile (fun c => c.length == 64))
        let took := s.wget Reg.cmdCi0 != first
        let s := if took then s.statusBlock else s
        s.cmdNext

/-- Whether a READ of the previous poll is unanswered (R339). -/
def State.pollOpen (s : State) : Bool :=
  (List.range 16).any (fun q => ((s.qp q).reads.map (·.kind) ++ (s.qp q).rdWait).any (fun k => k.polls && k != .standby))

/-- A poll (R339, R344). -/
def State.poll (s : State) : State :=
  match s.ctrlQp with
  | none => s
  | some q =>
    if s.pollOpen then s.bump Reg.hstPollSkip_val 1
    else
      let s := s.postRead q .credits
      let n := s.fget Reg.cmdCount_ccount
      if s.flag Reg.cmdCtrl_pause || n == 0 then s
      else
        let c := s.wget Reg.cmdCi0
        (s.postRead q (.cmds c (min 8 (n - c % n)))).fput Reg.cmdStat_fetch 1

/-- The standby port reads the credit block (R327). -/
def State.standbyPoll (s : State) : State :=
  let p := 1 - s.hst.active
  if s.portMode = 1 ∧ s.portUp p = true then
    match s.ctrlSlot p with
    | some q => if (s.qp q).reads.length < 8 then s.postRead q .standby else s
    | none => s
  else s

/-- The link of a port fails (R351): its LINK_HOLD timer starts. Loss of alignment or FEC lock, and a local fault, show in
LFAULT, a fault at the other end in RFAULT (PRESUMED, log entry 27). -/
def State.linkLost (s : State) (p : Nat) (remote : Bool) : State :=
  if s.flag (Reg.hstPortStat_link p) then
    let s := (s.fput (Reg.hstPortStat_link p) 0).fput
      (if remote then Reg.hstPortStat_rfault p else Reg.hstPortStat_lfault p) 1
    s.setPort p { s.port p with holding := true }
  else s

/-- The link of a port is aligned, without a fault (R351, R354). -/
def State.linkGood (s : State) (p : Nat) : State :=
  ((s.fput (Reg.hstPortStat_link p) 1).fput (Reg.hstPortStat_lfault p) 0).fput (Reg.hstPortStat_rfault p) 0

/-- The loss has lasted LINK_HOLD (R351): the port goes down, or one not yet up waits for a new link. -/
def State.linkHeld (s : State) (p : Nat) : State :=
  if (s.port p).holding && !s.flag (Reg.hstPortStat_link p) then
    if s.portState p = 2 then s.portDown p 1 0
    else
      let s := s.setPort p { s.port p with holding := false, train := true }
      if s.portState p = 1 then s.fput (Reg.hstPortStat_state p) 0 else s
  else s

/-- The PCS realigns within LINK_HOLD (R351): unacknowledged messages are sent again. -/
def State.linkBack (s : State) (p : Nat) : State :=
  if (s.port p).holding then
    let s := (s.linkGood p).setPort p { s.port p with holding := false }
    if s.portUp p then s.each ((portSlots p).filter (fun q => s.qpRts q && !s.qpMoved q)) (fun q s => s.resend q) else s
  else s

/-- Link training of a port completes (R351); before an image is loaded the SerDes are idle (R359, R382). -/
def State.linkTrained (s : State) (p : Nat) : State :=
  if (s.port p).train && s.portState p != 3 && s.flag Reg.sysState_loaded then
    (s.linkGood p).setPort p { s.port p with train := false, holding := false }
  else s

/-- The pause of a port ends (R330): its time stays counted, and the frames that waited go out. -/
def State.pauseEnd (s : State) (p : Nat) : State :=
  if s.flag (Reg.hstPortStat_paused p) then
    let x := s.port p
    let s := (s.setPort p { x with held := [], pausedNs := s.pauseTime p }).fput (Reg.hstPortStat_paused p) 0
    x.held.foldl State.out s
  else s

/-- A PFC frame (R330): it pauses or releases priority PCP. -/
def State.pfc (s : State) (p prio quanta : Nat) : State :=
  if !s.flag (Reg.hstPortStat_link p) || prio != s.fget Reg.hstNet_pcp then s
  else if quanta = 0 then s.pauseEnd p
  else if s.flag (Reg.hstPortStat_paused p) then s
  else (s.setPort p { s.port p with pausedAt := s.sys.now }).fput (Reg.hstPortStat_paused p) 1

/-- The pause watchdog (R330): PFC_STALL, and the port goes down with cause PFC. -/
def State.pfcStall (s : State) (p : Nat) : State :=
  if s.flag (Reg.hstPortStat_paused p) && s.portUp p && s.fget Reg.hstNet_pfc_wd != 0 then
    let t := (s.sys.now - (s.port p).pausedAt) / 1000
    (s.raise 0x2005 .warn p (pf 24 4 t)).portDown p 3 0
  else s

/-- A received frame that no rule accepts (R329). -/
def State.discardFrame (s : State) (p : Nat) : State :=
  if s.flag (Reg.hstPortStat_link p) then s.bump (Reg.hstPortRxdisc_val p) 1 else s

/-- A received frame is accepted by its destination MAC and its VLAN (R329); that its FCS is correct is part of the commands
that bring its content. -/
def State.rxAccepts (s : State) (p : Nat) (f : RxFrame) : Bool :=
  (f.dmac.toNat == s.portMac p || f.dmac.toNat == 2 ^ 48 - 1) &&
    (match f.vlan with
    | some v => s.flag Reg.hstNet_vlan_en && v.toNat == s.fget Reg.hstNet_vid
    | none => !s.flag Reg.hstNet_vlan_en)

/-- A frame is received on a port (R329, R354): what FEC has met is counted, and the frame is handled or discarded. -/
def State.rxFrame (s : State) (p : Nat) (f : RxFrame) (g : State → State) : State :=
  let s := if s.flag (Reg.hstPortStat_link p) then
      (s.bump (Reg.hstPortFecCorr_val p) f.corr.toNat).bump (Reg.hstPortFecUncorr_val p) f.uncorr.toNat
    else s
  if s.rxAccepts p f then g s else s.discardFrame p

/-- A RoCEv2 packet is received for a slot (R329): without an enabled queue pair it is discarded. -/
def State.rxPacket (s : State) (q : Nat) (f : RxFrame) (g : State → State) : State :=
  s.rxFrame (slotPort q) f (fun s => if s.qpOn q then g s else s.discardFrame (slotPort q))

/-- An ARP request (R329). -/
def State.arp (s : State) (p target mac ip : Nat) : State :=
  if s.flag (Reg.hstPortStat_link p) && target == s.portIp4 p then
    s.emit p (.arp p s.vlanTag true mac (s.portMac p) (s.portIp4 p) mac ip)
  else s.discardFrame p

/-- A neighbour solicitation (R329). -/
def State.neighbour (s : State) (p target mac ip : Nat) : State :=
  if s.flag (Reg.hstPortStat_link p) && target == s.portIp6 p then
    s.emit p (.nadv p s.vlanTag mac ip (s.portMac p) target true)
  else s.discardFrame p

/-- A NAK (R333, R350). -/
def State.nak (s : State) (q : Nat) (c : NakCode) : State :=
  if !s.qpRts q then s
  else
    match c with
    | .seqErr => (s.bump (Reg.qptQpRetry_seqnaks q) 1).qpFailed q
    | .remoteAccess => s.qpError q 2
    | .remoteOperational => s.qpError q 3
    | .invalidRequest => s.qpError q 4
    | .rnr => s.qpError q 5

/-- No acknowledgement within T (R318, R333): of a message, of a READ, or of what DMA awaits. -/
def State.ackTimeout (s : State) (q : Nat) : State :=
  let s := if s.sends q then s.readsShow q else s
  let x := s.qp q
  let waits := x.reads != [] || x.msgs.any (fun m => match x.acked with
    | some a => !psnGe a m.last
    | none => true)
  if s.qpRts q && s.portUp (slotPort q) && waits then (s.bump (Reg.qptQpRetry_timeouts q) 1).qpFailed q else s

/-- Highest wire rate, in 100 Mbit/s (R334). -/
def State.rateMax (s : State) : Nat := if s.flag Reg.hstCtrl_lane then 4235 else 4000

/-- A CNP (R334): counted; with EN = 1 it lowers the rate unless the last reaction is less than 50 µs old. -/
def State.cnp (s : State) (q : Nat) : State :=
  if !s.qpOn q then s
  else
    let s := s.bump (Reg.qptQpCnp_val q) 1
    let x := s.qp q
    let recent : Bool := match x.react with
      | some t => decide (s.sys.now < t + 50000)
      | none => false
    if !s.flag Reg.qptEcn1_en || recent then s
    else
      let r := s.fget (Reg.qptQpRate_r q)
      let r' := max (r - r * x.alpha / 2 ^ 17) (s.fget Reg.qptEcn1_rmin)
      let s := (s.fput (Reg.qptQpRate_rt q) r).fput (Reg.qptQpRate_r q) r'
      s.setQp q { x with alpha := x.alpha + (65536 - x.alpha) / 2 ^ s.fget Reg.qptEcn0_g, n := 0, react := some s.sys.now }

/-- 55 µs without a CNP (R334). -/
def State.alphaDecay (s : State) (q : Nat) : State :=
  if s.qpOn q && s.flag Reg.qptEcn1_en then
    let x := s.qp q
    s.setQp q { x with alpha := x.alpha - x.alpha / 2 ^ s.fget Reg.qptEcn0_g }
  else s

/-- RTIMER without a CNP (R334). -/
def State.rateRise (s : State) (q : Nat) : State :=
  if s.qpOn q && s.flag Reg.qptEcn1_en then
    let x := s.qp q
    let rt := s.fget (Reg.qptQpRate_rt q)
    let rt := if 5 < x.n + 1 then min (rt + s.fget Reg.qptEcn0_rai) s.rateMax else rt
    let r := min ((s.fget (Reg.qptQpRate_r q) + rt + 1) / 2) s.rateMax
    ((s.setQp q { x with n := x.n + 1 }).fput (Reg.qptQpRate_rt q) rt).fput (Reg.qptQpRate_r q) r
  else s

end Sys2Proof.Machine
end

