-- ==== Sys2Proof/Machine/SysOps.lean ====
section
/-!
DEFINITION. Guards of the commands; time, heartbeats, the loss of the control island, TSYNC, snapshots; the conditions of the
SAFE causes (R12, R17, R25, R29, R30, R34, R35, R416).
-/

namespace Sys2Proof.Machine

/-- One cycle of the control island (R29): device time, which counts from the release of reset, advances by 2 ns. -/
def State.idle (s : State) : State := if s.cfg.held then s else { s with sys := { s.sys with now := s.sys.now + 2 } }

/-- An operation of the device out of reset: in reset nothing happens (R359, R416). -/
def State.live (s : State) (f : State → State) : State := if s.cfg.held then s else f s

/-- An operation that the control island carries out: nothing happens while it is lost (R12). -/
def State.ctl (s : State) (f : State → State) : State := if s.cfg.held || s.sys.ctlLost then s else f s

/-- A register access on a path: the debug port reaches registers only while it is open (R400). -/
def State.access (s : State) (p : Path) (f : State → State) : State :=
  if p = .dbg && !s.flag Reg.dbgStat_open then s else s.ctl f

/-- A register write on a path (R8, R24). -/
def State.pathWrite (s : State) (p : Path) (a : Nat) (v : Word) : State := s.access p (fun s => s.regWrite p a v)

/-- A register read on a path (R8, R24); the answer leaves the device. -/
def State.pathRead (s : State) (p : Path) (a : Nat) : State :=
  s.access p (fun s => (s.readReg p a).2.out (.value p a (s.readReg p a).1))

/-- A command of the ring (R345): the entry at its head. -/
def State.ringCommand (s : State) (op : Nat) (e : CmdEntry) (f : State → State) : State :=
  s.ctl (fun s => s.command op e f)

/-- A command of the ring that SAFE refuses (R38). -/
def State.ringWork (s : State) (op : Nat) (e : CmdEntry) (f : State → State) : State :=
  s.ringCommand op e (fun s => s.notSafe op e f)

/-- Whether an island gets heartbeats: an enabled segment's, every other but the control island's own (R12, R40). -/
def State.beats (s : State) (i : Nat) : Bool := if i < 64 then s.segEn i else i != 73

/-- The heartbeat round (R12, R34): a lost island that acknowledges again is back. -/
def State.heartbeat (s : State) (ack : Nat) : State :=
  s.each ((List.range 76).filter (fun i => bitAt ack i && s.beats i && !s.alive i)) (fun i s => s.islandBack i)

/-- An island is lost (R12); one without heartbeats is not watched (R40). The control island's loss has commands of its
own. -/
def State.islandGone (s : State) (i kind : Nat) : State := if s.beats i then s.islandLost i kind else s

/-- The motion island declares the control island lost (R12) and raises the SAFE line (R11), on which every island acts: the
outputs, start pulses whose readout has not begun, open measurements (R209), the clocks. -/
def State.controlLost (s : State) (clock : Bool) : State :=
  if s.sys.ctlLost then s
  else
    let s := s.setAlive 73 false
    let s : State := { s with sys := { s.sys with ctlLost := true, ctlKind := if clock then 2 else 1 } }
    s.safeOutputs.abandonPulses.trackSafe.stopClocks

/-- The control island returns (R12): cause ISLAND, ISLAND_LOST naming island 73, SAFE_ENTER. -/
def State.controlBack (s : State) : State :=
  if !s.sys.ctlLost then s
  else
    let s : State := { s with sys := { s.sys with ctlLost := false } }
    let s := (s.setAlive 73 true).latchCause .island
    let s := s.raise 0x0003 .fault 73 (pf 22 1 s.sys.ctlKind)
    let s := ((s.fput Reg.sysState_safe 1).safeEntry).levelCauses
    if s.causeGone .island then s.clearActive .island else s

/-- HOLD_LONG (R17): an LB-class hold has lasted for more than 65,536 lines, or for 65,536 more. -/
def State.holdLong (s : State) : State :=
  if 65536 < s.sys.lbHoldLines then
    let s : State := { s with sys := { s.sys with lbHoldLines := s.sys.lbHoldLines - 65536 } }
    s.raise 0x0004 .warn 0 (pf 22 1 ((s.rget Reg.sysCommitHold).toNat % 8))
  else s

/-- A requested snapshot is taken (R25). -/
def State.snapshotTake (s : State) : State := if s.sys.snapPend then s.snapshotNow else s

/-- The local copies of device time are corrected (R29). -/
def State.timeCorrection (s : State) : State := { s with sys := { s.sys with corrected := s.sys.now } }

/-- An edge on TSYNC (R30). -/
def State.tsyncEdge (s : State) (rising : Bool) (heldNs : Nat) : State :=
  if !s.flag Reg.sysTsyncCtrl_en || rising == s.flag Reg.sysTsyncCtrl_pol || decide (heldNs < 20) then s
  else
    let early := match s.sys.tsyncLast with
      | some t => decide (s.sys.now < t + 1000)
      | none => false
    if early then s.bump Reg.sysTsyncOvr_val 1
    else
      let s : State := { s with sys := { s.sys with tsyncLast := some s.sys.now } }
      (s.wput Reg.sysTsyncTime0 s.sys.now).raise 0x0005 .info 0 (pf 24 8 s.sys.now)

/-- External equipment holds SAFE_N low: cause EXT while the device itself does not drive the pin (R35). -/
def State.safeNLow (s : State) : State :=
  let s : State := { s with sys := { s.sys with extLow := true } }
  if s.sys.safeNLow then s else s.enterSafe .ext

/-- External equipment releases SAFE_N (R34, R35). -/
def State.safeNRelease (s : State) : State :=
  ({ s with sys := { s.sys with extLow := false } } : State).clearActive .ext

/-- The reference clock fails, and is back (R34); a device in reset, or without its control island, only notes it. -/
def State.refclkFault (s : State) : State :=
  ({ s with sys := { s.sys with refOut := true, refBack := none } } : State).ctl (fun s => s.enterSafe .clock)

def State.refclkBack (s : State) : State :=
  if s.sys.refOut then
    ({ s with sys := { s.sys with refOut := false, refBack := some s.sys.now } } : State).ctl (fun s => s.clearActive .clock)
  else s

/-- A rail leaves its window, and is back (R34, R416): the cause is present while any rail is out. A device in reset, or
without its control island, only notes it. -/
def State.supplyFault (s : State) (r : Rail) (low : Bool) : State :=
  (s.railOut r low).ctl (fun s => s.enterSafe .supply)

def State.supplyBack (s : State) (r : Rail) : State :=
  if s.sys.railsOut.contains r then
    let s : State := { s with
      sys := { s.sys with
        railsOut := s.sys.railsOut.filter (fun x => x != r), railsLow := s.sys.railsLow.filter (fun x => x != r) } }
    if s.sys.railsOut.isEmpty then
      ({ s with sys := { s.sys with railsBack := some s.sys.now } } : State).ctl (fun s => s.clearActive .supply)
    else s
  else s

/-- The die is too hot, and has cooled down (R34). -/
def State.thermFault (s : State) : State :=
  ({ s with sys := { s.sys with hot := true } } : State).enterSafe .therm

def State.thermClear (s : State) : State :=
  ({ s with sys := { s.sys with hot := false } } : State).clearActive .therm

/-- Both ports have been down for 500 µs during a job (R34). -/
def State.portsDown (s : State) : State :=
  if s.running && !s.portUp 0 && !s.portUp 1 then s.enterSafe .ports else s

/-- A lamp is commanded on (R34): LAMP_EN is high and some string has a lit time. -/
def State.lampOn (s : State) : Bool :=
  s.flag Reg.lmpStat_lamp_en && s.enabledZones.any (fun z => (List.range 4).any (fun c => decide (0 < s.litForce z c)))

/-- No zone driver has answered on either lamp bus for 1 ms while a lamp is commanded on (R34). -/
def State.lampbusTimeout (s : State) : State := if s.lampOn then s.enterSafe .lampbus else s

/-- ALL_OFF is repeated in SAFE (R36, R114): at once on a free bus, else as its next frame. -/
def State.allOffRepeat (s : State) : State :=
  if s.isSafe || s.sys.ctlLost then
    (s.each (List.range 2) (fun b s =>
      let B := s.lbus b
      if B.cur.isSome then s.setLbus b { B with allOffDue := B.allOffDue + 1 } else s.allOffOn b)).allOffDone
  else s

/-- A delivered value differs from those of the last COMMIT (R99: a COMMIT that changes nothing is not sent). That goes for the
redelivery after ZONE_RESTORED too: without a changed value no COMMIT follows it (DESIGN CHOICE, log entry 93). -/
def State.commitChanges (s : State) : Bool :=
  s.enabledZones.any (fun z => (List.range 4).any (fun c =>
    let S := s.str z c
    S.deliv.i != S.comm.i || S.deliv.t != S.comm.t))

/-- The broadcast slot of R99: once the strobes of the last colour phase have risen, COMMIT goes out on a free bus; a
transaction in progress moves it to the next line. Overlap lines have none (R247), nor has a calibration's capture (R151). -/
def State.commitSlot (s : State) : State :=
  let last := match s.seq.cur with
    | some num => !isOverlap num && s.seq.started == s.colourPhases
    | none => false
  let free := !(List.range 2).any (fun b => s.busUp b && (s.lbus b).cur.isSome)
  if last && s.lmp.rise.isNone && s.lmp.commitDue && !s.lmp.delivering && free then
    if s.commitChanges then s.lampCommit else { s with lmp := { s.lmp with commitDue := false } }
  else s

/-- The strobes of the phase in progress rise (R93, R95); in a DARK phase those of the strings armed (R106). -/
def State.strobeRise (s : State) : State :=
  match s.lmp.rise with
  | none => s
  | some k =>
    let up := (s.risers k).foldl (fun t c => tput (fun _ => false) t c true) s.lmp.strobe
    { s with lmp := { s.lmp with rise := none, strobe := up, diagMask := if s.colour k = 5 then 0 else s.lmp.diagMask } }

/-- A strobe falls (R95). -/
def State.strobeFall (s : State) (c : Nat) : State :=
  { s with lmp := { s.lmp with strobe := tput (fun _ => false) s.lmp.strobe c false } }

/-- 10 µs after the last strobe of the job or capture LAMP_EN falls (R96). -/
def State.lampEnOff (s : State) : State :=
  if s.lmp.offArmed && s.lmp.strobe == [] && s.lmp.rise.isNone then
    ({ s with lmp := { s.lmp with offArmed := false } } : State).setLampEn false
  else s

/-- PING of a zone on a bus is due. -/
def State.pingOn (s : State) (z b : Nat) : State :=
  let B := s.lbus b
  if B.pingDue.contains z then s else s.setLbus b { B with pingDue := B.pingDue ++ [z] }

/-- A NO_REPLY zone is pinged on each bus that is up (R113). -/
def State.zonePing (s : State) (z : Nat) : State :=
  if s.zoneState z = 2 then s.each ((List.range 2).filter s.busUp) (fun b s => s.pingOn z b) else s

/-- A DOWN bus is pinged (R113); the model pings the lowest-numbered answering zone, else the lowest enabled one. -/
def State.busPing (s : State) (b : Nat) : State :=
  if s.fget (Reg.lmpBusStat_state b) = 2 then
    match s.enabledZones.find? (fun z => s.zoneState z == 1), s.enabledZones with
    | some z, _ => s.pingOn z b
    | none, z :: _ => s.pingOn z b
    | none, [] => s
  else s

/-- The SAFE pattern toggles every 250 ms (R408). -/
def State.blink (s : State) : State :=
  if s.flag Reg.indStat_safepat then { s with ind := { s.ind with lit := !s.ind.lit } } else s

end Sys2Proof.Machine
end

