-- ==== Sys2Proof/Machine/MoveOps.lean ====
section
/-!
DEFINITION. MOVE, the driver pins, current levels, phase restoration, event inputs (R220, R225, R226, R230, R232, R234 to R236,
R175, R197, R239, R282).
-/

namespace Sys2Proof.Machine

/-- Reason for which MOVE is refused, 0 when it is accepted (R220, R226): axis 1 moves only through axis 0; the feed pair
belongs to the job while one runs; axis 6 belongs to the shading block while SHUTTER is 1. -/
def State.moveReason (s : State) (e : CmdEntry) : Nat :=
  let a := moveAxis e
  let own := s.owner 4 a
  if moveBad e then 7
  else if a = 1 then 1
  else if (a = 0 ∧ s.running = true) ∨ (2 ≤ a ∧ own ≠ 0 ∧ own ≠ 1) ∨ (a = 6 ∧ s.flag Reg.shdCtrl_shutter = true) ∨
      (moveEvstop e = true ∧ s.owner 1 (moveEvi e) ≠ 2) then 4
  else if (moveRel e = false ∧ s.flag (Reg.motAxStat_ref a) = false) ∨
      (together a).any (fun b => !s.flag (Reg.motAxCtrl_ena b) || s.flag (Reg.motAxStat_flt b) || (s.axis b).restore.isSome)
      then 2
  else if (s.axis a).queued.isSome then 3
  else 0

/-- MOVE (R225, R226, R346). -/
def State.moveCmd (s : State) (e : CmdEntry) : State :=
  let r := s.moveReason e
  if r ≠ 0 then s.cmdRefuse 6 e r 0
  else
    let a := moveAxis e
    let tgt := toInt 48 ((if moveRel e then moveTarget e + s.axPos a else moveTarget e) % 2 ^ 48).toNat
    (s.cmdFinish 6 e 0).moveOrQueue a (.move (moveNotify e) (moveEvstop e) (moveEvi e)) tgt

/-- DRV_FLT_a falls, and rises again (R235). -/
def State.fltFall (s : State) (a : Nat) : State := s.fput (Reg.motAxStat_flt a) 1

def State.fltRise (s : State) (a : Nat) : State :=
  let s := (s.fput (Reg.motAxStat_flt a) 0).setAxis a { s.axis a with faulted := false }
  if s.fget (Reg.motAxStat_state a) = 6 then s.fput (Reg.motAxStat_state a) 0 else s

/-- DRV_FLT_a has been low for 1 µs (R234 to R236, R159): an immediate stop while EN_a is high, AXIS_FAULT in any case. -/
def State.axisFault (s : State) (a : Nat) : State :=
  if !s.flag (Reg.motAxStat_flt a) || (s.axis a).faulted then s
  else
    let on := s.flag (Reg.motAxCtrl_ena a)
    let s := if on then s.stopAxes [a] 6 else s
    let s := (s.setAxis a { s.axis a with faulted := true }).raise 0xC003 .fault a (pfI 24 6 (s.axPos a))
    let s := if a = 6 then s.calAxis else s
    if on && decide (a < 2) then s.feedStop a 2 else s

/-- HOLD_DLY after a move has ended and no move has started, the current drops to HOLD (R230). -/
def State.holdDrop (s : State) (a : Nat) : State := if s.moving a then s else s.fput (Reg.motAxStat_hold a) 1

/-- 100 µs after a move from HOLD has started its first step may come (R230). -/
def State.startDelay (s : State) (a : Nat) : State := s.setAxis a { s.axis a with delay := false }

/-- Corrective steps of a restoration (R232). -/
def phaseSteps (save : Nat) : Int := if save ≤ 512 then save else (save : Int) - 1024

/-- PHOME_a is high (R232): in phase restoration PH becomes 0 and the corrective steps begin. -/
def State.phomeRise (s : State) (a : Nat) : State :=
  let s := s.fput (Reg.motAxStat_phome a) 1
  match (s.axis a).restore with
  | some .seek =>
    let n := phaseSteps (s.fget (Reg.motAxPhase_ph_save a))
    (s.fput (Reg.motAxPhase_ph a) 0).setAxis a { s.axis a with restore := some (if n = 0 then .done else .step n 0) }
  | _ => s

/-- PHOME_a has not been high within 1 ms (R232): the pin is low. -/
def State.phaseFail (s : State) (a : Nat) : State :=
  match (s.axis a).restore with
  | some .seek =>
    let s := (s.setAxis a { s.axis a with restore := none }).fput (Reg.motAxStat_state a) 0
    let s := (s.fput (Reg.motAxPhase_ph a) 0).raise 0xC007 .fault a (pf 24 2 (s.fget (Reg.motAxPhase_ph_save a)))
    ((s.fput (Reg.motAxStat_ref a) 0).fput (Reg.motAxStat_unc a) 1).fput (Reg.motAxStat_phome a) 0
  | _ => s

/-- The corrective steps have ended (R232). An advance that waits for the pair may follow. -/
def State.phaseRestored (s : State) (a : Nat) : State :=
  match (s.axis a).restore with
  | some .done =>
    let s := (s.setAxis a { s.axis a with restore := none }).fput (Reg.motAxStat_state a) 0
    (s.raise 0xC006 .info a (pf 24 2 (s.fget (Reg.motAxPhase_ph_save a)))).advanceTry
  | _ => s

/-- The first rising edge on EVI_g after a move with EVSTOP has started latches the position and halts it (R226). -/
def State.evstop (s : State) (g : Nat) : State :=
  s.each (List.range 8) (fun a s =>
    match (s.axis a).run with
    | some (.move n true h) =>
      if h = g then
        let s := s.wput48 (Reg.motAxLatch0 a) (s.axPos a)
        (s.setAxis a { s.axis a with run := some (.move n false h) }).halt a
      else s
    | _ => s)

/-- An edge on EVI_g: a rising one reaches its user (R175, R197, R226, R239, R282). -/
def State.eviEdge (s : State) (g : Nat) (rising : Bool) : State :=
  let was := tget (fun _ => false) s.seq.evi g
  let s : State := { s with seq := { s.seq with evi := tput (fun _ => false) s.seq.evi g rising } }
  if was || !rising then s
  else
    let s := ((s.bandEvi g).trackEvi g).evstop g
    let s :=
      if bitsAt s.seqCtl 26 2 = g then s.monTriggerBy 2 else s
    if s.linesByEdge && s.fget Reg.motCtrl_levi == g then s.lineTrigger s.feedNm else s

end Sys2Proof.Machine
end

