-- ==== Sys2Proof/Machine/BringOps.lean ====
section
/-!
DEFINITION. The bring-up of the segments at start-up, the end of training, the completion of start-up (R50, R63, R372, R379,
R380).
-/

namespace Sys2Proof.Machine

/-- How a frame ends (R60): acknowledged, in error, or with its repeats exhausted. -/
inductive FrameEnd where
  | ack | nak | gone
  deriving DecidableEq, Repr

/-- The course of a frame (R60): times it is sent, repeats used, the last status, its end. -/
structure FrameRun where
  sends : Nat
  repeats : Nat
  status : Nat
  fin : FrameEnd
  deriving DecidableEq, Repr

/-- The course of a frame through the statuses it is answered with (R60); none left counts as ACK. -/
def frameRun (sends repeats busies : Nat) : List (BitVec 4) → FrameRun
  | [] => { sends := sends + 1, repeats := repeats, status := 10, fin := .ack }
  | a :: l =>
    let stop (e : FrameEnd) : FrameRun := { sends := sends + 1, repeats := repeats, status := a.toNat, fin := e }
    if a = 10 then stop .ack
    else if a = 6 then stop .nak
    else if a = 3 then (if busies < 100 then frameRun (sends + 1) repeats (busies + 1) l else stop .gone)
    else if repeats < 3 then frameRun (sends + 1) (repeats + 1) busies l
    else stop .gone

/-- Statuses with which a segment that is not there answers a frame (R60): no reply. -/
def noReply : List (BitVec 4) := [15, 15, 15, 15]

/-- A frame of the bring-up on segment `k`'s control bus (R60, R63); its replies are part of the command. `answer` is the word
that an acknowledged read brings. -/
def State.bringFrame (s : State) (k : Nat) (rd : Bool) (reg data answer : Nat) (replies : List (BitVec 4)) : State :=
  let f : ScbFrame := { addr := k % 16, rd := rd, reg := reg, data := data, host := false }
  let b := k / 16
  let r := frameRun 0 0 0 replies
  let s := s.each (List.range r.sends) (fun _ s => s.out (.scb b f.addr rd reg data (crc8 f.bits)))
  let s := (s.fput (Reg.vfeScbStat_st b) r.status).fput (Reg.vfeScbStat_tries b) r.repeats
  match r.fin with
  | .ack => if rd then s.fput (Reg.vfeScbData_data b) answer else s
  | .nak => s.raise 0x5006 .warn k (pf 22 1 reg + pf 23 1 r.status)
  | .gone => s.scbGiveUp b f r.status

/-- Replies of a segment to the bring-up's frame `j` (R63); a segment that the command does not name is not there. -/
def bringReplies (b : Option SegBringup) (j : Nat) : List (BitVec 4) :=
  match b with
  | some b => b.replies.getD j []
  | none => noReply

/-- The word that a segment's register 0, 1 or 2 reads as (R61). -/
def idWord (b : SegBringup) (j : Nat) : Nat :=
  match j with
  | 0 => b.idHi.toNat
  | 1 => b.idLo.toNat
  | _ => b.caps.toNat

/-- Identification of a segment (R63 step 2): the reads end with the first one that is not answered. -/
def State.bringId (s : State) (k : Nat) (b : Option SegBringup) : State :=
  let s := s.wput Reg.vfeSegPresent0 (putBit (s.wget Reg.vfeSegPresent0) k true)
  let s := (s.fput (Reg.vfeSegStat_state k) 3)
  let s := s.each (List.range 3) (fun j s =>
    if s.segPresent k then s.bringFrame k true j 0 ((b.map (fun b => idWord b j)).getD 0) (bringReplies b j) else s)
  if s.segPresent k then s else s.raise 0x5004 .fault k 0

/-- What a bring-up brings of a segment. -/
def bringOf (bs : List SegBringup) (k : Nat) : Option SegBringup := bs.find? (fun b => b.seg.val == k)

/-- The segments an entry of the SEGREG section writes (R372). -/
def State.segTargets (s : State) (k : Nat) : List Nat :=
  s.enabledSegs.filter (fun i => s.segPresent i && (k == 255 || i == k))

/-- The maker's registers (R63 step 3, R372). -/
def State.bringRegs (s : State) (bs : List SegBringup) : State :=
  s.each (List.range s.cfg.segreg.length) (fun j s =>
    let e := s.cfg.segreg.getD j (0, 0, 0)
    s.each (s.segTargets e.1) (fun k s => s.bringFrame k false e.2.1 e.2.2 0 (bringReplies (bringOf bs k) (3 + j))))

/-- The cable test of a segment (R63 step 4): taps whose levels differ by less than 500 per mille are BROKEN. -/
def State.bringCables (s : State) (b : SegBringup) : State :=
  let k := b.seg.val
  if s.segEn k && s.segPresent k then
    let s := s.bringFrame k false 3 0x11 0 (b.replies.getD (3 + s.cfg.segreg.length) [])
    if !s.segPresent k then s
    else (s.showLoops k b.loop).each ((List.range 4).filter (fun t => decide (b.levels.getD t 0 < 500))) (fun t s =>
      s.fput (Reg.vfeTapTrain_result k t) 3)
  else s

/-- Start-up waits for the segments' bring-up (R379 step 6): the converters are calibrated. -/
def State.bringDue (s : State) : Bool :=
  s.flag Reg.sysState_loaded && !s.flag Reg.cfgStat_ready && s.flag Reg.adcStat_start_done && !s.cfg.segsDone &&
    !s.flag Reg.vfeStat_busy && s.fget Reg.cfgStat_step == 8

/-- The bring-up (R63): identification, maker's registers, cables, then training begins; with no segment present it is over
at once. -/
def State.bringup (s : State) (bs : List SegBringup) : State :=
  if !s.bringDue then s
  else
    let s := (s.fput Reg.vfeVrefCtrl_en 15).fput Reg.cfgStat_step 9
    let s := s.each s.enabledSegs (fun k s => s.bringId k (bringOf bs k))
    let s := bs.foldl State.bringCables (s.bringRegs bs)
    if s.enabledSegs.any s.segPresent then s.trainBegin else { s with cfg := { s.cfg with segsDone := true } }

/-- Training ends (R50, R51); at start-up the segments are up (R63). -/
def State.trainDone (s : State) (taps : List TapTrain) : State :=
  if !s.flag Reg.vfeStat_busy then s
  else
    let s := s.trainEnd taps
    if s.flag Reg.cfgStat_ready then s else { s with cfg := { s.cfg with segsDone := true } }

/-- Start-up is complete (R380): segments, bank B's check, the PING of every zone. READY is set, FAULT_N released unless SAFE
holds it low. -/
def State.startupComplete (s : State) : State :=
  let zones := s.enabledZones.all (fun z => s.zoneState z != 0)
  if s.flag Reg.sysState_loaded && !s.flag Reg.cfgStat_ready && s.flag Reg.adcStat_start_done && s.cfg.segsDone && zones &&
      !s.shd.check.contains 1 then
    let s := (s.fput Reg.cfgStat_ready 1).fput Reg.cfgStat_step 10
    if s.isSafe then s else { s with sys := { s.sys with faultNLow := false } }
  else s

end Sys2Proof.Machine
end

