-- ==== Sys2Proof/Machine/Crypto.lean ====
section
/-!
DEFINITION. The cryptography the loader and the seal engine use (R366, R367, R385): SHA-256 (FIPS 180-4), ECDSA over
P-256 (FIPS 186-5), AES-256-GCM. Words are numbers; octet strings are byte lists, most significant byte first.
-/

namespace Sys2Proof.Machine

/-- Exclusive or of byte strings. -/
def xorBytes (a b : List Byte) : List Byte := List.zipWith (· ^^^ ·) a b

/-- Rotate a 32-bit word right. -/
def ror32 (x n : Nat) : Nat := x / 2 ^ n + x % 2 ^ n * 2 ^ (32 - n)

/-- The largest `x` below `r + 2 ^ b` with `x ^ e ≤ n`, found bit by bit from `r` on. -/
def rootFrom (e n : Nat) : Nat → Nat → Nat
  | 0, r => r
  | b + 1, r => rootFrom e n b (if (r + 2 ^ b) ^ e ≤ n then r + 2 ^ b else r)

/-- The first 32 fractional bits of the `e`-th root of a number below 2^12 (FIPS 180-4, 4.2.2 and 5.3.3). -/
def rootFraction (e p : Nat) : Nat := rootFrom e (p * 2 ^ (32 * e)) 38 0 % 2 ^ 32

/-- The primes below a bound. -/
def primesBelow (n : Nat) : List Nat :=
  (List.range n).filter (fun p => decide (2 ≤ p) && (List.range p).all (fun d => decide (d < 2) || p % d != 0))

/-- The round constants of SHA-256: from the cube roots of the first 64 primes. -/
def shaK : List Nat := (primesBelow 312).map (rootFraction 3)

/-- The initial hash value of SHA-256: from the square roots of the first 8 primes. -/
def shaStart : List Nat := (primesBelow 20).map (rootFraction 2)

/-- A word mixed with its rotations by the amounts given, over what a shift of it has left: the four sigma functions of
FIPS 180-4, 4.1.2. -/
def shaMix (x : Nat) (turns : List Nat) (low : Nat) : Nat := turns.foldl (fun v n => v ^^^ ror32 x n) low

/-- The 32-bit words of a byte string, most significant byte first. -/
def words32 (bs : List Byte) : List Nat := (List.range (bs.length / 4)).map (fun i => beNat ((bs.drop (4 * i)).take 4))

/-- The next word of the message schedule after those so far, newest first. -/
def shaWord (w : List Nat) : Nat :=
  let back (n : Nat) : Nat := w.getD (n - 1) 0
  (back 16 + back 7 + shaMix (back 15) [7, 18] (back 15 / 8) + shaMix (back 2) [17, 19] (back 2 / 1024)) % 2 ^ 32

/-- The 64 words of the schedule of a block, oldest first. -/
def shaWords (b : List Byte) : List Nat :=
  ((List.range 48).foldl (fun w _ => shaWord w :: w) (words32 b).reverse).reverse

/-- One round, over the histories of the two working words that change, newest first: the values of `a` of this and the
three rounds before are the words a to d of FIPS 180-4, those of `e` the words e to h. `x` is the round's constant and
schedule word together. -/
def shaRound : List Nat × List Nat → Nat → List Nat × List Nat
  | (a :: b :: c :: d :: _, e :: f :: g :: h :: _), x =>
    let carried := h + shaMix e [6, 11, 25] 0 + (g ^^^ (e &&& (f ^^^ g))) + x
    let fresh := shaMix a [2, 13, 22] 0 + (a &&& (b ||| c) ||| b &&& c)
    ([(carried + fresh) % 2 ^ 32, a, b, c], [(d + carried) % 2 ^ 32, e, f, g])
  | h, _ => h

/-- Compression of one 64-byte block. -/
def shaBlock (h : List Nat) (b : List Byte) : List Nat :=
  let r := (List.zipWith (· + ·) shaK (shaWords b)).foldl shaRound (h.take 4, h.drop 4)
  List.zipWith (fun x y => (x + y) % 2 ^ 32) h (r.1 ++ r.2)

/-- SHA-256 of a byte string. -/
def sha256 (m : List Byte) : List Byte :=
  let pad := (119 - m.length % 64) % 64
  let b := m ++ [0x80] ++ zeros pad ++ beBytes 8 (8 * m.length)
  ((List.range (b.length / 64)).foldl (fun h i => shaBlock h ((b.drop (64 * i)).take 64)) shaStart).flatMap (beBytes 4)

/-- P-256: the field, the group order, b, and the base point. -/
def p256P : Nat := 0xffffffff00000001000000000000000000000000ffffffffffffffffffffffff
def p256N : Nat := 0xffffffff00000000ffffffffffffffffbce6faada7179e84f3b9cac2fc632551
def p256B : Nat := 0x5ac635d8aa3a93e7b3ebbd55769886bc651d06b0cc53b0f63bce3c3e27d2604b
def p256G : Nat × Nat :=
  (0x6b17d1f2e12c4247f8bce6e563a440f277037d812deb33a0f4a13945d898c296,
   0x4fe342e2fe1a7f9b8ee7eb4a7c0f9e162bce33576b315ececbb6406837bf51f5)

/-- `b` to the power `e` modulo `m`, over `k` bits. -/
def powMod (m : Nat) : Nat → Nat → Nat → Nat
  | 0, _, _ => 1 % m
  | k + 1, b, e => (if e % 2 = 1 then b else 1) * powMod m k (b * b % m) (e / 2) % m

/-- Inverse modulo a prime of 256 bits. -/
def invMod (m a : Nat) : Nat := powMod m 256 (a % m) (m - 2)

def subMod (m a b : Nat) : Nat := (a + m - b % m) % m

/-- A point of the curve; `none` is the point at infinity. -/
abbrev Point := Option (Nat × Nat)

/-- The third point on the line of slope `l` through `(x1, y1)` and a point of abscissa `x2`. -/
def ecThird (l x1 y1 x2 : Nat) : Point :=
  let x3 := subMod p256P (l * l) (x1 + x2)
  some (x3, subMod p256P (l * subMod p256P x1 x3) y1)

/-- Sum of two points. -/
def ecAdd : Point → Point → Point
  | none, q => q
  | p, none => p
  | some (x1, y1), some (x2, y2) =>
    if x1 = x2 then
      if (y1 + y2) % p256P = 0 then none
      else ecThird ((3 * x1 * x1 + p256P - 3) * invMod p256P (2 * y1) % p256P) x1 y1 x2
    else ecThird (subMod p256P y2 y1 * invMod p256P (subMod p256P x2 x1) % p256P) x1 y1 x2

/-- `k` times a point, over `n` bits. -/
def ecMul : Nat → Nat → Point → Point
  | 0, _, _ => none
  | n + 1, k, p =>
    let r := ecMul n (k / 2) (ecAdd p p)
    if k % 2 = 1 then ecAdd p r else r

/-- ECDSA verification over P-256 with SHA-256 (R366). -/
def ecdsaOk (pub sig msg : List Byte) : Bool :=
  let qx := beNat (pub.take 32)
  let qy := beNat (pub.drop 32)
  let r := beNat (sig.take 32)
  let s := beNat (sig.drop 32)
  let onCurve := decide (qx < p256P ∧ qy < p256P) &&
    qy * qy % p256P == (qx * qx * qx + (p256P - 3) * qx + p256B) % p256P
  onCurve && decide (0 < r ∧ r < p256N ∧ 0 < s ∧ s < p256N) &&
    (let w := invMod p256N s
     let e := beNat (sha256 msg)
     match ecAdd (ecMul 256 (e * w % p256N) (some p256G)) (ecMul 256 (r * w % p256N) (some (qx, qy))) with
     | some (x, _) => x % p256N == r
     | none => false)

/-- Multiplication by x in GF(2^8) of AES. -/
def xtime (a : Nat) : Nat := if a < 128 then 2 * a else (2 * a) % 256 ^^^ 0x1b

/-- Product in GF(2^8), over `n` bits. -/
def gmul : Nat → Nat → Nat → Nat
  | 0, _, _ => 0
  | n + 1, a, b => (if b % 2 = 1 then a else 0) ^^^ gmul n (xtime a) (b / 2)

/-- `a` to the power `e` in GF(2^8). -/
def gpow (a : Nat) : Nat → Nat
  | 0 => 1
  | e + 1 => gmul 8 a (gpow a e)

def rol8 (a n : Nat) : Nat := a * 2 ^ n % 256 + a * 2 ^ n / 256

/-- The AES S-box. -/
def sbox (a : Nat) : Nat :=
  let b := gpow a 254
  b ^^^ rol8 b 1 ^^^ rol8 b 2 ^^^ rol8 b 3 ^^^ rol8 b 4 ^^^ 0x63

/-- The S-box as a list. -/
def sboxT : List Nat := (List.range 256).map sbox

def sub8 (t : List Nat) (b : Byte) : Byte := BitVec.ofNat 8 (t.getD b.toNat 0)

/-- The key schedule of AES-256: `n` more words, words newest first. -/
def aesSched (t : List Nat) : Nat → Nat → List (List Byte) → List (List Byte)
  | 0, _, w => w.reverse
  | n + 1, i, w =>
    let x := w.getD 0 []
    let x := if i % 8 = 0 then
        let y := (x.drop 1 ++ x.take 1).map (sub8 t)
        xorBytes y ([BitVec.ofNat 8 (gpow 2 (i / 8 - 1))] ++ zeros 3)
      else if i % 8 = 4 then x.map (sub8 t) else x
    aesSched t n (i + 1) (xorBytes x (w.getD 7 []) :: w)

/-- The 15 round keys. -/
def aesKeys (t : List Nat) (key : List Byte) : List (List Byte) :=
  let w0 := (List.range 8).map (fun i => (key.drop (4 * i)).take 4)
  let w := aesSched t 52 8 w0.reverse
  (List.range 15).map (fun r => ((w.drop (4 * r)).take 4).flatten)

def shiftRows (b : List Byte) : List Byte :=
  (List.range 16).map (fun i => b.getD ((i + 4 * (i % 4)) % 16) 0)

def mixColumns (b : List Byte) : List Byte :=
  (List.range 16).map (fun i =>
    let g := fun (k j : Nat) => gmul 8 ((b.getD (4 * (i / 4) + (i + j) % 4) 0).toNat) k
    BitVec.ofNat 8 (g 2 0 ^^^ g 3 1 ^^^ g 1 2 ^^^ g 1 3))

/-- AES-256 encryption of one block. -/
def aesBlock (t : List Nat) (ks : List (List Byte)) (b : List Byte) : List Byte :=
  let b := xorBytes b (ks.getD 0 [])
  let b := ((ks.drop 1).take 13).foldl (fun b k => xorBytes (mixColumns (shiftRows (b.map (sub8 t)))) k) b
  xorBytes (shiftRows (b.map (sub8 t))) (ks.getD 14 [])

/-- Product in GF(2^128) of GCM, over the bits of `x` from the highest. -/
def ghMul : Nat → Nat → Nat → Nat → Nat
  | 0, _, _, z => z
  | n + 1, x, v, z =>
    ghMul n x (if v % 2 = 1 then v / 2 ^^^ 0xe1000000000000000000000000000000 else v / 2) (if bitAt x n then z ^^^ v else z)

/-- GHASH of whole blocks. -/
def ghash (h : Nat) (bs : List Byte) : Nat :=
  (List.range (bs.length / 16)).foldl (fun y i => ghMul 128 (y ^^^ beNat ((bs.drop (16 * i)).take 16)) h 0) 0

def pad16 (b : List Byte) : List Byte := b ++ zeros ((16 - b.length % 16) % 16)

/-- The key stream of GCM from counter 2 on. -/
def ctrStream (t : List Nat) (ks : List (List Byte)) (iv : List Byte) (n : Nat) : List Byte :=
  (List.range (ceilDiv n 16)).flatMap (fun i => aesBlock t ks (iv ++ beBytes 4 (i + 2)))

/-- The GCM tag of a ciphertext. -/
def gcmTag (t : List Nat) (ks : List (List Byte)) (iv aad c : List Byte) : List Byte :=
  let h := beNat (aesBlock t ks (zeros 16))
  let g := ghash h (pad16 aad ++ pad16 c ++ beBytes 8 (8 * aad.length) ++ beBytes 8 (8 * c.length))
  xorBytes (beBytes 16 g) (aesBlock t ks (iv ++ beBytes 4 1))

/-- AES-256-GCM encryption: ciphertext and tag (R367). -/
def gcmSeal (key iv aad p : List Byte) : List Byte × List Byte :=
  let t := sboxT
  let ks := aesKeys t key
  let c := xorBytes p (ctrStream t ks iv p.length)
  (c, gcmTag t ks iv aad c)

/-- AES-256-GCM decryption; none when the tag fails. -/
def gcmOpen (key iv aad c tag : List Byte) : Option (List Byte) :=
  let t := sboxT
  let ks := aesKeys t key
  if gcmTag t ks iv aad c = tag then some (xorBytes c (ctrStream t ks iv c.length)) else none

end Sys2Proof.Machine
end

