-- ==== Sys2Proof/Machine/ImageOps.lean ====
section
/-!
DEFINITION. The Atnath image: header, sections and the checks of a copy (R362 to R377).
-/

namespace Sys2Proof.Machine

/-- Fields of an image's header (R364). -/
def imgSections (b : List Byte) : Nat := leAt b 6 2
def imgLen (b : List Byte) : Nat := leAt b 8 4
def imgSeq (b : List Byte) : Nat := leAt b 12 4
def imgSvn (b : List Byte) : Nat := leAt b 16 2
def imgBuild (b : List Byte) : Nat := leAt b 24 8
def imgKey (b : List Byte) : List Byte := (b.drop 32).take 64

/-- Check 1 of R368 (R362, R364): `dens` is the flash density in bytes. -/
def headerOk (dens : Nat) (b : List Byte) : Bool :=
  leAt b 0 4 == 0x544E5441 && leAt b 4 2 == 1 && decide (1 ≤ imgSections b) && decide (imgSections b ≤ 64) &&
    decide (320 ≤ imgLen b) && imgLen b % 64 == 0 && decide (imgLen b ≤ dens / 2) && decide (imgLen b ≤ 32 * 2 ^ 20) &&
    leAt b 22 2 == 0 && ((b.drop 96).take 28).all (fun x => x == 0) && leAt b 124 4 == crc32c (b.take 124)

/-- Check 2 of R368. -/
def State.deviceOk (s : State) (b : List Byte) : Bool :=
  leAt b 18 2 == 0x3464 && leAt b 20 1 == 1 && decide (leAt b 21 1 ≤ s.sec.rev)

/-- Cause of a header that is not plausible, 0 for a plausible one (R363); a header that could not be read has cause 9. -/
def State.headerCause (s : State) (b : List Byte) : Nat :=
  if b.length < 128 then 9
  else if !headerOk (2 ^ s.fget Reg.cfgNor_dens) b then 1
  else if !s.deviceOk b then 2
  else 0

/-- Check 3 (R366): the signer's key. -/
def State.keyOk (s : State) (b : List Byte) : Bool := s.sec.pkhNow.any (fun x => x != 0) && sha256 (imgKey b) == s.sec.pkhNow

/-- Check 4 (R366): the signature over everything before it. -/
def signatureOk (b : List Byte) : Bool :=
  let n := imgLen b
  ecdsaOk (imgKey b) ((b.drop (n - 64)).take 64) (b.take (n - 64))

/-- An entry of the section table (R365). -/
structure Section where
  type : Nat
  flags : Nat
  rsv : Nat
  off : Nat
  len : Nat
  dest : Nat
  deriving DecidableEq, Repr

def imgSection (b : List Byte) (i : Nat) : Section :=
  let o := 128 + 16 * i
  { type := leAt b o 1, flags := leAt b (o + 1) 1, rsv := leAt b (o + 2) 2, off := leAt b (o + 4) 4
    len := leAt b (o + 8) 4, dest := leAt b (o + 12) 4 }

def imgTable (b : List Byte) : List Section := (List.range (imgSections b)).map (imgSection b)

/-- Bounds, type and reserved bits of a section (R365, R369). -/
def Section.ok (x : Section) (n len : Nat) : Bool :=
  decide (1 ≤ x.type) && decide (x.type ≤ 5) && decide (x.flags ≤ 1) && x.rsv == 0 && x.off % 64 == 0 &&
    decide (128 + 16 * n ≤ x.off) && decide (x.off + x.len ≤ len - 64) && (x.type == 3 || x.dest == 0) &&
    (x.type != 5 || x.flags == 1)

/-- Two sections overlap (R365). -/
def Section.overlaps (x y : Section) : Bool := decide (x.off < y.off + y.len) && decide (y.off < x.off + x.len)

/-- Some two sections of a table overlap. -/
def anyOverlap : List Section → Bool
  | [] => false
  | x :: l => l.any x.overlaps || anyOverlap l

/-- Check 6 (R365, R369). -/
def sectionsOk (b : List Byte) : Bool :=
  let l := imgTable b
  let count (t : Nat) : Nat := (l.filter (fun x => x.type == t)).length
  l.all (fun x => x.ok (imgSections b) (imgLen b)) && !anyOverlap l && count 1 == 1 && decide (count 2 ≤ 1) &&
    decide (count 3 ≤ 48) && decide (count 4 ≤ 1) && count 5 == 1

/-- The plaintext of a section (R367): `none` when its seal does not open. -/
def State.sectionBody (s : State) (b : List Byte) (x : Section) : Option (List Byte) :=
  let raw := (b.drop x.off).take x.len
  if x.flags = 0 then some raw
  else
    let p := x.len - 32
    if x.len < 32 ∨ p % 16 ≠ 0 ∨ s.flag Reg.secStat_keycut = true then none
    else
      let aad := leBytes 1 x.type ++ zeros 3 ++ leBytes 4 p
      gcmOpen s.sec.duk (raw.take 12) aad ((raw.drop 16).take p) (raw.drop (p + 16))

/-- RO fields that the loader may write (R370): those marked "image". -/
def imageFields (a : Nat) : Nat :=
  if a = Reg.vfeSegEn0 ∨ a = Reg.vfeSegEn1 then 0xFFFFFFFF
  else if a = Reg.shdCtrl then 0x80000000
  else if a = Reg.nzlCtrl then 0x1F00
  else if a = Reg.hstCtrl then 0x10000000
  else if a = Reg.hstNet then 0x8FFFFF07
  else if (List.range 2).any (fun p => Reg.hstPortMac0 p == a) then 0xFFFFFFFF
  else if (List.range 2).any (fun p => Reg.hstPortMac1 p == a) then 0xFFFF
  else 0

/-- The bits of a register that the loader writes. -/
def loaderMask (d : RegDesc) (a : Nat) : Nat :=
  fieldMask d.flds (fun f => f.acc == .rw || f.acc == .rws) ||| imageFields a

/-- The records of a REG section (R370). -/
def regRecords (b : List Byte) : List (Nat × Nat) :=
  (List.range (b.length / 8)).map (fun i => (leAt b (8 * i) 4, leAt b (8 * i + 4) 4))

/-- The words that the records give the registers; the last record of a register stands. -/
def regFinal (l : List (Nat × Nat)) : Table Word :=
  l.foldl (fun t r =>
    match findReg r.1 with
    | some d =>
      tput resetWord t r.1 (BitVec.ofNat 32 (blend (resetWord r.1).toNat (loaderMask d r.1) r.2))
    | none => t) []

/-- A record obeys the rules of addresses, reserved and one-shot bits (R370). -/
def recordOk (r : Nat × Nat) : Bool :=
  match findReg r.1 with
  | none => false
  | some d =>
    r.1 / 0x10000 != 1 && r.1 / 0x10000 != 2 &&
      r.2 &&& (0xFFFFFFFF ^^^ fieldMask d.flds (fun _ => true)) == 0 &&
      r.2 &&& fieldMask d.flds (fun f => f.acc == .wo || f.acc == .w1c) == 0

/-- The rules of R370 on a REG section: every record, and what every register with a rule of its own will hold. -/
def regOk (b : List Byte) : Bool :=
  let l := regRecords b
  let t := regFinal l
  let get (a : Nat) : Nat := (tget resetWord t a).toNat
  let bin := bitsAt (get Reg.pxeFmt) Reg.pxeFmt_bin.lo 1 == 1
  b.length % 8 == 0 &&
    l.all (fun r => recordOk r && !valueBad get (fun _ => false) bin r.1 r.2) &&
    ruledRegs.all (fun a => !valueBad get (fun _ => false) bin a (get a))

/-- The areas of R371: first and last address. -/
def tableAreas : List (Nat × Nat) :=
  [ (0x13800000, 0x13FFFFFF), (0x15600000, 0x156FFFFF), (0x15700000, 0x157000FF), (0x15710000, 0x15717FFF)
  , (0x15720000, 0x157203FF), (0x15721000, 0x15721FFF), (0x157C0000, 0x157C07FF), (0x157D0000, 0x157D07FF)
  , (0x14000000, 0x149FFFFF) ]

/-- A TABLE section's rules (R371, R125): one area, joint offsets within their range. -/
def tableOk (x : Section) (b : List Byte) : Bool :=
  tableAreas.any (fun r => decide (r.1 ≤ x.dest) && decide (x.dest + b.length ≤ r.2 + 1)) &&
    (entriesIn x.dest b.length 0x15700000 4 63).all (fun j =>
      let o := 0x15700000 + 4 * j
      let d := toInt 16 (leAt b (o - x.dest) 2)
      decide (o < x.dest) || (decide (-63 ≤ d) && decide (d ≤ 255)))

/-- A SEGREG section (R372). -/
def segEntries (b : List Byte) : List (Nat × Nat × Nat) :=
  (List.range (b.length / 4)).map (fun i => (leAt b (4 * i) 1, leAt b (4 * i + 1) 1, leAt b (4 * i + 2) 2))

def segregOk (b : List Byte) : Bool :=
  b.length % 4 == 0 && (segEntries b).all (fun e => (e.1 == 255 || decide (e.1 < 64)) && decide (0x10 ≤ e.2.1))

/-- Fields of a slot in the QP section (R373). -/
def qpFlag (b : List Byte) (q i : Nat) : Bool := bitAt (leAt b (192 + 64 * q) 1) i
def qpTo (b : List Byte) (q : Nat) : Nat := bitsAt (leAt b (193 + 64 * q) 1) 0 3
def qpPartner (b : List Byte) (q : Nat) : Nat := bitsAt (leAt b (193 + 64 * q) 1) 4 4
def qpLqpn (b : List Byte) (q : Nat) : Nat := leAt b (196 + 64 * q) 3

/-- Slots of a port that are enabled with a role: bit 1 LINES, bit 2 CONTROL. -/
def qpWith (b : List Byte) (p role : Nat) : List Nat :=
  (portSlots p).filter (fun q => qpFlag b q 0 && qpFlag b q role)

/-- A slot's partner answers R374: on the other port, with the same roles, naming it back. -/
def partnerOk (b : List Byte) (q : Nat) : Bool :=
  let t := qpPartner b q
  qpFlag b q 5 && qpFlag b t 0 && qpFlag b t 5 && slotPort t != slotPort q && qpPartner b t == q &&
    [1, 2, 3].all (fun i => qpFlag b t i == qpFlag b q i)

/-- Two ranges given by start and length do not overlap. -/
def apart (x y : Nat × Nat) : Bool := decide (x.1 + x.2 ≤ y.1) || decide (y.1 + y.2 ≤ x.1)

/-- The region blocks of R374. -/
def regionsOk (b : List Byte) : Bool :=
  let f (p o : Nat) : Nat := leAt b (64 + 64 * p + o) 4
  let cc (p : Nat) : Nat := leAt b (64 + 64 * p + 60) 2
  let cred := (0, 64)
  let stat := (64, 64)
  let evq := (f 0 48, 32 * f 0 52)
  let cmd := (f 0 56, 64 * cc 0)
  [20, 24, 48, 52, 56].all (fun o => f 0 o == f 1 o) && cc 0 == cc 1 && f 0 20 % 4096 == 0 &&
    decide (2 ≤ f 0 24) && decide (f 0 24 ≤ 65536) && decide (256 ≤ f 0 52) && decide (f 0 52 ≤ 65536) &&
    decide (16 ≤ cc 0) && decide (cc 0 ≤ 4096) && f 0 48 % 4096 == 0 && f 0 56 % 4096 == 0 &&
    apart cred evq && apart cred cmd && apart stat evq && apart stat cmd && apart evq cmd &&
    [0, 1].all (fun p =>
      let lineSize := leAt b (64 + 64 * p + 8) 8
      let ctlSize := leAt b (64 + 64 * p + 40) 8
      decide (4096 + f 0 20 * f 0 24 ≤ lineSize) && decide (128 ≤ ctlSize) && decide (evq.1 + evq.2 ≤ ctlSize) &&
        decide (cmd.1 + cmd.2 ≤ ctlSize))

/-- A remote window of R374. -/
def windowOk (b : List Byte) (w : Nat) : Bool :=
  let o := 1216 + 32 * w
  let base := leAt b o 8
  let size := leAt b (o + 8) 8
  let q := leAt b (o + 24) 1
  !bitAt (leAt b (o + 25) 1) 0 ||
    (decide (q < 16) && qpFlag b q 0 && qpFlag b q 3 && decide (0 < size) && size % 64 == 0 && decide (base + size ≤ 2 ^ 48))

/-- The rules of R374; `mode` and `primary` are those of HST_CTRL. -/
def qpOk (b : List Byte) (mode primary : Nat) : Bool :=
  let on := (List.range 16).filter (fun q => qpFlag b q 0)
  let ports := if mode = 0 then [primary] else [0, 1]
  b.length == 1728 &&
    on.all (fun q => [1, 2, 3].any (qpFlag b q) && decide (2 ≤ qpLqpn b q) && decide (qpTo b q ≤ 6) &&
      on.all (fun t => t == q || slotPort t != slotPort q || qpLqpn b t != qpLqpn b q)) &&
    ports.all (fun p => [1, 2].all (fun r => (qpWith b p r).length == 1)) &&
    (mode == 0 || [0, 1].all (fun p => [1, 2].all (fun r => (qpWith b p r).all (partnerOk b)))) &&
    regionsOk b && (List.range 16).all (windowOk b)

/-- The entries of a CLAIM section as class, index, owner (R375). -/
def claimEntries (b : List Byte) : List (Nat × Nat × Nat) :=
  (List.range (b.length / 4)).map (fun i => (leAt b (4 * i) 1, leAt b (4 * i + 1) 1, leAt b (4 * i + 2) 1))

/-- An entry names a resource and an owner of its class (R375). -/
def claimEntryOk (e : Nat × Nat × Nat) : Bool :=
  let i := e.2.1
  let o := e.2.2
  match e.1 with
  | 1 => decide (i < 4) && [0, 1, 2, 3, 4, 5, 6, 7, 12].contains o
  | 2 => decide (i < 4) && [8, 12].contains o
  | 3 => decide (i < 32) && [1, 9, 10, 12].contains o
  | 4 => decide (i < 8) && (if i < 2 then o == 3 else o == 1 || o == 12 || (o == 4 && i == 6))
  | 5 | 6 => decide (i < 4) && [1, 2, 3, 12].contains o
  | _ => false

def claimsOk (b : List Byte) : Bool :=
  b.length % 4 == 0 && (List.range (b.length / 4)).all (fun i => leAt b (4 * i + 3) 1 == 0) &&
    (claimEntries b).all claimEntryOk

/-- The settings of R376 in its table's order. -/
def claimOrder : List Nat :=
  [Reg.shdDriftCtrl] ++ (List.range 4).map Reg.nzlBandCtrl ++ [Reg.motCtrl, Reg.monSeqCtrl] ++
    (List.range 32).map Reg.dmaChCfg ++ [Reg.nzlCtrl]

/-- A conflict (R377): class, index, owner in force, owner wanted, address of the setting (all ones for an entry). -/
structure Conflict where
  cls : Nat
  idx : Nat
  old : Nat
  new : Nat
  addr : Nat
  deriving DecidableEq, Repr

/-- Address that stands for an entry of the CLAIM section (R388). -/
def claimEntryAddr : Nat := 0xFFFFFFFF

/-- One more claim: what is claimed so far, and the first conflict. An entry that names no owner gives the resource to nobody:
it conflicts with an entry that names one, not with a setting. -/
def wantClaim (x : List Claim × Option Conflict) (e : Nat × Nat × Nat) (addr : Nat) : List Claim × Option Conflict :=
  let claim : Claim := { cls := e.1, idx := e.2.1, owner := e.2.2, fixed := true }
  match x.1.find? (fun c => c.cls == e.1 && c.idx == e.2.1) with
  | none => (x.1 ++ [claim], x.2)
  | some c =>
    if c.owner = e.2.2 then x
    else if c.owner = 0 ∧ addr ≠ claimEntryAddr then (x.1.map (fun d => if d = c then claim else d), x.2)
    else (x.1, x.2.or (some { cls := e.1, idx := e.2.1, old := c.owner, new := e.2.2, addr := addr }))

/-- The claims of an image and its first conflict (R375 to R377): entries, the feed's axes, then the settings by the words
`get` that the image gives them. -/
def imageClaims (entries : List (Nat × Nat × Nat)) (get : Nat → Nat) : List Claim × Option Conflict :=
  let x := entries.foldl (fun x e => wantClaim x e claimEntryAddr) ([], none)
  let x := [(4, 0, 3), (4, 1, 3)].foldl (fun x e => wantClaim x e claimEntryAddr) x
  let x := claimOrder.foldl (fun x a => (needsOf a (get a)).foldl (fun x e => wantClaim x e a) x) x
  (x.1.filter (fun c => c.owner != 0), x.2)

end Sys2Proof.Machine
end

