-- ==== Sys2Proof/Machine/BootOps.lean ====
section
/-!
DEFINITION. Reset, the loader, fuses, sealing and zeroisation (R145, R358 to R363, R379, R382 to R387, R400, R416).
-/

namespace Sys2Proof.Machine

/-- A reset of the given kind is caused (R358); a power-on reset includes a device reset. -/
def State.causeReset (s : State) (powerOn : Bool) : State :=
  { s with cfg := { s.cfg with due := some (powerOn || s.cfg.due.getD false) } }

/-- What outlives every reset (R383, R386): the fuses; and what is not the device's own: levels at its pins and supplies, what
it has sent, the model's counter and queue. -/
def State.afterReset (s : State) (brownout powerOn : Bool) : State :=
  let r := State.reset
  { r with
    sec := { r.sec with pkh := s.sec.pkh, pkhNow := s.sec.pkh, duk := s.sec.duk, uid := s.sec.uid, svn := s.sec.svn,
                        dbglock := s.sec.dbglock
                        rev := s.sec.rev }
    seq := { r.seq with evi := s.seq.evi }, mon := { r.mon with blank := s.mon.blank }
    cfg := { r.cfg with held := true, brownout := brownout, powerOn := powerOn }
    sys := { r.sys with refOut := s.sys.refOut, railsOut := s.sys.railsOut, railsLow := s.sys.railsLow }
    sent := s.sent, fresh := s.fresh, pending := s.pending }

/-- A device reset keeps cause DEBUG, the key cut and the debug port open (R358, R386, R400). -/
def State.keepDebug (s r : State) : State :=
  if bitAt (s.fget Reg.sysSafeCause_val) 2 then
    let r := (r.latchCause .debug).fput Reg.sysState_safe 1
    (r.fput Reg.secStat_keycut (s.fget Reg.secStat_keycut)).fput Reg.dbgStat_open (s.fget Reg.dbgStat_open)
  else r

/-- The reset takes effect (R358). -/
def State.resetApply (s : State) : State :=
  match s.cfg.due with
  | none => s
  | some true => s.afterReset s.cfg.brownout true
  | some false => s.keepDebug (s.afterReset s.cfg.brownout false)

/-- A core or I/O rail below its threshold holds the device in power-on reset, and both are back (R416). -/
def State.brownoutHold (s : State) (io : Bool) : State := (s.railOut (if io then .io33 else .core) true).afterReset true true

def State.brownoutRelease (s : State) : State :=
  { s with
    cfg := { s.cfg with brownout := false }
    sys := { s.sys with railsLow := s.sys.railsLow.filter (fun r => r != .io33 && r != .core) } }

/-- A power-on reset lasts until every rail is in its window and REFCLK has run for 100 µs (R418). -/
def State.powerHeld (s : State) (refUs : Nat) : Bool :=
  s.cfg.brownout || (s.cfg.powerOn && (!s.sys.railsOut.isEmpty || s.sys.refOut || decide (refUs < 100)))

/-- Reset is released (R29, R360, R381, R384, R390, R418): device time counts from here, the straps are sampled and the fuses
sensed. -/
def State.resetRelease (s : State) (vsel : Bool) (addr refUs : Nat) : State :=
  if s.powerHeld refUs || !(s.cfg.held || s.fget Reg.cfgStat_step == 0) then s
  else
    let s : State := { s with
      cfg := { s.cfg with held := false }, sys := { s.sys with now := 0 }, sec := { s.sec with pkhNow := s.sec.pkh } }
    let s := (s.fputB Reg.cfgNor_vsel vsel).fput Reg.twbStat_addr (0x58 + addr % 8)
    (s.fput Reg.cfgStat_step 1).levelCauses

/-- Flash address of a copy (R362). -/
def State.copyBase (s : State) (c : Nat) : Nat := if c = 0 then 0 else 2 ^ s.fget Reg.cfgNor_dens / 2

/-- The loader reads the flash in the mode in force (R360). -/
def State.flashRead (s : State) (addr len : Nat) : State := s.out (.xspiRead s.cfg.readBy.1 s.cfg.readBy.2 addr len)

/-- Bursts of the read in progress (R360, R361, R363): the SFDP tables, then the two headers, then a copy. -/
def State.burstCount (s : State) : Nat :=
  if s.fget Reg.cfgStat_step < 4 then 1
  else if s.fget Reg.cfgStat_step = 4 then 2
  else match s.cfg.order with
    | c :: _ => (s.cfg.lens.getD c 0 + 4095) / 4096
    | [] => 0

/-- The burst of the read in progress that a flash address lies in. -/
def State.burstAt (s : State) (a : Nat) : Nat :=
  if s.fget Reg.cfgStat_step < 4 then 0
  else if s.fget Reg.cfgStat_step = 4 then (if a < s.copyBase 1 then 0 else 1)
  else match s.cfg.order with
    | c :: _ => (a - s.copyBase c) / 4096
    | [] => 0

/-- The loader asks for one burst. -/
def State.askBurst (s : State) (i : Nat) : State :=
  if s.fget Reg.cfgStat_step < 4 then s.out (.xspi [0x5A])
  else if s.fget Reg.cfgStat_step = 4 then s.flashRead (s.copyBase i) 128
  else match s.cfg.order with
    | c :: _ => s.flashRead (s.copyBase c + 4096 * i) (min 4096 (s.cfg.lens.getD c 0 - 4096 * i))
    | [] => s

/-- The loader has asked for the first `n` bursts of the read in progress; the first of all follows the reset pulse and the
reset pair (R360). -/
def State.askTo (s : State) (n : Nat) : State :=
  let n := min n s.burstCount
  let s := if s.fget Reg.cfgStat_step < 4 ∧ s.cfg.asked = 0 then (s.out .xspiReset).out (.xspi [0x66, 0x99]) else s
  let s := s.each ((List.range n).filter (fun i => decide (s.cfg.asked ≤ i))) (fun i s => s.askBurst i)
  { s with cfg := { s.cfg with asked := max n s.cfg.asked } }

/-- The loader has the flash in its read mode (R360, R381): reset pulse, reset pair, SFDP; by the profile the writes that
enter 8D-8D-8D mode, else instruction 0x13. -/
def State.flashReady (s : State) (dens : Nat) (prof : Option XspiProfile) : State :=
  if s.fget Reg.cfgStat_step ≠ 1 then s
  else
    let s := s.askTo 1
    let s : State := { s with cfg := { s.cfg with asked := 0 } }
    let s := s.fput Reg.cfgNor_dens dens
    match prof with
    | some x =>
      let s := x.enter.foldl (fun s w => s.out (.xspi (w.map (fun b => b.toNat)))) s
      let s : State := { s with cfg := { s.cfg with readBy := (x.read.map (fun b => b.toNat), x.dummy) } }
      ((s.fput Reg.cfgNor_mhz (min 200 x.mhz)).fput Reg.cfgNor_mode 2).fput Reg.cfgStat_step 4
    | none =>
      let s : State := { s with cfg := { s.cfg with readBy := ([0x13], 0) } }
      ((s.fput Reg.cfgNor_mhz 25).fput Reg.cfgNor_mode 1).fput Reg.cfgStat_step 4

/-- The load ends (R361): the flash is reset, and the pins are left to others. -/
def State.flashEnd (s : State) : State :=
  let s := s.out (.xspi [0x66, 0x99])
  { s with cfg := { s.cfg with order := [], repeats := 0, failAt := none, xspiZ := true } }

/-- The load stops in SAFE (R363, R386, R388). -/
def State.loadStops (s : State) : State := s.flashEnd.fput Reg.cfgStat_step 15

def cfgResultF (c : Nat) : Fld := if c = 0 then Reg.cfgResult_a else Reg.cfgResult_b

/-- A copy fails with a cause (R363, R368, R387); `sec` is the index of the section for causes 7 and 8. SEQ is that of the
header, 0 where none has been read. -/
def State.copyBad (s : State) (c cause sec : Nat) : State :=
  (s.fput (cfgResultF c) cause).raise 0x1002 .warn c
    (pf 22 1 cause + pf 23 1 (if cause = 7 ∨ cause = 8 then sec else 255) +
      pf 24 4 (if cause = 1 then 0 else s.cfg.seqs.getD c 0))

/-- The load has ended in SAFE with a cause (R379, R382): a device that a reset has left in SAFE drives its SAFE outputs from
here on. -/
def State.stopSafe (s : State) (c : Cause) : State :=
  if s.isSafe then (s.loadStops.enterSafe c).safeOutputs else s.loadStops.enterSafe c

/-- The next copy is read, or none is left: cause IMAGE (R363, R382). -/
def State.nextCopy (s : State) : List Nat → State
  | [] => s.stopSafe .image
  | c :: l =>
    ({ s with cfg := { s.cfg with order := c :: l, repeats := 0, failAt := none, asked := 0 } } : State).fput
      Reg.cfgStat_step (5 + c)

/-- Both headers have been read (R363): implausible copies fail, the others follow by SEQ, A before B. -/
def State.headersRead (s : State) (a b : List Byte) : State :=
  if s.fget Reg.cfgStat_step ≠ 4 then s
  else
    let s := s.askTo 2
    let ca := s.headerCause a
    let cb := s.headerCause b
    let seq (x : List Byte) : Nat := if x.length < 128 then 0 else imgSeq x
    -- a copy that fails checks 1 to 3 is not read further
    let len (x : List Byte) : Nat := if s.headerCause x == 0 && s.keyOk x then imgLen x else 0
    let s : State := { s with cfg := { s.cfg with seqs := [seq a, seq b], lens := [len a, len b] } }
    let s := if ca = 0 then s else s.copyBad 0 ca 255
    let s := if cb = 0 then s else s.copyBad 1 cb 255
    s.nextCopy (match ca, cb with
      | 0, 0 => if imgSeq a < imgSeq b then [1, 0] else [0, 1]
      | 0, _ => [0]
      | _, 0 => [1]
      | _, _ => [])

/-- The copy being read fails (R363, R368). -/
def State.copyFails (s : State) (cause sec : Nat) : State :=
  match s.cfg.order with
  | [] => s
  | c :: l => (s.copyBad c cause sec).nextCopy l

/-- The burst at a flash address fails (R361): three repeats of a burst, then half the clock down to 25 MHz and on from that
burst, then the copy fails. -/
def State.burstFail (s : State) (burst : Nat) : State :=
  let step := s.fget Reg.cfgStat_step
  let mhz := s.fget Reg.cfgNor_mhz
  let done := if s.cfg.failAt = some burst then s.cfg.repeats else 0
  if step = 0 ∨ 6 < step ∨ s.flag Reg.sysState_loaded = true then s
  else
    let i := s.burstAt burst
    let s := s.askTo (i + 1)
    let set (r : Nat) : State := { s with cfg := { s.cfg with failAt := some burst, repeats := r } }
    if done < 3 then (set (done + 1)).askBurst i
    else if 25 < mhz then ((set 0).fput Reg.cfgNor_mhz (max 25 (mhz / 2))).askBurst i
    else if step < 4 then ((s.copyBad 0 9 255).copyBad 1 9 255).nextCopy []
    else s.copyFails 9 255

/-- The section bodies of a copy: the first that does not open, or all of them (check 7). -/
def State.openSections (s : State) (b : List Byte) : Nat ⊕ List (Section × List Byte) :=
  (List.range (imgSections b)).foldl (fun r i =>
    match r with
    | .inl e => .inl e
    | .inr l =>
      match s.sectionBody b (imgSection b i) with
      | some p => .inr (l ++ [(imgSection b i, p)])
      | none => .inl i) (.inr [])

/-- The bytes of the first section of a type. -/
def bodyOf (l : List (Section × List Byte)) (t : Nat) : List Byte :=
  match l.find? (fun x => x.1.type == t) with
  | some x => x.2
  | none => []

/-- The word the REG section gives a register. -/
def regGet (l : List (Section × List Byte)) (a : Nat) : Nat := (tget resetWord (regFinal (regRecords (bodyOf l 1))) a).toNat

/-- Check 8 on one section (R370 to R375). -/
def sectionOk (l : List (Section × List Byte)) (x : Section × List Byte) : Bool :=
  let ctrl := regGet l Reg.hstCtrl
  match x.1.type with
  | 1 => regOk x.2
  | 2 => claimsOk x.2
  | 3 => tableOk x.1 x.2
  | 4 => segregOk x.2
  | _ => qpOk x.2 (bitsAt ctrl 30 2) (bitsAt ctrl 29 1)

/-- The order in which check 8 takes the sections (R379): the QP section, the REG section, then the others in table order. -/
def checkOrder (l : List (Section × List Byte)) : List Nat :=
  let of (p : Nat → Bool) : List Nat := (List.range l.length).filter (fun i => (l[i]?).any (fun x => p x.1.type))
  of (· == 5) ++ of (· == 1) ++ of (fun t => t != 5 && t != 1)

/-- The TABLE sections that the read itself writes into their destinations (R368): those that are not sealed. -/
def readTables (b : List Byte) : List Section :=
  (imgTable b).filter (fun x => x.type == 3 && x.flags % 2 == 0 &&
    tableAreas.any (fun r => decide (r.1 ≤ x.dest) && decide (x.dest + x.len ≤ r.2 + 1)))

/-- A copy's TABLE sections as the read leaves them (R368): nothing takes effect by it. -/
def State.tablesStored (s : State) (b : List Byte) : State :=
  (readTables b).foldl (fun s x => s.store x.dest ((b.drop x.off).take x.len)) s

/-- The destinations that a failed copy's read has written are zeroed (R368). -/
def State.tablesZeroed (s : State) (b : List Byte) : State :=
  (readTables b).foldl (fun s x => s.store x.dest (zeros x.len)) s

/-- Checks 3 to 8 of a copy (R368): the cause of the first that fails with the section index, or the opened sections.
Check 5 passed with the key cut ends the load without a cause (R386). -/
def State.copyCheck (s : State) (b : List Byte) (readOk : Bool) : (Nat × Nat) ⊕ Option (List (Section × List Byte)) :=
  let h := s.headerCause b
  if h ≠ 0 then .inl (h, 255)
  else if !s.keyOk b then .inl (3, 255)
  else if !readOk || decide (b.length < imgLen b) then .inl (9, 255)
  else if !signatureOk b then .inl (4, 255)
  else if imgSvn b < popcount 32 s.sec.svn then .inl (5, 255)
  else if s.flag Reg.secStat_keycut then .inr none
  else if !sectionsOk b then .inl (6, 255)
  else
    match s.openSections b with
    | .inl i => .inl (7, i)
    | .inr l =>
      match (checkOrder l).find? (fun i => (l[i]?).any (fun x => !sectionOk l x)) with
      | some i => .inl (8, i)
      | none => .inr (some l)

/-- The QP section takes effect (R373, R386): key store, slots, ring and region settings. -/
def State.applyQp (s : State) (b : List Byte) : State :=
  let s : State := { s with sec := { s.sec with keys := some b } }
  let s := ((s.fput Reg.hstLineSlot_val (leAt b 84 4)).fput Reg.hstLineCount_lcount (leAt b 88 4)).fput
    Reg.cmdCount_ccount (leAt b 124 2)
  let s := (s.fput Reg.evqCount_ecount (leAt b 116 4)).fput Reg.cmdStat_phase 1
  let s := s.each (List.range 16) (fun q s =>
    let o := 192 + 64 * q
    let s := s.each (List.range 4) (fun i s => s.fputB ⟨Reg.qptQpCfg q, 31 - i, 1⟩ (qpFlag b q i))
    let s := (s.fputB (Reg.qptQpCfg_ipv6 q) (qpFlag b q 4)).fputB (Reg.qptQpCfg_pen q) (qpFlag b q 5)
    let s := (s.fput (Reg.qptQpCfg_partner q) (qpPartner b q)).fput (Reg.qptQpCfg_to q) (qpTo b q)
    let s := (s.fput (Reg.qptQpLqpn_qpn q) (leAt b (o + 4) 3)).fput (Reg.qptQpRqpn_qpn q) (leAt b (o + 8) 3)
    let s := s.fput (Reg.qptQpPsn_psn q) (leAt b (o + 12) 3)
    if qpFlag b q 0 then
      ((s.fput (Reg.qptQpStat_state q) 1).fput (Reg.qptQpRate_r q) s.rateMax).fput (Reg.qptQpRate_rt q) s.rateMax
    else s)
  s.fput Reg.sysState_loaded 1

/-- The records of the image take effect in order (R370), in the blocks that `p` selects. A field marked "image" that no
record writes holds 0: of the blocks that can be written before the load (R382), SYS_TSYNC_CTRL alone has such fields. -/
def State.applyRegs (s : State) (l : List (Nat × Nat)) (p : Nat → Bool) : State :=
  let s := if p 0 then (s.fput Reg.sysTsyncCtrl_pol 0).fput Reg.sysTsyncCtrl_en 0 else s
  (l.filter (fun r => p (r.1 / 0x10000))).foldl (fun s r =>
    match findReg r.1 with
    | some d => s.rput r.1 (BitVec.ofNat 32 (blend (s.rget r.1).toNat (loaderMask d r.1) r.2))
    | none => s) s

/-- A TABLE section is placed (R371): the calender map into its shadow and into the map in force. -/
def State.applyTable (s : State) (x : Section) (b : List Byte) : State :=
  let s := s.outerStore .ring x.dest b
  if calShadow ≤ x.dest ∧ x.dest < calShadow + 0x400 then s.store (x.dest - calShadow + calForce) b else s

/-- The motion block after the image's values have taken effect (R222, R230): every axis is at rest at its HOLD level. -/
def State.startAxes (s : State) : State :=
  State.feedUnc (s.each (List.range 8) (fun a s =>
    let s := (s.setAxis a (s.convert a (s.axis a))).fput (Reg.motAxStat_hold a) 1
    if a < 2 ∧ s.flag (Reg.motAxCtrl_ena a) = true then s.enableAxis a false else s))

/-- The lamps at start-up (R379 step 5): PING to every enabled zone on its bus; a zone without a bus is ABSENT. -/
def State.startLamps (s : State) : State :=
  let s := s.each (List.range 2) (fun b s => s.busEnable b)
  s.each s.enabledZones (fun z s =>
    if s.busUp (z % 2) then s.pingOn z (z % 2)
    else if s.busUp (1 - z % 2) then s.pingOn z (1 - z % 2)
    else (s.fput (Reg.lmpZoneStat_state z) 3).raise 0x9006 .fault z (pf 22 1 255))

/-- The islands and converters of the enabled segments start (R40, R77, R379 step 6); the others stay down. -/
def State.startVideo (s : State) : State :=
  let s := s.each (List.range 64) (fun k s =>
    if s.segEn k then (s.setAlive k true).groupStartup k else (s.setAlive k false).groupDown k)
  s.groupStartup 64

/-- Polynomials, monitor calibration and bank B's check (R379 step 5). -/
def State.startSense (s : State) (shading : Bool) : State :=
  let s := s.each (List.range 16) (fun n s => s.loadCoef n)
  let s : State := { s with mon := { s.mon with calReq := true } }
  if shading then ({ s with cfg := { s.cfg with bankCheck := true } } : State).checkStart 1 else s

/-- An engine that the image holds out of its pool leaves it. -/
def State.startEngines (s : State) (t : Table Word) : State :=
  t.foldl (fun s e =>
    match engAt e.1 with
    | some (k, i) => s.engWrite k i e.2.toNat
    | none => s) s

/-- What the status registers show of an accepted copy (R388). -/
def State.showCopy (s : State) (c : Nat) (b : List Byte) : State :=
  let s := ((s.fput (cfgResultF c) 0).fput Reg.cfgStat_copy c).fput Reg.cfgSeq_val (imgSeq b)
  (((s.fput Reg.cfgSvn_svn (imgSvn b)).wput Reg.cfgBuild0 (imgBuild b)).fput Reg.cfgLen_val (imgLen b))

/-- A copy without conflicts takes effect (R379 steps 4 to 6). -/
def State.applyImage (s : State) (c : Nat) (b : List Byte) (l : List (Section × List Byte)) (claims : List Claim) : State :=
  let other := s.fget (cfgResultF (1 - c))
  let s := ((s.showCopy c b).fput Reg.cfgStat_step 7).applyRegs (regRecords (bodyOf l 1)) (fun _ => true)
  let s : State := { s with cfg := { s.cfg with claims := claims, segreg := segEntries (bodyOf l 4) } }
  let s := if s.owner 4 6 = 4 then s.fput Reg.shdCtrl_shutter 1 else s
  let s := s.applyQp (bodyOf l 5)
  let s := (l.filter (fun x => x.1.type == 3)).foldl (fun s x => s.applyTable x.1 x.2) s
  let s := s.raise 0x1001 .info c
    (pf 22 1 (if other = 255 then 0 else other) + pf 24 4 (imgSeq b) + pf 28 1 (imgSvn b))
  let s := (s.flashEnd.portModes true).fput Reg.cfgStat_step 8
  let s := (s.startAxes.startLamps).startEngines (regFinal (regRecords (bodyOf l 1)))
  let shading := l.any (fun x => x.1.type == 3 && decide (0x13800000 ≤ x.1.dest) && decide (x.1.dest < 0x14000000))
  (s.startSense shading).startVideo

/-- A copy with conflicting claims (R377, R379): the host link alone takes effect. -/
def State.applyConflict (s : State) (c : Nat) (b : List Byte) (l : List (Section × List Byte)) (k : Conflict) : State :=
  let s := ((s.showCopy c b).fput Reg.cfgStat_step 7).applyRegs (regRecords (bodyOf l 1))
    (fun blk => decide (3 ≤ blk) && decide (blk ≤ 6))
  let s := (s.applyQp (bodyOf l 5)).portModes true
  let s := ((s.fput Reg.cfgConflict_class k.cls).fput Reg.cfgConflict_index k.idx).fput Reg.cfgConflict_inforce k.old
  let s := (s.fput Reg.cfgConflict_wanted k.new).fput Reg.cfgConflictAddr_val k.addr
  let s := s.raise 0x1003 .fault 0
    (pf 22 1 k.cls + pf 23 1 k.idx + pf 24 1 k.old + pf 25 1 k.new + pf 26 4 k.addr)
  s.stopSafe .claim

/-- The copy at the head of the order has been read and is checked (R363, R368, R379, R386). -/
def State.copyVerified (s : State) (b : List Byte) (readOk : Bool) : State :=
  match s.cfg.order with
  | [] => s
  | c :: _ =>
    let s := s.askTo s.burstCount
    match s.copyCheck b readOk with
    | .inl (cause, i) => (if 4 ≤ cause then s.tablesZeroed b else s).copyFails cause i
    | .inr none => (s.tablesStored b).loadStops.safeOutputs
    | .inr (some l) =>
      let s := s.tablesStored b
      let x := imageClaims (claimEntries (bodyOf l 2)) (regGet l)
      match x.2 with
      | some k => s.applyConflict c b l k
      | none => s.applyImage c b l x.1

/-- A check of a bank ends (R145, R161): the loader's selects bank B on a pass. -/
def State.bankChecked (s : State) (b : Nat) : State :=
  if !s.shd.check.contains b then s
  else
    let own := s.cfg.bankCheck && b == 1
    let s := s.checkEnd b
    if own then
      let s : State := { s with cfg := { s.cfg with bankCheck := false } }
      if s.bankValid 1 then s.selectBank 1 else s
    else s

/-- A fuse operation has been read back (R384): `ok` is false when the readback differs or the supply was absent. -/
def State.fuseDone (s : State) (ok : Bool) : State :=
  match s.sec.burning with
  | none => s
  | some (op, data) =>
    let s : State := { s with sec := { s.sec with burning := none } }
    if !ok then s.fput Reg.secStat_ferr 1
    else
      let x := s.sec
      let x : SecSt :=
        if op = 1 then { x with pkh := (x.pkh.zip (data.flatMap (fun w => leBytes 4 w.toNat))).map (fun p => p.1 ||| p.2) }
        else if op = 2 then { x with svn := x.svn ||| (2 ^ ((data.headD 0).toNat % 64) - 1) % 2 ^ 32 }
        else { x with dbglock := true }
      ({ s with sec := x } : State).fput Reg.secStat_fdone 1

/-- Sealing ends (R367, R385): fresh IV, ciphertext in place, tag. With the key cut the cipher has no stated key. -/
def State.sealDone (s : State) : State :=
  if !s.flag Reg.secSealCtrl_busy then s
  else
    let p := s.fget Reg.secSealCtrl_p
    let iv := leBytes 12 (Config.sealRandom s.fresh).toNat
    let key := if s.flag Reg.secStat_keycut then (List.range 32).map Config.cutKey else s.sec.duk
    let aad := leBytes 1 (s.fget Reg.secSealCtrl_type) ++ zeros 3 ++ leBytes 4 p
    let r := gcmSeal key iv aad (s.sealBuf p)
    let s : State := { s with fresh := s.fresh + 1 }
    let s := s.each (List.range 3) (fun i s => s.rput (Reg.secSealIv i) (BitVec.ofNat 32 (leAt iv (4 * i) 4)))
    let s := s.each (List.range 4) (fun i s => s.rput (Reg.secSealTag i) (BitVec.ofNat 32 (leAt r.2 (4 * i) 4)))
    let s := s.each (List.range (p / 4)) (fun w s => s.rput (Reg.secSealBuf w) (BitVec.ofNat 32 (leAt r.1 (4 * w) 4)))
    (s.fput Reg.secSealCtrl_busy 0).fput Reg.secSealCtrl_done 1

/-- The key store is zeroised (R386): slots in ERROR with cause 7, ports down with cause ZEROISED and no failover, the seal
buffer clear. -/
def State.zeroise (s : State) : State :=
  let ups := (List.range 2).filter s.portUp
  let s := s.sealClear 0
  let s : State := { s with sec := { s.sec with keys := none, zeroDue := false } }
  let s := s.each ((List.range 16).filter (fun q => s.flag (Reg.qptQpCfg_en q))) (fun q s => s.slotError q 7)
  let s := s.each ups (fun p s => s.fput (Reg.hstPortStat_state p) 0)
  s.each ups (fun p s => s.portDown p 5 0)

/-- The wait for the acknowledgement of SAFE_ENTER is over (R386). -/
def State.zeroiseKeys (s : State) : State := if s.sec.zeroDue then s.zeroise else s

end Sys2Proof.Machine
end

