-- ==== Sys2Proof/Machine/Boot.lean ====
section
/-!
DEFINITION. The commands of reset, loading, fuses and sealing.
-/

namespace Sys2Proof.Machine

/-- POWER_ON_RESET (R358). -/
def execPowerOnReset (s : State) : Host.Outcome State Fault Refusal :=
  .next (s.causeReset true)

/-- RESET_PIN (R358). -/
def execResetPin (s : State) : Host.Outcome State Fault Refusal :=
  .next (s.causeReset false)

/-- CFG_RESET (R358). -/
def execCfgReset (p : Path) (val : Word) (s : State) : Host.Outcome State Fault Refusal :=
  .next (s.pathWrite p Reg.cfgReset val)

/-- RESET_APPLY (R358). -/
def execResetApply (s : State) : Host.Outcome State Fault Refusal :=
  .next (s.resetApply)

/-- RESET_RELEASE (R359, R360, R381, R390, R418); `refUs`: for how many µs REFCLK has run. -/
def execResetRelease (norVsel : Bool) (twbAddr : BitVec 3) (refUs : Nat) (s : State) : Host.Outcome State Fault Refusal :=
  .next (s.resetRelease norVsel twbAddr.toNat refUs)

/-- FLASH_READY (R360, R361, R381). -/
def execFlashReady (densLog2 : Nat) (prof : Option XspiProfile) (s : State) : Host.Outcome State Fault Refusal :=
  .next (s.ctl (fun s => s.flashReady densLog2 prof))

/-- FLASH_BURST_FAIL (R361); `burst` is the flash address of the burst. -/
def execFlashBurstFail (burst : BitVec 32) (s : State) : Host.Outcome State Fault Refusal :=
  .next (s.ctl (fun s => s.burstFail burst.toNat))

/-- IMAGE_HEADERS_READ (R363). -/
def execImageHeadersRead (a b : List Byte) (s : State) : Host.Outcome State Fault Refusal :=
  .next (s.ctl (fun s => s.headersRead a b))

/-- IMAGE_COPY_VERIFIED (R363, R368, R379, R386). -/
def execImageCopyVerified (image : List Byte) (readOk : Bool) (s : State) : Host.Outcome State Fault Refusal :=
  .next (s.ctl (fun s => s.copyVerified image readOk))

/-- STARTUP_COMPLETE (R380). -/
def execStartupComplete (s : State) : Host.Outcome State Fault Refusal :=
  .next (s.ctl State.startupComplete)

/-- FUSE_OPERATION (R384). -/
def execFuseOperation (p : Path) (val : Word) (s : State) : Host.Outcome State Fault Refusal :=
  .next (s.pathWrite p Reg.secFuseCtrl val)

/-- FUSE_DONE (R384). -/
def execFuseDone (ok : Bool) (s : State) : Host.Outcome State Fault Refusal :=
  .next (s.ctl (fun s => s.fuseDone ok))

/-- SEAL (R385). -/
def execSeal (p : Path) (val : Word) (s : State) : Host.Outcome State Fault Refusal :=
  .next (s.pathWrite p Reg.secSealCtrl val)

/-- SEAL_DONE (R385). -/
def execSealDone (s : State) : Host.Outcome State Fault Refusal :=
  .next (s.ctl State.sealDone)

/-- ZEROISE (R386). -/
def execZeroise (p : Path) (val : Word) (s : State) : Host.Outcome State Fault Refusal :=
  .next (s.pathWrite p Reg.secZeroise val)

/-- ZEROISE_KEYS (R386). -/
def execZeroiseKeys (s : State) : Host.Outcome State Fault Refusal :=
  .next (s.ctl State.zeroiseKeys)

/-- BROWNOUT_HOLD (R416). -/
def execBrownoutHold (io : Bool) (s : State) : Host.Outcome State Fault Refusal :=
  .next (s.brownoutHold io)

/-- BROWNOUT_RELEASE (R416). -/
def execBrownoutRelease (s : State) : Host.Outcome State Fault Refusal :=
  .next (s.brownoutRelease)

end Sys2Proof.Machine
end

