-- ==== Sys2Proof/Machine/VideoOps.lean ====
section
/-!
DEFINITION. Events of the segment inputs and of the converters that more than one rule answers (R53, R54, R60, R70 to R78, R86).
-/

namespace Sys2Proof.Machine

/-- A leg of a tap has been outside its window with the value `ua` (R53, R54): a live tap not yet broken is declared so. -/
def State.loopBroken (s : State) (k t : Nat) (leg : Bool) (ua sample : Nat) : State :=
  let dead :=
    if s.inVolt k then tget (fun _ => false) s.vfe.vbad (4 * k + t) else s.fget (Reg.vfeTapTrain_result k t) == 3
  if !(s.segEn k && s.segPresent k && s.alive k) || dead || !s.loopOutside k ua then s
  else (s.markBroken k t leg ua sample).fallbackDue k

/-- A switch to voltage mode goes on once its MODE write has been acknowledged (R57); it ends when the segment no longer
answers. -/
def State.switchCheck (s : State) (k : Nat) : State :=
  match s.switching k with
  | none => s
  | some ok =>
    let bus := tget (fun _ => ScbBus.init) s.vfe.scb (k / 16)
    let waits (f : ScbFrame) : Bool := f.forSwitch && f.addr == k % 16
    if !s.segPresent k then
      { s with
        vfe := { s.vfe with
          switch := tput (fun _ => none) s.vfe.switch k none, switchLoop := tput (fun _ => []) s.vfe.switchLoop k []
          toVolt := s.vfe.toVolt.filter (· != k) } }
    else if bus.cur.any waits || bus.queue.any waits then s
    else s.voltDone k ok

/-- What follows from a reply that took `s` to `t` (R57, R60): a segment that no longer answers has no readouts left; a switch
to voltage mode goes on. -/
def State.scbSettle (s t : State) : State :=
  let t := t.each ((List.range 64).filter (fun k => s.segPresent k && !t.segPresent k)) (fun k t => t.segGone k)
  t.each ((List.range 64).filter (fun k => (t.switching k).isSome)) (fun k t => t.switchCheck k)

/-- A reply on a segment control bus, and what follows from it (R57, R60). -/
def State.scbAnswer (s : State) (b status data : Nat) (good : Bool) : State :=
  s.scbSettle (s.scbReply b status data good)

/-- 10 µs after a BUSY status the frame is sent again (R60). -/
def State.scbRetry (s : State) (b : Nat) : State :=
  let bus := tget (fun _ => ScbBus.init) s.vfe.scb b
  match bus.cur with
  | some f => if bus.waiting then s.scbStart b f else s
  | none => s

/-- A slice is being calibrated (R70): in the group's start-up, in a retest, or off-line in its rotation until it has been
accepted (R74, R75); in PARK it is calibrated again once MIN phases have passed (R87). With FREEZE the last two stop (R87). -/
def State.calibrating (s : State) (g l : Nat) : Bool :=
  let G := s.grp g
  s.fget (Reg.adcGrpStat_mode g) != 3 && !s.flag Reg.adcCtrl_freeze &&
    (G.startup.contains l || G.retest.contains l || (G.cal == some l && !G.acc && !s.isFaulty g l))

/-- A slice calibration ends (R70 to R73, R77, R86). -/
def State.sliceCal (s : State) (n : Nat) (m : CalMeas) : State :=
  let g := groupOf n
  let l := localOf n
  if !s.calibrating g l then s
  else
    let r := calCompute m (s.fgetI (Reg.adcSliceSkew_skew n))
    let mask := s.calChecks n r (!((s.grp g).startup.contains l || (s.grp g).retest.contains l))
    if mask = 0 then s.calAccept g l r else s.calReject g l r mask

/-- A hand-over point of a group whose segment clocks are stopped (R78). -/
def State.idleStep (s : State) (g : Nat) : State := if g < 64 ∧ s.vfe.clocks = false then s.handOver g true else s

end Sys2Proof.Machine
end

