-- ==== Sys2Proof/Machine/Conv.lean ====
section
/-!
DEFINITION. The commands of the converters.
-/

namespace Sys2Proof.Machine

/-- SLICE_CAL_DONE (R70 to R73, R77, R86). -/
def execSliceCalDone (n : Fin 579) (m : CalMeas) (s : State) : Host.Outcome State Fault Refusal :=
  .next (s.live (fun s => s.sliceCal n m))

/-- ROTATION_STEP_IDLE (R78). -/
def execRotationStepIdle (g : Fin 65) (s : State) : Host.Outcome State Fault Refusal :=
  .next (s.live (fun s => s.idleStep g))

/-- GROUP_RETEST (R86). -/
def execGroupRetest (p : Path) (g : Fin 65) (val : Word) (s : State) : Host.Outcome State Fault Refusal :=
  .next (s.pathWrite p (Reg.adcGrpCtrl g) val)

/-- GROUP_PARK (R87). -/
def execGroupPark (p : Path) (g : Fin 65) (val : Word) (s : State) : Host.Outcome State Fault Refusal :=
  .next (s.pathWrite p (Reg.adcGrpCtrl g) val)

/-- ADC_FREEZE (R87). -/
def execAdcFreeze (p : Path) (val : Word) (s : State) : Host.Outcome State Fault Refusal :=
  .next (s.pathWrite p Reg.adcCtrl val)

end Sys2Proof.Machine
end

