-- ==== Sys2Proof/Machine/LinkOps.lean ====
section
/-!
DEFINITION. Events of the line FIFO's gap and of the DMA block that more than one rule answers (R301, R315, R316, R320, R321).
-/

namespace Sys2Proof.Machine

/-- The watermark of a gap left open at a job's end (R301), once 4 items are free. -/
def State.gapAfterJob (s : State) : State :=
  match s.lff.gap with
  | none => s
  | some g =>
    if s.lff.closeDue && decide (4 ≤ s.freeItems) then
      let p := s.alloc
      let s := ((s.gapClose g p).fput Reg.lffPtrAlloc_val (fAdv p 4)).fillGrew
      s.commitMarks s.lff.resv
    else s

/-- A DMA timer expires (R315, R316): the channels that follow it get a trigger. -/
def State.dmaTimer (s : State) (t : Nat) : State :=
  if !s.flag (Reg.dmaTmr_en t) then s
  else
    s.each (List.range 32) (fun c s =>
      if s.fget (Reg.dmaChCfg_trig c) == 1 && s.fget (Reg.dmaChCfg_tmr c) == t then s.dmaTrigger c else s)

/-- The arbiter grants a burst to the channel first in its order (R321); where that is a fetch, DMA_DESC_START is it. -/
def State.dmaGranted (s : State) (host : List Byte) (poison : Bool) : State :=
  match s.dmaGrant with
  | some c => s.dmaBurst c host poison
  | none => s

/-- 1 µs after it began an EVO pulse ends (R320). -/
def State.evoEnd (s : State) (k : Nat) : State :=
  { s with dma := { s.dma with evo := tput (fun _ => false) s.dma.evo k false } }

end Sys2Proof.Machine
end

