-- ==== Sys2Proof/Machine/Dma.lean ====
section
/-!
DEFINITION. The commands of the DMA channels.
-/

namespace Sys2Proof.Machine

/-- DMA_START (R315). -/
def execDmaStart (p : Path) (c : Fin 32) (val : Word) (s : State) : Host.Outcome State Fault Refusal :=
  .next (s.pathWrite p (Reg.dmaChCtrl c) val)

/-- DMA_STOP (R319). -/
def execDmaStop (p : Path) (c : Fin 32) (val : Word) (s : State) : Host.Outcome State Fault Refusal :=
  .next (s.pathWrite p (Reg.dmaChCtrl c) val)

/-- DMA_TIMER_EXPIRY (R315, R316). -/
def execDmaTimerExpiry (t : Fin 8) (s : State) : Host.Outcome State Fault Refusal :=
  .next (s.live (fun s => s.dmaTimer t))

/-- DMA_DESC_START (R313, R314, R317). -/
def execDmaDescStart (c : Fin 32) (fetched : List Byte) (s : State) : Host.Outcome State Fault Refusal :=
  .next (s.live (fun s => s.dmaDescStart c fetched))

/-- DMA_BURST_GRANT (R312, R314, R321); `poison` says that an on-chip source outside the line FIFO holds a poisoned word. -/
def execDmaBurstGrant (hostData : List Byte) (poison : Bool) (s : State) : Host.Outcome State Fault Refusal :=
  .next (s.live (fun s => s.dmaGranted hostData poison))

/-- DMA_DESC_DONE (R319, R320). -/
def execDmaDescDone (c : Fin 32) (s : State) : Host.Outcome State Fault Refusal :=
  .next (s.live (fun s => s.dmaDescDone c))

/-- EVO_PULSE_END (R320). -/
def execEvoPulseEnd (k : Fin 4) (s : State) : Host.Outcome State Fault Refusal :=
  .next (s.live (fun s => s.evoEnd k))

end Sys2Proof.Machine
end

