-- ==== Sys2Proof/Machine/Feed.lean ====
section
/-!
DEFINITION. The commands of the feed: advances, jobs, couches.
-/

namespace Sys2Proof.Machine

/-- ADVANCE (R242). -/
def execAdvance (e : CmdEntry) (s : State) : Host.Outcome State Fault Refusal :=
  .next (s.ringWork 5 e (fun s => s.advance e))

/-- ADVANCE_ACCEPT (R242, R304). -/
def execAdvanceAccept (s : State) : Host.Outcome State Fault Refusal :=
  .next (s.live State.advanceTry)

/-- PASS_BOUNDARY (R13, R244). -/
def execPassBoundary (s : State) : Host.Outcome State Fault Refusal :=
  .next (s.live State.passBoundary)

/-- JOB_START (R346, R433). -/
def execJobStart (e : CmdEntry) (s : State) : Host.Outcome State Fault Refusal :=
  .next (s.ringCommand 3 e (fun s => s.jobStart e))

/-- JOB_STOP (R244, R245, R252). -/
def execJobStop (e : CmdEntry) (s : State) : Host.Outcome State Fault Refusal :=
  .next (s.ringWork 4 e (fun s => s.jobStop e))

/-- JOB_END (R20, R244, R245). -/
def execJobEnd (s : State) : Host.Outcome State Fault Refusal :=
  .next (s.live (fun s => if s.jobMayEnd then s.jobEnd else s))

/-- COUCH_DWELL_END (R246). -/
def execCouchDwellEnd (s : State) : Host.Outcome State Fault Refusal :=
  .next (s.live State.couchDwell)

/-- COUCH_RESTART (R246). -/
def execCouchRestart (s : State) : Host.Outcome State Fault Refusal :=
  .next (s.live State.couchForward)

end Sys2Proof.Machine
end

