-- ==== Sys2Proof/Machine/Fifo.lean ====
section
/-!
DEFINITION. The commands of the line FIFO and its readers.
-/

namespace Sys2Proof.Machine

/-- GAP_CLOSE_AFTER_JOB (R301). -/
def execGapCloseAfterJob (s : State) : Host.Outcome State Fault Refusal :=
  .next (s.live State.gapAfterJob)

/-- PACKET_ISSUE (R305, R338); `flips` are the half words of the FIFO whose parity has failed since the last reader
(R291). -/
def execPacketIssue (flips : List (BitVec 23)) (s : State) : Host.Outcome State Fault Refusal :=
  .next (s.live (fun s => (s.flip flips).issuePacket))

/-- SVC_READ (R308): word 0 of LFF_SVC_DATA; `flips` are the half words of the FIFO whose parity has failed since the last
reader (R291). -/
def execSvcRead (p : Path) (flips : List (BitVec 23)) (s : State) : Host.Outcome State Fault Refusal :=
  .next ((s.live (fun s => s.flip flips)).pathRead p (Reg.lffSvcData 0))

/-- SINK_WRITE (R307, R308). -/
def execSinkWrite (p : Path) (val : Word) (s : State) : Host.Outcome State Fault Refusal :=
  .next (s.pathWrite p Reg.lffCtrl val)

end Sys2Proof.Machine
end

