-- ==== Sys2Proof/Machine/HostPort.lean ====
section
/-!
DEFINITION. The commands of the ports and queue pairs.
-/

namespace Sys2Proof.Machine

/-- LINK_FAULT (R351). -/
def execLinkFault (p : Fin 2) (remote : Bool) (s : State) : Host.Outcome State Fault Refusal :=
  .next (s.live (fun s => s.linkLost p remote))

/-- PORT_LINK_HOLD_EXPIRY (R351). -/
def execPortLinkHoldExpiry (p : Fin 2) (s : State) : Host.Outcome State Fault Refusal :=
  .next (s.live (fun s => s.linkHeld p))

/-- LINK_TRAINED (R351). -/
def execLinkTrained (p : Fin 2) (s : State) : Host.Outcome State Fault Refusal :=
  .next (s.live (fun s => s.linkTrained p))

/-- PORT_STEADY (R351). -/
def execPortSteady (p : Fin 2) (s : State) : Host.Outcome State Fault Refusal :=
  .next (s.live (fun s => s.portSteady p))

/-- PORT_FORCE_DOWN (R351, R354). -/
def execPortForceDown (p : Path) (port : Fin 2) (val : Word) (s : State) : Host.Outcome State Fault Refusal :=
  .next (s.pathWrite p (Reg.hstPortCtrl port) val)

/-- PFC_STALL (R330). -/
def execPfcStall (p : Fin 2) (s : State) : Host.Outcome State Fault Refusal :=
  .next (s.live (fun s => s.pfcStall p))

/-- ARP_REQUEST (R329). -/
def execArpRequest (p : Fin 2) (f : RxFrame) (target : Word) (senderMac : BitVec 48) (senderIp : Word) (s : State) :
    Host.Outcome State Fault Refusal :=
  .next (s.live (fun s => s.rxFrame p f (fun s => s.arp p target.toNat senderMac.toNat senderIp.toNat)))

/-- NEIGHBOUR_SOLICIT (R329). -/
def execNeighbourSolicit (p : Fin 2) (f : RxFrame) (target : BitVec 128) (senderMac : BitVec 48) (senderIp : BitVec 128)
    (s : State) : Host.Outcome State Fault Refusal :=
  .next (s.live (fun s => s.rxFrame p f (fun s => s.neighbour p target.toNat senderMac.toNat senderIp.toNat)))

/-- PFC_FRAME (R330). -/
def execPfcFrame (p : Fin 2) (f : RxFrame) (prio : BitVec 3) (quanta : BitVec 16) (s : State) : Host.Outcome State Fault Refusal :=
  .next (s.live (fun s => s.rxFrame p f (fun s => s.pfc p prio.toNat quanta.toNat)))

/-- FRAME_DISCARD (R329). -/
def execFrameDiscard (p : Fin 2) (s : State) : Host.Outcome State Fault Refusal :=
  .next (s.live (fun s => s.discardFrame p))

/-- ACK_RECEIVE (R332, R333). -/
def execAckReceive (q : Fin 16) (f : RxFrame) (psn : BitVec 24) (s : State) : Host.Outcome State Fault Refusal :=
  .next (s.live (fun s => s.rxPacket q f (fun s => s.ack q psn.toNat)))

/-- NAK_RECEIVE (R333). -/
def execNakReceive (q : Fin 16) (f : RxFrame) (code : NakCode) (_psn : BitVec 24) (s : State) : Host.Outcome State Fault Refusal :=
  .next (s.live (fun s => s.rxPacket q f (fun s => s.nak q code)))

/-- READ_RESPONSE (R339, R344). -/
def execReadResponse (q : Fin 16) (f : RxFrame) (r : ReadData) (s : State) : Host.Outcome State Fault Refusal :=
  .next (s.live (fun s => s.rxPacket q f (fun s => s.readResponse q r)))

/-- CNP_RECEIVE (R334). -/
def execCnpReceive (q : Fin 16) (f : RxFrame) (s : State) : Host.Outcome State Fault Refusal :=
  .next (s.live (fun s => s.rxPacket q f (fun s => s.cnp q)))

/-- QP_ACK_TIMEOUT (R333). -/
def execQpAckTimeout (q : Fin 16) (s : State) : Host.Outcome State Fault Refusal :=
  .next (s.live (fun s => s.ackTimeout q))

/-- QP_RESET (R333, R352). -/
def execQpReset (p : Path) (q : Fin 16) (val : Word) (s : State) : Host.Outcome State Fault Refusal :=
  .next (s.pathWrite p (Reg.qptQpCtrl q) val)

/-- ECN_ALPHA_TIMER (R334). -/
def execEcnAlphaTimer (q : Fin 16) (s : State) : Host.Outcome State Fault Refusal :=
  .next (s.live (fun s => s.alphaDecay q))

/-- ECN_RATE_TIMER (R334). -/
def execEcnRateTimer (q : Fin 16) (s : State) : Host.Outcome State Fault Refusal :=
  .next (s.live (fun s => s.rateRise q))

/-- HST_CTRL_WRITE (R327). -/
def execHstCtrlWrite (p : Path) (val : Word) (s : State) : Host.Outcome State Fault Refusal :=
  .next (s.pathWrite p Reg.hstCtrl val)

/-- PCS_REALIGN (R351). -/
def execPcsRealign (p : Fin 2) (s : State) : Host.Outcome State Fault Refusal :=
  .next (s.live (fun s => s.linkBack p))

/-- PFC_PAUSE_EXPIRY (R330). -/
def execPfcPauseExpiry (p : Fin 2) (s : State) : Host.Outcome State Fault Refusal :=
  .next (s.live (fun s => s.pauseEnd p))

end Sys2Proof.Machine
end

