-- ==== Sys2Proof/Machine/Indicator.lean ====
section
/-!
DEFINITION. The commands of the indicator strip.
-/

namespace Sys2Proof.Machine

/-- IND_FRAME (R404, R405). -/
def execIndFrame (s : State) : Host.Outcome State Fault Refusal :=
  .next (s.ctl State.indFrame)

/-- IND_ROW_SLOT (R404). -/
def execIndRowSlot (s : State) : Host.Outcome State Fault Refusal :=
  .next (s.ctl State.indRow)

/-- IND_POINTER_EXPIRE (R405). -/
def execIndPointerExpire (e : Fin 4) (s : State) : Host.Outcome State Fault Refusal :=
  .next (s.ctl (fun s => s.pointerExpire e))

/-- SAFE_BLINK_TOGGLE (R408). -/
def execSafeBlinkToggle (s : State) : Host.Outcome State Fault Refusal :=
  .next (s.ctl State.blink)

end Sys2Proof.Machine
end

