-- ==== Sys2Proof/Machine/Lamp.lean ====
section
/-!
DEFINITION. The commands of the lamps.
-/

namespace Sys2Proof.Machine

/-- STROBE_RISE (R93, R95, R106). -/
def execStrobeRise (s : State) : Host.Outcome State Fault Refusal :=
  .next (s.live State.strobeRise)

/-- STROBE_FALL (R95). -/
def execStrobeFall (c : Fin 4) (s : State) : Host.Outcome State Fault Refusal :=
  .next (s.live (fun s => s.strobeFall c))

/-- LAMP_EN_OFF (R96). -/
def execLampEnOff (s : State) : Host.Outcome State Fault Refusal :=
  .next (s.live State.lampEnOff)

/-- LAMP_BUS_TRANSACTION (R114). -/
def execLampBusTransaction (bus : Fin 2) (s : State) : Host.Outcome State Fault Refusal :=
  .next (s.live (fun s => s.lbNext bus))

/-- LAMP_REPLY (R110, R113). -/
def execLampReply (bus : Fin 2) (frame : List Byte) (s : State) : Host.Outcome State Fault Refusal :=
  .next (s.live (fun s => s.lbReply bus frame))

/-- LAMP_NO_REPLY (R110, R113). -/
def execLampNoReply (bus : Fin 2) (s : State) : Host.Outcome State Fault Refusal :=
  .next (s.live (fun s => s.lbNoReply bus))

/-- ZONE_PING_TIMER (R113). -/
def execZonePingTimer (z : Fin 64) (s : State) : Host.Outcome State Fault Refusal :=
  .next (s.live (fun s => s.zonePing z))

/-- BUS_PING_TIMER (R113). -/
def execBusPingTimer (bus : Fin 2) (s : State) : Host.Outcome State Fault Refusal :=
  .next (s.live (fun s => s.busPing bus))

/-- LAMP_COMMIT_SLOT (R99). -/
def execLampCommitSlot (s : State) : Host.Outcome State Fault Refusal :=
  .next (s.live State.commitSlot)

/-- LAMP_ALL_OFF_WRITE (R114, R116). -/
def execLampAllOffWrite (p : Path) (val : Word) (s : State) : Host.Outcome State Fault Refusal :=
  .next (s.pathWrite p Reg.lmpCtrl val)

/-- TINT_RESETF (R100). -/
def execTintResetf (p : Path) (val : Word) (s : State) : Host.Outcome State Fault Refusal :=
  .next (s.pathWrite p Reg.lmpTint val)

/-- ZONE_PING_WRITE (R113, R116). -/
def execZonePingWrite (p : Path) (z : Fin 64) (val : Word) (s : State) : Host.Outcome State Fault Refusal :=
  .next (s.pathWrite p (Reg.lmpZoneCtrl z) val)

/-- ZONE_CLEAR_WRITE (R105, R116). -/
def execZoneClearWrite (p : Path) (z : Fin 64) (val : Word) (s : State) : Host.Outcome State Fault Refusal :=
  .next (s.pathWrite p (Reg.lmpZoneCtrl z) val)

end Sys2Proof.Machine
end

