-- ==== Sys2Proof/Machine/SenseOps.lean ====
section
/-!
DEFINITION. Events of the position ports and timers of the monitor (R238, R257 to R266, R276 to R283).
-/

namespace Sys2Proof.Machine

/-- A trigger of an absolute port by its period (R257, R262); `ready` says what ABS_SLO shows to a frame that starts. -/
def State.absPeriodic (s : State) (n : Nat) (ready : Bool) : State :=
  if s.fget (Reg.posAbsTrig_per n) = 0 || !s.absRuns n then s
  else
    let starts := !s.flag (Reg.posAbsStat_busy n)
    let s := s.absTrigger n
    if starts && !ready then s.absNotReady n else s

/-- The recovery of an absolute port ends; a held trigger starts its frame (R257, R259, R262), on a port that still runs. -/
def State.absRecovered (s : State) (n : Nat) (ready : Bool) : State :=
  if !s.flag (Reg.posAbsStat_busy n) || (s.absPort n).frame then s
  else
    let s := s.fput (Reg.posAbsStat_busy n) 0
    let held := s.flag (Reg.posAbsStat_pend n)
    let s := s.absHeld n
    if held && !ready && (s.absPort n).frame then s.absNotReady n else s

/-- A frame of an absolute port ends with its samples (R257, R258, R260); an axis may wait for its word (R234). -/
def State.absEnded (s : State) (n : Nat) (f : AbsFrame) : State :=
  if !(s.absPort n).frame then s
  else if !f.ready then s.absNotReady n
  else
    let s := s.absFrame n f
    if s.flag (Reg.posAbsStat_valid n) then s.posRestore n else s

/-- A BiSS frame fails on the line (R258); LD shows its line delay where one was measured (R268). -/
def State.bissFails (s : State) (n err : Nat) (ld : Option (BitVec 11)) : State :=
  if (s.absPort n).frame && cfgBiss (s.absPort n).cfg then
    match ld with
    | some d => (s.fput (Reg.posAbsStat_ld n) d.toNat).absFail n err
    | none => s.absFail n err
  else s

/-- The levels at a port that does not count (R268): they show in LVL alone. -/
def State.qeiQuiet (s : State) (n : Nat) (a b z : Bool) : State :=
  (s.fput (Reg.posQeiStat_lvl n) (b2n a + 2 * b2n b + 4 * b2n z)).setQei n { s.qeiPort n with g := s.qeiG n a b z }

/-- A sample of an incremental port with changed levels (R263 to R266, R238). -/
def State.qeiEdge (s : State) (n : Nat) (a b z : Bool) : State :=
  let lvl := s.fget (Reg.posQeiStat_lvl n)
  let a0 := bitAt lvl 0
  let b0 := bitAt lvl 1
  if !s.flag (Reg.posQeiCfg_en n) then s.qeiQuiet n a b z
  else
    let s :=
      if a != a0 && b != b0 then s.qeiIllegal n
      else if a == a0 && b == b0 then s
      else
        let neg := decide (quadPhase a b = (quadPhase a0 b0 + 1) % 4) == s.flag (Reg.posQeiCfg_dirinv n)
        (s.qeiCount n neg).feedCount n neg
    s.qeiLevels n a b z

/-- A change of Z alone (R265). -/
def State.qeiZ (s : State) (n : Nat) (z : Bool) : State :=
  let lvl := s.fget (Reg.posQeiStat_lvl n)
  s.qeiEdge n (bitAt lvl 0) (bitAt lvl 1) z

/-- A speed window of an incremental port ends (R266). -/
def State.qeiWindowEnd (s : State) (n : Nat) : State := if s.flag (Reg.posQeiCfg_en n) then s.qeiWindow n else s

/-- 100 ms without a count (R266): the speed by period is 0. -/
def State.qeiStill (s : State) (n : Nat) : State :=
  if !s.flag (Reg.posQeiCfg_en n) then s
  else
    let s := s.setQei n { s.qeiPort n with spdp := 0 }
    if s.flag (Reg.posQeiStat_smode n) then s.setSpd n 0 else s

/-- 100 ms after the last die entry (R276). -/
def State.dieTimer (s : State) : State :=
  if s.flag Reg.monCtrl_en then { s with mon := { s.mon with dieDue := true } } else s

/-- A result has grown older than AGE × 10 ms (R277). -/
def State.monAged (s : State) (n : Nat) : State :=
  if s.fget Reg.monCtrl_age ≠ 0 ∧ s.flag (Reg.monChRes_valid n) = true then
    (s.setChan n { s.chan n with aged := true }).showStale n
  else s

/-- CAL_PER minutes have passed (R281); nothing follows while a calibration runs. -/
def State.monCalTimer (s : State) : State :=
  if s.flag Reg.monCtrl_en && s.fget Reg.monCtrl_cal_per != 0 && !s.flag Reg.monStat_cal_busy then
    { s with mon := { s.mon with calReq := true } }
  else s

/-- PER ms have passed (R282, R283); PER = 0 acts as 1. -/
def State.monSeqTimer (s : State) : State := s.monTriggerBy 3

end Sys2Proof.Machine
end

