-- ==== Sys2Proof/Machine/Monitor.lean ====
section
/-!
DEFINITION. The commands of the monitor.
-/

namespace Sys2Proof.Machine

/-- CHOP_PERIOD_BOUNDARY (R271 to R288). -/
def execChopPeriodBoundary (c : ChopIn) (s : State) : Host.Outcome State Fault Refusal :=
  .next (s.live (fun s => s.chopPeriod c))

/-- DIE_ENTRY_TIMER (R276). -/
def execDieEntryTimer (s : State) : Host.Outcome State Fault Refusal :=
  .next (s.live State.dieTimer)

/-- MON_AGE_STALE (R277). -/
def execMonAgeStale (n : Fin 16) (s : State) : Host.Outcome State Fault Refusal :=
  .next (s.live (fun s => s.monAged n))

/-- MON_CAL_WRITE (R281). -/
def execMonCalWrite (p : Path) (val : Word) (s : State) : Host.Outcome State Fault Refusal :=
  .next (s.pathWrite p Reg.monCtrl val)

/-- MON_CAL_PERIODIC (R281). -/
def execMonCalPeriodic (s : State) : Host.Outcome State Fault Refusal :=
  .next (s.live State.monCalTimer)

/-- MON_SEQ_REQ (R282). -/
def execMonSeqReq (p : Path) (val : Word) (s : State) : Host.Outcome State Fault Refusal :=
  .next (s.pathWrite p Reg.monSeqCtrl val)

/-- MON_SEQ_PERIODIC (R282, R283). -/
def execMonSeqPeriodic (s : State) : Host.Outcome State Fault Refusal :=
  .next (s.live State.monSeqTimer)

/-- MON_INJECT (R284). -/
def execMonInject (p : Path) (val : Word) (s : State) : Host.Outcome State Fault Refusal :=
  .next (s.pathWrite p Reg.monInj val)

/-- MON_LOAD (R275). -/
def execMonLoad (p : Path) (n : Fin 16) (val : Word) (s : State) : Host.Outcome State Fault Refusal :=
  .next (s.pathWrite p (Reg.monChCtrl n) val)

/-- MON_CONFIG_WRITE (R288). -/
def execMonConfigWrite (p : Path) (n : Fin 16) (cmwin : Bool) (val : Word) (s : State) : Host.Outcome State Fault Refusal :=
  .next (s.pathWrite p (if cmwin then Reg.monChCmwin n else Reg.monChCfg n) val)

/-- BLANK_ASSERT (R285). -/
def execBlankAssert (s : State) : Host.Outcome State Fault Refusal :=
  .next (s.live State.blankOn)

/-- BLANK_RELEASE (R285). -/
def execBlankRelease (s : State) : Host.Outcome State Fault Refusal :=
  .next (s.live State.blankOff)

/-- BLANK_STUCK (R285). -/
def execBlankStuck (s : State) : Host.Outcome State Fault Refusal :=
  .next (s.live State.blankLong)

end Sys2Proof.Machine
end

