-- ==== Sys2Proof/Machine/Motion.lean ====
section
/-!
DEFINITION. The commands of the axes.
-/

namespace Sys2Proof.Machine

/-- PROFILE_TICK (R223). -/
def execProfileTick (s : State) : Host.Outcome State Fault Refusal :=
  .next (s.live State.profileTick)

/-- MOVE (R225, R226). -/
def execMove (e : CmdEntry) (s : State) : Host.Outcome State Fault Refusal :=
  .next (s.ringWork 6 e (fun s => s.moveCmd e))

/-- AXIS_HALT (R227). -/
def execAxisHalt (p : Path) (a : Fin 8) (val : Word) (s : State) : Host.Outcome State Fault Refusal :=
  .next (s.pathWrite p (Reg.motAxCtrl a) val)

/-- AXIS_STOP (R234). -/
def execAxisStop (p : Path) (a : Fin 8) (val : Word) (s : State) : Host.Outcome State Fault Refusal :=
  .next (s.pathWrite p (Reg.motAxCtrl a) val)

/-- MOTION_STOP_ALL (R234). -/
def execMotionStopAll (p : Path) (val : Word) (s : State) : Host.Outcome State Fault Refusal :=
  .next (s.pathWrite p Reg.motCtrl val)

/-- DRV_FLT_FALL (R235). -/
def execDrvFltFall (a : Fin 8) (s : State) : Host.Outcome State Fault Refusal :=
  .next (s.live (fun s => s.fltFall a))

/-- DRV_FLT_RISE (R235). -/
def execDrvFltRise (a : Fin 8) (s : State) : Host.Outcome State Fault Refusal :=
  .next (s.live (fun s => s.fltRise a))

/-- AXIS_FAULT (R235, R236). -/
def execAxisFault (a : Fin 8) (s : State) : Host.Outcome State Fault Refusal :=
  .next (s.live (fun s => s.axisFault a))

/-- HOLD_CURRENT_DROP (R230). -/
def execHoldCurrentDrop (a : Fin 8) (s : State) : Host.Outcome State Fault Refusal :=
  .next (s.live (fun s => s.holdDrop a))

/-- MOVE_START_DELAY (R230). -/
def execMoveStartDelay (a : Fin 8) (s : State) : Host.Outcome State Fault Refusal :=
  .next (s.live (fun s => s.startDelay a))

/-- AXIS_ENABLE_WRITE (R231). -/
def execAxisEnableWrite (p : Path) (a : Fin 8) (val : Word) (s : State) : Host.Outcome State Fault Refusal :=
  .next (s.pathWrite p (Reg.motAxCtrl a) val)

/-- PHOME_RISE (R232). -/
def execPhomeRise (a : Fin 2) (s : State) : Host.Outcome State Fault Refusal :=
  .next (s.live (fun s => s.phomeRise a))

/-- PHASE_FAIL (R232). -/
def execPhaseFail (a : Fin 2) (s : State) : Host.Outcome State Fault Refusal :=
  .next (s.live (fun s => s.phaseFail a))

/-- PHASE_RESTORED (R232). -/
def execPhaseRestored (a : Fin 2) (s : State) : Host.Outcome State Fault Refusal :=
  .next (s.live (fun s => s.phaseRestored a))

/-- SETPOS_WRITE (R233). -/
def execSetposWrite (p : Path) (a : Fin 8) (high : Bool) (val : Word) (s : State) : Host.Outcome State Fault Refusal :=
  .next (s.pathWrite p (if high then Reg.motAxSetpos1 a else Reg.motAxSetpos0 a) val)

/-- ENCSET (R233). -/
def execEncset (p : Path) (a : Fin 8) (val : Word) (s : State) : Host.Outcome State Fault Refusal :=
  .next (s.pathWrite p (Reg.motAxCtrl a) val)

end Sys2Proof.Machine
end

