-- ==== Sys2Proof/Machine/Nozzle.lean ====
section
/-!
DEFINITION. The commands of the nozzle contexts and of the EVI inputs.
-/

namespace Sys2Proof.Machine

/-- NZL_CLEAR (R171). -/
def execNzlClear (p : Path) (val : Word) (s : State) : Host.Outcome State Fault Refusal :=
  .next (s.pathWrite p Reg.nzlCtrl val)

/-- BAND_LINE_WRITE (R175). -/
def execBandLineWrite (p : Path) (stream : Fin 4) (high : Bool) (val : Word) (s : State) : Host.Outcome State Fault Refusal :=
  .next (s.pathWrite p (if high then Reg.nzlBandLine1 stream else Reg.nzlBandLine0 stream) val)

/-- EVI_EDGE (R175, R197, R226, R239, R282). -/
def execEviEdge (g : Fin 4) (rising : Bool) (s : State) : Host.Outcome State Fault Refusal :=
  .next (s.live (fun s => s.eviEdge g rising))

/-- NZE_TAKE_CHUNK (R185). -/
def execNzeTakeChunk (e : Fin 24) (s : State) : Host.Outcome State Fault Refusal :=
  .next (s.live (fun s => s.nozzleTake e))

/-- CHUNK_DONE (R185). -/
def execChunkDone (e : Fin 24) (s : State) : Host.Outcome State Fault Refusal :=
  .next (s.live (fun s => s.nozzleDone e))

/-- CONTEXT_EXPORT (R192). -/
def execContextExport (e : CmdEntry) (s : State) : Host.Outcome State Fault Refusal :=
  .next (s.ringCommand 0x0A e (fun s => s.contextExport e))

/-- EXPORT_DONE (R192). -/
def execExportDone (ok : Bool) (s : State) : Host.Outcome State Fault Refusal :=
  .next (s.live (fun s => s.exportDone ok))

end Sys2Proof.Machine
end

