-- ==== Sys2Proof/Machine/Pool.lean ====
section
/-!
DEFINITION. The commands of the engine pools and of the line commit.
-/

namespace Sys2Proof.Machine

/-- PXE_TAKE_BLOCK (R135). -/
def execPxeTakeBlock (e : Fin 48) (s : State) : Host.Outcome State Fault Refusal :=
  .next (s.live (fun s => s.pixelTake e))

/-- BLOCK_DONE (R133, R137). -/
def execBlockDone (e : Fin 48) (s : State) : Host.Outcome State Fault Refusal :=
  .next (s.live (fun s => s.pixelDone e))

/-- ENGINE_PARITY_ERROR (R141, R187, R200). -/
def execEngineParityError (k : EngKind) (e : Fin 48) (s : State) : Host.Outcome State Fault Refusal :=
  .next (s.live (fun s => if e < engCount k then s.engParity k e else s))

/-- ENGINE_TEST_WRITE (R140). -/
def execEngineTestWrite (p : Path) (k : EngKind) (e : Fin 48) (val : Word) (s : State) : Host.Outcome State Fault Refusal :=
  .next (if e < engCount k then s.pathWrite p (engCtrl k e) val else s)

/-- ENGINE_HOLD_WRITE (R140). -/
def execEngineHoldWrite (p : Path) (k : EngKind) (e : Fin 48) (val : Word) (s : State) : Host.Outcome State Fault Refusal :=
  .next (if e < engCount k then s.pathWrite p (engCtrl k e) val else s)

/-- ENGINE_TEST_DONE (R140). -/
def execEngineTestDone (k : EngKind) (e : Fin 48) (pass : Bool) (mismatch : Nat) (s : State) : Host.Outcome State Fault Refusal :=
  .next (s.live (fun s => if e < engCount k then s.engTested k e pass mismatch else s))

/-- LINE_COMMIT (R299). -/
def execLineCommit (s : State) : Host.Outcome State Fault Refusal :=
  .next (s.live State.commitNext)

/-- LINE_ANALYSIS_READ (R168); `flips` are the half words of the FIFO whose parity has failed since the last reader
(R291). -/
def execLineAnalysisRead (flips : List (BitVec 23)) (s : State) : Host.Outcome State Fault Refusal :=
  .next (s.live (fun s => (s.flip flips).analysisRead))

end Sys2Proof.Machine
end

