-- ==== Sys2Proof/Machine/Position.lean ====
section
/-!
DEFINITION. The commands of the position ports.
-/

namespace Sys2Proof.Machine

/-- ABS_REQ (R262). -/
def execAbsReq (p : Path) (n : Fin 4) (val : Word) (s : State) : Host.Outcome State Fault Refusal :=
  .next (s.pathWrite p (Reg.posAbsCtrl n) val)

/-- ABS_PERIODIC_TRIGGER (R257, R262). -/
def execAbsPeriodicTrigger (n : Fin 4) (ready : Bool) (s : State) : Host.Outcome State Fault Refusal :=
  .next (s.live (fun s => s.absPeriodic n ready))

/-- ABS_RECOVERY_END (R257, R259, R262). -/
def execAbsRecoveryEnd (n : Fin 4) (ready : Bool) (s : State) : Host.Outcome State Fault Refusal :=
  .next (s.live (fun s => s.absRecovered n ready))

/-- ABS_FRAME_DONE (R257, R258, R260). -/
def execAbsFrameDone (n : Fin 4) (f : AbsFrame) (s : State) : Host.Outcome State Fault Refusal :=
  .next (s.live (fun s => s.absEnded n f))

/-- ABS_ACK_TIMEOUT (R258): error 5. -/
def execAbsAckTimeout (n : Fin 4) (s : State) : Host.Outcome State Fault Refusal :=
  .next (s.live (fun s => s.bissFails n 5 none))

/-- ABS_NO_START (R258): error 4; `ld` is the line delay measured to the Ack. -/
def execAbsNoStart (n : Fin 4) (ld : BitVec 11) (s : State) : Host.Outcome State Fault Refusal :=
  .next (s.live (fun s => s.bissFails n 4 (some ld)))

/-- ABS_BUSY_TIMEOUT (R258): error 8; `ld` is the line delay measured to the Ack. -/
def execAbsBusyTimeout (n : Fin 4) (ld : BitVec 11) (s : State) : Host.Outcome State Fault Refusal :=
  .next (s.live (fun s => s.bissFails n 8 (some ld)))

/-- ABS_CLRUNC (R261). -/
def execAbsClrunc (p : Path) (n : Fin 4) (val : Word) (s : State) : Host.Outcome State Fault Refusal :=
  .next (s.pathWrite p (Reg.posAbsCtrl n) val)

/-- QEI_COUNT_EDGE (R263 to R266, R238). -/
def execQeiCountEdge (n : Fin 4) (a b z : Bool) (s : State) : Host.Outcome State Fault Refusal :=
  .next (s.live (fun s => s.qeiEdge n a b z))

/-- QEI_INDEX_EDGE (R265). -/
def execQeiIndexEdge (n : Fin 4) (z : Bool) (s : State) : Host.Outcome State Fault Refusal :=
  .next (s.live (fun s => s.qeiZ n z))

/-- QEI_SPEED_WINDOW (R266). -/
def execQeiSpeedWindow (n : Fin 4) (s : State) : Host.Outcome State Fault Refusal :=
  .next (s.live (fun s => s.qeiWindowEnd n))

/-- QEI_SPEED_TIMEOUT (R266). -/
def execQeiSpeedTimeout (n : Fin 4) (s : State) : Host.Outcome State Fault Refusal :=
  .next (s.live (fun s => s.qeiStill n))

/-- QEI_CLRUNC (R264). -/
def execQeiClrunc (p : Path) (n : Fin 4) (val : Word) (s : State) : Host.Outcome State Fault Refusal :=
  .next (s.pathWrite p (Reg.posQeiCtrl n) val)

/-- QEI_REIDX (R265). -/
def execQeiReidx (p : Path) (n : Fin 4) (val : Word) (s : State) : Host.Outcome State Fault Refusal :=
  .next (s.pathWrite p (Reg.posQeiCtrl n) val)

end Sys2Proof.Machine
end

