-- ==== Sys2Proof/Machine/Ring.lean ====
section
/-!
DEFINITION. The commands of the rings: polls, status, events, the command opcodes.
-/

namespace Sys2Proof.Machine

/-- POLL (R339, R344). -/
def execPoll (s : State) : Host.Outcome State Fault Refusal :=
  .next (s.ctl State.poll)

/-- STANDBY_POLL (R327). -/
def execStandbyPoll (s : State) : Host.Outcome State Fault Refusal :=
  .next (s.ctl State.standbyPoll)

/-- STATUS_BLOCK_TIMER (R335). -/
def execStatusBlockTimer (s : State) : Host.Outcome State Fault Refusal :=
  .next (s.ctl State.statusBlock)

/-- EVENT_WRITE (R341, R342). -/
def execEventWrite (s : State) : Host.Outcome State Fault Refusal :=
  .next (s.ctl State.writeEvent)

/-- NOP (R346). -/
def execNop (e : CmdEntry) (s : State) : Host.Outcome State Fault Refusal :=
  .next (s.ringCommand 0 e (fun s => s.nop e))

/-- REG_WRITE (R346, R347). -/
def execRegWrite (e : CmdEntry) (s : State) : Host.Outcome State Fault Refusal :=
  .next (s.ringCommand 1 e (fun s => s.regWriteCmd e))

/-- REG_READ (R346, R347). -/
def execRegRead (e : CmdEntry) (s : State) : Host.Outcome State Fault Refusal :=
  .next (s.ringCommand 2 e (fun s => s.regReadCmd e))

/-- TABLE_LOAD (R346). -/
def execTableLoad (e : CmdEntry) (s : State) : Host.Outcome State Fault Refusal :=
  .next (s.ringCommand 7 e (fun s => s.tableLoad e))

/-- INDICATE (R346, R407). -/
def execIndicate (e : CmdEntry) (s : State) : Host.Outcome State Fault Refusal :=
  .next (s.ringWork 0x0B e (fun s => s.indicate e))

/-- SNAPSHOT (R25, R346). -/
def execSnapshot (e : CmdEntry) (s : State) : Host.Outcome State Fault Refusal :=
  .next (s.ringCommand 0x0C e (fun s => s.snapshotCmd e))

/-- UNKNOWN_OPCODE (R346): reason 7. -/
def execUnknownOpcode (op : Byte) (e : CmdEntry) (s : State) : Host.Outcome State Fault Refusal :=
  .next (if op.toNat < 0x0E then s else s.ringCommand op.toNat e (fun s => s.cmdRefuse op.toNat e 7 0))

end Sys2Proof.Machine
end

