-- ==== Sys2Proof/Machine/TwbOps.lean ====
section
/-!
DEFINITION. The two-wire target and the debug port (R390 to R401, R410, R412).
-/

namespace Sys2Proof.Machine

/-- The pointer after a byte: within its half (R391). -/
def twbNext (p : Nat) : Nat := p / 0x8000 * 0x8000 + (p + 1) % 0x8000

/-- The data bytes of one write phase (R393): `page` is that of the first byte buffered; a byte outside it, or a 33rd one, is
not acknowledged, and what follows is not taken. Pointer, buffer and bytes dropped. -/
def twbTake (page : Nat) : List Byte → Nat → List (Nat × Byte) → Nat × List (Nat × Byte) × Nat
  | [], p, buf => (p, buf, 0)
  | b :: l, p, buf => if p / 32 = page ∧ buf.length < 32 then twbTake page l (twbNext p) (buf ++ [(p, b)]) else (p, buf, l.length + 1)

/-- The bytes of a write phase after the address byte (R391, R393): two pointer bytes, high byte first, then data; ACK for
each byte accepted. -/
def State.twbBytes (s : State) (bytes : List Byte) : State :=
  match bytes with
  | h :: l :: data =>
    let p := 256 * h.toNat + l.toNat
    let r := twbTake (((s.twb.buf.head?.map (·.1)).getD p) / 32) data p s.twb.buf
    let s : State := { s with twb := { s.twb with ptr := r.1, buf := r.2.1, drop := s.twb.drop + r.2.2 } }
    s.out (.twbAcks (List.replicate (3 + data.length - r.2.2) true ++ List.replicate r.2.2 false))
  | _ => s.out (.twbAcks (List.replicate (1 + bytes.length) true))

/-- Write phases, each after a START or a repeated START: the buffer is kept from one to the next (R393). -/
def State.twbPhases (s : State) (phases : List (List Byte)) : State := phases.foldl (fun s l => s.twbBytes l) s

/-- The addresses of on-chip memory (R32). -/
def onChip (a : Nat) : Bool := decide (0x10000000 ≤ a) && decide (a ≤ 0x15FFFFFF)

/-- Reason for which a memory write of a service path is refused, 0 for none (R382, R392). -/
def State.serviceReason (s : State) (a : Nat) : Nat :=
  if s.bare then 2
  else match s.dstRule a 4 with
    | .ok => 0
    | .wait => 3
    | .refuse => 4

/-- A write of one word by a service path (R392, R401): whether it was refused, and the state after it. -/
def State.serviceWrite (s : State) (p : Path) (a : Nat) (v : Word) : Bool × State :=
  if onChip a then
    let r := s.serviceReason a
    if r = 0 then
      (entriesIn a 4 0x15700000 4 63 != [] && jointBad (toInt 16 (v.toNat % 65536)), s.outerStore p a (leBytes 4 v.toNat))
    else if p = .dbg then (true, { s with dbg := { s.dbg with refused := true } })
    else
      let s := s.raise 0x0006 .warn (pathNum p) (pf 22 1 r + pf 24 4 a + pf 28 4 v.toNat)
      (true, if r = 4 then s.raise 0x0007 .warn (pathNum p) (pf 22 1 3 + pf 24 4 a) else s)
  else (s.regReason p a v != 0, s.regWrite p a v)

/-- A read of one word by a service path (R392, R401). -/
def State.serviceRead (s : State) (p : Path) (a : Nat) : Word × State :=
  if onChip a then (if s.bare then 0 else BitVec.ofNat 32 (leNat (s.outerBytes a 4)), s) else s.readReg p a

/-- The last byte buffered at a pointer. -/
def twbAt (buf : List (Nat × Byte)) (p : Nat) : Option Byte := (buf.reverse.find? (fun e => e.1 == p)).map (·.2)

/-- The bytes buffered of the group at a pointer. -/
def twbGroup (buf : List (Nat × Byte)) (g : Nat) : List Byte := (List.range 4).filterMap (fun i => twbAt buf (4 * g + i))

/-- Groups a buffer touches, in ascending address order (R393). -/
def twbGroups (buf : List (Nat × Byte)) : List Nat := (List.range 0x4000).filter (fun g => buf.any (fun e => e.1 / 4 == g))

/-- Bytes the target has discarded (R393, R394, R410). -/
def State.twbDiscard (s : State) (n : Nat) : State := s.bump Reg.twbCntDisc_bytes n

/-- The STOP of a write (R393): whole groups are applied, incomplete ones discarded; LSTAT tells what became of them. -/
def State.twbStop (s : State) : State :=
  let buf := s.twb.buf
  let gs := twbGroups buf
  let whole := gs.filter (fun g => (twbGroup buf g).length == 4)
  let part := gs.filter (fun g => (twbGroup buf g).length != 4)
  let lost := (part.map (fun g => (twbGroup buf g).length)).sum + s.twb.drop
  let s : State := { s with twb := { s.twb with buf := [], drop := 0, state := 0 } }
  let r := whole.foldl (fun (x : Nat × State) g =>
    let v := BitVec.ofNat 32 (leNat (twbGroup buf g))
    if 0x2000 ≤ g then
      (x.1, if g = 0x2000 then { x.2 with twb := { x.2.twb with win := v.toNat % 2 ^ 17 } } else x.2)
    else
      let w := x.2.serviceWrite .twb (x.2.twb.win * 0x8000 + 4 * g) v
      (x.1 + b2n w.1, w.2)) (0, s)
  let s := (r.2.twbDiscard lost).bump Reg.twbCntDisc_groups r.1
  { s with twb := { s.twb with lstat := (whole.length - r.1) * 2 ^ 24 + r.1 * 2 ^ 16 + min lost 65535 } }

/-- A two-wire write transaction (R393). -/
def State.twbWrite (s : State) (phases : List (List Byte)) : State := (s.twbPhases phases).twbStop

/-- A word of the local space (R410). -/
def State.twbLocal (s : State) (g : Nat) : Word :=
  if g = 0x2000 then BitVec.ofNat 32 s.twb.win else if g = 0x2001 then BitVec.ofNat 32 s.twb.lstat else 0

/-- One word of a two-wire read (R395): `head` is what was written before the repeated START, `last` the last byte of the
word that the controller takes; the transfer ends there when `stop` holds or the word is not taken to its end. Until then the
target is sending (R410). -/
def State.twbRead (s : State) (head : List (List Byte)) (last : Nat) (stop : Bool) : State :=
  let s := s.twbPhases head
  let s : State := { s with twb := { s.twb with state := 2 } }
  let p := s.twb.ptr
  let r := if 0x8000 ≤ p then (s.twbLocal (p / 4), s) else s.serviceRead .twb (s.twb.win * 0x8000 + p / 4 * 4)
  let last := max last (p % 4)
  let sent := ((leBytes 4 r.1.toNat).take (last + 1)).drop (p % 4)
  let s := r.2.out (.twb sent)
  let ends := stop || decide (last < 3)
  let s : State := { s with
    twb := { s.twb with ptr := (sent.foldl (fun p _ => twbNext p) p), state := if ends then 0 else 2 } }
  if ends && (s.twb.buf != [] || s.twb.drop != 0) then s.twbStop else s

/-- The buffer is discarded (R394, R397). -/
def State.twbDrop (s : State) (phases : List (List Byte)) : State :=
  let s := s.twbPhases phases
  let n := s.twb.buf.length + s.twb.drop
  let s := s.twbDiscard n
  let lstat := if phases.isEmpty && n == 0 then s.twb.lstat else min n 65535
  { s with twb := { s.twb with buf := [], drop := 0, lstat := lstat, state := 0 } }

/-- SDA has been held low without an SCL edge for TSTUCK ms (R397, R409). -/
def State.twbStuck (s : State) (ack : Bool) (phases : List (List Byte)) : State :=
  if s.fget Reg.twbCtrl_tstuck = 0 then s
  else
    let s := (s.twbDrop phases).bump Reg.twbCntStuck_val 1
    s.raise 0xF001 .warn 0 (pf 22 1 (if ack then 2 else 1) + pf 24 2 s.twb.ptr + pf 28 4 s.twb.win)

/-- An instruction of the debug port that cannot be carried out acts as BYPASS (R399, R400). -/
def State.tapRefused (s : State) : State := s.bump Reg.dbgCntRefused_val 1

/-- The debug port opens beyond boundary scan (R400). -/
def State.debugOpen (s : State) (ir : Nat) : State :=
  let s := s.zeroise.fput Reg.secStat_keycut 1
  let s := (s.enterSafe .debug).fput Reg.dbgStat_open 1
  s.raise 0xF002 .fault 0 (pf 22 1 ir)

/-- Update-IR (R398 to R400): the scan shifts out the 0b0000_0001 that the instruction register captured; a pin-driving
instruction takes the pins by `State.drive`, with the boundary register's output cells. -/
def State.tapIr (s : State) (ir : Nat) (cells : List Bool) : State :=
  let s := (s.out (.tdo 8 1)).fput Reg.dbgStat_ir ir
  let s : State := { s with dbg := { s.dbg with cells := cells } }
  if pinDriving ir then (if s.pinsOpen then s else s.tapRefused)
  else if ir = 0x10 then
    if s.sec.dbglock then s.tapRefused
    else if s.flag Reg.dbgStat_open then s
    else s.debugOpen ir
  else s

/-- TRST_N or Test-Logic-Reset selects IDCODE (R398). -/
def State.tapReset (s : State) : State := s.fput Reg.dbgStat_ir 2

/-- DBG_REG as Capture-DR takes it (R401): DONE, REFUSED and the read result once the port is open, 0 before. What its other
bits capture the spec does not say. -/
def State.dbgCapture (s : State) : Nat :=
  if s.flag Reg.dbgStat_open then
    let x := Config.openNat s.fresh
    x % 4 * 2 ^ 70 + b2n s.dbg.done * 2 ^ 69 + b2n s.dbg.refused * 2 ^ 68 + x / 4 % 2 ^ 32 * 2 ^ 32 + s.dbg.data.toNat
  else 0

/-- Capture-DR of the data register that the instruction selects (R398): width and value. The spec gives the boundary register
neither a length nor an order, so that its scan is not shown. -/
def State.drCapture (s : State) : Option (Nat × Nat) :=
  match s.irActs with
  | 0 | 1 => none
  | 2 => some (32, s.idcode)
  | 0x10 => some (72, s.dbgCapture)
  | _ => some (1, 0)

/-- A data register scan shifts out what was captured. -/
def State.drScan (s : State) : State :=
  match s.drCapture with
  | some c => ({ s with fresh := s.fresh + 1 } : State).out (.tdo c.1 c.2)
  | none => s

/-- Update-DR of DBG_REG (R401): an access starts unless one runs; with DBGLOCK = 1 the instruction acts as BYPASS (R400). -/
def State.dbgStart (s : State) (dr : BitVec 72) : State :=
  let s := s.drScan
  if !s.flag Reg.dbgStat_open || s.irActs != 0x10 || !dbgGo dr || s.dbg.acc.isSome then s
  else { s with dbg := { s.dbg with acc := some (dbgAddr dr, dbgData dr, dbgWrite dr), done := false } }

/-- A debug access finishes (R401). -/
def State.dbgEnd (s : State) : State :=
  match s.dbg.acc with
  | none => s
  | some (a, v, w) =>
    let s : State := { s with dbg := { s.dbg with acc := none, done := true, refused := false } }
    if w then (s.serviceWrite .dbg a v).2
    else
      let r := s.serviceRead .dbg a
      { r.2 with dbg := { r.2.dbg with data := r.1 } }

end Sys2Proof.Machine
end

