-- ==== Sys2Proof/Machine/Service.lean ====
section
/-!
DEFINITION. The commands of the two-wire target and of the debug port.
-/

namespace Sys2Proof.Machine

/-- TWB_WRITE_TRANSACTION (R393). -/
def execTwbWriteTransaction (phases : List (List Byte)) (s : State) : Host.Outcome State Fault Refusal :=
  .next (s.ctl (fun s => s.twbWrite phases))

/-- TWB_READ_WORD (R395). -/
def execTwbReadWord (head : List (List Byte)) (last : Fin 4) (stop : Bool) (s : State) : Host.Outcome State Fault Refusal :=
  .next (s.ctl (fun s => s.twbRead head last stop))

/-- TWB_ABORT (R394). -/
def execTwbAbort (phases : List (List Byte)) (s : State) : Host.Outcome State Fault Refusal :=
  .next (s.ctl (fun s => s.twbDrop phases))

/-- TWB_STUCK (R397). -/
def execTwbStuck (ack : Bool) (phases : List (List Byte)) (s : State) : Host.Outcome State Fault Refusal :=
  .next (s.ctl (fun s => s.twbStuck ack phases))

/-- TAP_IR_UPDATE (R398 to R400). -/
def execTapIrUpdate (ir : Byte) (cells : List Bool) (s : State) : Host.Outcome State Fault Refusal :=
  .next (s.ctl (fun s => s.tapIr ir.toNat cells))

/-- TAP_RESET (R398). -/
def execTapReset (s : State) : Host.Outcome State Fault Refusal :=
  .next (s.ctl State.tapReset)

/-- DBG_ACCESS (R401). -/
def execDbgAccess (dr : BitVec 72) (s : State) : Host.Outcome State Fault Refusal :=
  .next (s.ctl (fun s => s.dbgStart dr))

/-- DBG_ACCESS_DONE (R401). -/
def execDbgAccessDone (s : State) : Host.Outcome State Fault Refusal :=
  .next (s.ctl State.dbgEnd)

end Sys2Proof.Machine
end

