-- ==== Sys2Proof/Machine/Shading.lean ====
section
/-!
DEFINITION. The commands of the shading banks and calibrations. While the control island is lost the SAFE line stands (R12), and
no calibration goes on.
-/

namespace Sys2Proof.Machine

/-- BANK_SELECT_WRITE (R146). -/
def execBankSelectWrite (p : Path) (val : Word) (s : State) : Host.Outcome State Fault Refusal :=
  .next (s.pathWrite p Reg.shdBank val)

/-- BANK_COMMIT (R146, R346). -/
def execBankCommit (e : CmdEntry) (s : State) : Host.Outcome State Fault Refusal :=
  .next (s.ringWork 8 e (fun s => s.bankCommit e))

/-- CAL_START (R149, R150). -/
def execCalStart (e : CmdEntry) (s : State) : Host.Outcome State Fault Refusal :=
  .next (s.ringWork 9 e (fun s => s.calStart e))

/-- CAL_PREPARE_DONE (R151). -/
def execCalPrepareDone (s : State) : Host.Outcome State Fault Refusal :=
  .next (s.ctl State.calPrepared)

/-- CAL_PASS_END (R152 to R156). -/
def execCalPassEnd (s : State) : Host.Outcome State Fault Refusal :=
  .next (s.ctl State.calPassEnd)

/-- CAL_SHUTTER_SETTLED (R154, R160). -/
def execCalShutterSettled (s : State) : Host.Outcome State Fault Refusal :=
  .next (s.ctl State.calSettled)

/-- CAL_VERIFY_END (R156, R157). -/
def execCalVerifyEnd (s : State) : Host.Outcome State Fault Refusal :=
  .next (s.ctl State.calVerifyEnd)

/-- CAL_END (R157, R159). -/
def execCalEnd (s : State) : Host.Outcome State Fault Refusal :=
  .next (s.ctl State.calEnd)

/-- CAL_ABORT (R159). -/
def execCalAbort (p : Path) (val : Word) (s : State) : Host.Outcome State Fault Refusal :=
  .next (s.pathWrite p Reg.shdCtrl val)

/-- BANK_CHECK (R161). -/
def execBankCheck (p : Path) (bank : Fin 2) (val : Word) (s : State) : Host.Outcome State Fault Refusal :=
  .next (s.pathWrite p (Reg.shdBankCtrl bank) val)

/-- BANK_CHECK_DONE (R161, R145). -/
def execBankCheckDone (bank : Fin 2) (s : State) : Host.Outcome State Fault Refusal :=
  .next (s.live (fun s => s.bankChecked bank))

/-- BANK_MBIST (R162). -/
def execBankMbist (p : Path) (bank : Fin 2) (val : Word) (s : State) : Host.Outcome State Fault Refusal :=
  .next (s.pathWrite p (Reg.shdBankCtrl bank) val)

/-- BANK_MBIST_DONE (R162). -/
def execBankMbistDone (bank : Fin 2) (unrepaired : Option Nat) (s : State) : Host.Outcome State Fault Refusal :=
  .next (s.live (fun s => s.mbistEnd bank unrepaired))

end Sys2Proof.Machine
end

