-- ==== Sys2Proof/Machine/Sys.lean ====
section
/-!
DEFINITION. The commands of the SYS block: register accesses, heartbeats, time, snapshots, SAFE.
-/

namespace Sys2Proof.Machine

/-- REGISTER_WRITE (R8, R24). -/
def execRegisterWrite (p : Path) (addr val : Word) (s : State) : Host.Outcome State Fault Refusal :=
  .next (s.pathWrite p addr.toNat val)

/-- RC_READ (R8): the field's value, then 0. -/
def execRcRead (p : Path) (addr : Word) (s : State) : Host.Outcome State Fault Refusal :=
  .next (s.pathRead p addr.toNat)

/-- MULTIWORD_READ (R27): word 0 latches the value for its path, the others come from the latch. -/
def execMultiwordRead (p : Path) (addr : Word) (s : State) : Host.Outcome State Fault Refusal :=
  .next (s.pathRead p addr.toNat)

/-- MULTIWORD_WRITE (R28): held until the highest word. -/
def execMultiwordWrite (p : Path) (addr val : Word) (s : State) : Host.Outcome State Fault Refusal :=
  .next (s.pathWrite p addr.toNat val)

/-- HEARTBEAT_TICK (R12, R34). -/
def execHeartbeatTick (ack : BitVec 76) (s : State) : Host.Outcome State Fault Refusal :=
  .next (s.ctl (fun s => s.heartbeat ack.toNat))

/-- ISLAND_HEARTBEAT_TIMEOUT (R12): kind 1. -/
def execIslandHeartbeatTimeout (island : Fin 76) (s : State) : Host.Outcome State Fault Refusal :=
  .next (s.ctl (fun s => s.islandGone island 1))

/-- ISLAND_CLOCK_FAULT (R12): kind 2. -/
def execIslandClockFault (island : Fin 76) (s : State) : Host.Outcome State Fault Refusal :=
  .next (s.ctl (fun s => s.islandGone island 2))

/-- CONTROL_ISLAND_LOST (R12). -/
def execControlIslandLost (clock : Bool) (s : State) : Host.Outcome State Fault Refusal :=
  .next (s.live (fun s => s.controlLost clock))

/-- CONTROL_ISLAND_RETURN (R12). -/
def execControlIslandReturn (s : State) : Host.Outcome State Fault Refusal :=
  .next (s.live State.controlBack)

/-- COMMIT_HOLD_WRITE (R17). -/
def execCommitHoldWrite (p : Path) (val : Word) (s : State) : Host.Outcome State Fault Refusal :=
  .next (s.pathWrite p Reg.sysCommitHold val)

/-- HOLD_LONG (R17). -/
def execHoldLong (s : State) : Host.Outcome State Fault Refusal :=
  .next (s.ctl State.holdLong)

/-- SNAP_REQUEST (R25). -/
def execSnapRequest (p : Path) (val : Word) (s : State) : Host.Outcome State Fault Refusal :=
  .next (s.pathWrite p Reg.sysSnapCtrl val)

/-- SNAPSHOT_TAKE (R25). -/
def execSnapshotTake (s : State) : Host.Outcome State Fault Refusal :=
  .next (s.ctl State.snapshotTake)

/-- TIME_CORRECTION (R29). -/
def execTimeCorrection (s : State) : Host.Outcome State Fault Refusal :=
  .next (s.ctl State.timeCorrection)

/-- TSYNC_EDGE (R30). -/
def execTsyncEdge (rising : Bool) (heldNs : Nat) (s : State) : Host.Outcome State Fault Refusal :=
  .next (s.ctl (fun s => s.tsyncEdge rising heldNs))

/-- SAFE_FORCE (R33). -/
def execSafeForce (p : Path) (val : Word) (s : State) : Host.Outcome State Fault Refusal :=
  .next (s.pathWrite p Reg.sysSafeForce val)

/-- SAFE_N_LOW (R34, R35). -/
def execSafeNLow (s : State) : Host.Outcome State Fault Refusal :=
  .next (s.ctl State.safeNLow)

/-- REFCLK_FAULT (R34). -/
def execRefclkFault (s : State) : Host.Outcome State Fault Refusal :=
  .next s.refclkFault

/-- SUPPLY_FAULT (R34, R416). -/
def execSupplyFault (rail : Rail) (low : Bool) (s : State) : Host.Outcome State Fault Refusal :=
  .next (s.supplyFault rail low)

/-- THERM_FAULT (R34). -/
def execThermFault (s : State) : Host.Outcome State Fault Refusal :=
  .next (s.ctl State.thermFault)

/-- PORTS_DOWN_TIMEOUT (R34). -/
def execPortsDownTimeout (s : State) : Host.Outcome State Fault Refusal :=
  .next (s.ctl State.portsDown)

/-- MOTION_PARITY_ERROR (R34). -/
def execMotionParityError (s : State) : Host.Outcome State Fault Refusal :=
  .next (s.ctl (fun s => s.enterSafe .motion))

/-- LAMPBUS_TIMEOUT (R34). -/
def execLampbusTimeout (s : State) : Host.Outcome State Fault Refusal :=
  .next (s.ctl State.lampbusTimeout)

/-- SAFE_ALL_OFF_REPEAT (R36, R114). -/
def execSafeAllOffRepeat (s : State) : Host.Outcome State Fault Refusal :=
  .next (s.live State.allOffRepeat)

/-- SAFE_CAUSE_CLEAR (R39). -/
def execSafeCauseClear (p : Path) (val : Word) (s : State) : Host.Outcome State Fault Refusal :=
  .next (s.pathWrite p Reg.sysSafeCause val)

/-- SAFE_CLEAR (R39, R346). -/
def execSafeClear (e : CmdEntry) (s : State) : Host.Outcome State Fault Refusal :=
  .next (s.ringCommand 0x0D e (fun s => s.safeClearCmd e))

/-- SAFE_CLEAR_EVAL (R39). -/
def execSafeClearEval (s : State) : Host.Outcome State Fault Refusal :=
  .next (s.ctl State.safeClearEval)

/-- SAFE_N_RELEASE (R34, R35). -/
def execSafeNRelease (s : State) : Host.Outcome State Fault Refusal :=
  .next (s.ctl State.safeNRelease)

/-- REFCLK_RESTORED (R34). -/
def execRefclkRestored (s : State) : Host.Outcome State Fault Refusal :=
  .next s.refclkBack

/-- SUPPLY_RESTORED (R34, R416). -/
def execSupplyRestored (rail : Rail) (s : State) : Host.Outcome State Fault Refusal :=
  .next (s.supplyBack rail)

/-- THERM_CLEAR (R34). -/
def execThermClear (s : State) : Host.Outcome State Fault Refusal :=
  .next (s.ctl State.thermClear)

end Sys2Proof.Machine
end

