-- ==== Sys2Proof/Machine/Track.lean ====
section
/-!
DEFINITION. The commands of the tracking windows.
-/

namespace Sys2Proof.Machine

/-- WINDOW_PLACE_WRITE (R195). -/
def execWindowPlaceWrite (p : Path) (val : Word) (s : State) : Host.Outcome State Fault Refusal :=
  .next (s.pathWrite p Reg.trkCtrl val)

/-- TCE_TAKE_ITEM (R199). -/
def execTceTakeItem (e : Fin 16) (s : State) : Host.Outcome State Fault Refusal :=
  .next (s.live (fun s => s.corrTake e))

/-- CORR_ITEM_DONE (R201, R203, R249). -/
def execCorrItemDone (e : Fin 16) (s : State) : Host.Outcome State Fault Refusal :=
  .next (s.live (fun s => s.corrDone e))

end Sys2Proof.Machine
end

