-- ==== Sys2Proof/Machine/Video.lean ====
section
/-!
DEFINITION. The commands of the line sequencer and of the segment inputs.
-/

namespace Sys2Proof.Machine

/-- LINE_START (R239, R241). -/
def execLineStart (s : State) : Host.Outcome State Fault Refusal :=
  .next (s.ctl State.positionTrigger)

/-- HELD_LINE_RELEASE (R241). -/
def execHeldLineRelease (s : State) : Host.Outcome State Fault Refusal :=
  .next (s.ctl State.releaseHeld)

/-- PHASE_START (R93, R44, R75). -/
def execPhaseStart (s : State) : Host.Outcome State Fault Refusal :=
  .next (s.ctl State.phaseStart)

/-- CLOSING_START_PULSE (R434). -/
def execClosingStartPulse (s : State) : Host.Outcome State Fault Refusal :=
  .next (s.ctl State.closeLine)

/-- READOUT_COMPLETE (R41, R42, R79). -/
def execReadoutComplete (seg : Fin 64) (r : Readout) (s : State) : Host.Outcome State Fault Refusal :=
  .next (s.live (fun s => s.readout seg r))

/-- FLUSH_PHASES (R45). -/
def execFlushPhases (s : State) : Host.Outcome State Fault Refusal :=
  .next (s.ctl State.flushPhases)

/-- TRAIN_START (R50). -/
def execTrainStart (p : Path) (val : Word) (s : State) : Host.Outcome State Fault Refusal :=
  .next (s.pathWrite p Reg.vfeCtrl val)

/-- TRAIN_DONE (R50, R51). -/
def execTrainDone (taps : List TapTrain) (s : State) : Host.Outcome State Fault Refusal :=
  .next (s.ctl (fun s => s.trainDone taps))

/-- LOOP_BROKEN (R53, R54). -/
def execLoopBroken (seg : Fin 64) (tap : Fin 4) (leg : Bool) (ua : Nat) (sample : Nat) (s : State) : Host.Outcome State Fault Refusal :=
  .next (s.ctl (fun s => s.loopBroken seg tap leg ua sample))

/-- VOLTAGE_MODE_SWITCH (R54 to R57). -/
def execVoltageModeSwitch (seg : Fin 64) (ok0 ok1 ok2 ok3 : Bool) (loop : List Nat) (s : State) :
    Host.Outcome State Fault Refusal :=
  .next (s.ctl (fun s => s.voltageMode seg [ok0, ok1, ok2, ok3] loop))

/-- SCB_HOST_FRAME (R62). -/
def execScbHostFrame (p : Path) (bus : Fin 4) (val : Word) (s : State) : Host.Outcome State Fault Refusal :=
  .next (s.pathWrite p (Reg.vfeScbCmd bus) val)

/-- SCB_REPLY (R59, R60). -/
def execScbReply (bus : Fin 4) (status : BitVec 4) (data : BitVec 16) (check : Byte) (s : State) : Host.Outcome State Fault Refusal :=
  .next (s.ctl (fun s => s.scbAnswer bus status.toNat data.toNat
    (crc8 (bitsMsb 4 status.toNat ++ bitsMsb 16 data.toNat) == check.toNat)))

/-- SCB_BUSY_RETRY (R60). -/
def execScbBusyRetry (bus : Fin 4) (s : State) : Host.Outcome State Fault Refusal :=
  .next (s.ctl (fun s => s.scbRetry bus))

/-- SEGMENT_BRINGUP (R63, R379). -/
def execSegmentBringup (segs : List SegBringup) (s : State) : Host.Outcome State Fault Refusal :=
  .next (s.ctl (fun s => s.bringup segs))

end Sys2Proof.Machine
end

