-- ==== Sys2Proof/Machine/Dispatch.lean ====
section
/-!
DEFINITION. The dispatch: one arm per command of the opcode table, each one direct call of its meaning.
-/

namespace Sys2Proof.Machine

/-- The effect of a command on everything but the queue. -/
def exec (i : Instr) (s : State) : Host.Outcome State Fault Refusal :=
  match i with
  | .registerWrite p addr val => Sys2Proof.Machine.execRegisterWrite p addr val s
  | .rcRead p addr => Sys2Proof.Machine.execRcRead p addr s
  | .multiwordRead p addr => Sys2Proof.Machine.execMultiwordRead p addr s
  | .multiwordWrite p addr val => Sys2Proof.Machine.execMultiwordWrite p addr val s
  | .heartbeatTick ack => Sys2Proof.Machine.execHeartbeatTick ack s
  | .islandHeartbeatTimeout island => Sys2Proof.Machine.execIslandHeartbeatTimeout island s
  | .islandClockFault island => Sys2Proof.Machine.execIslandClockFault island s
  | .controlIslandLost clock => Sys2Proof.Machine.execControlIslandLost clock s
  | .controlIslandReturn => Sys2Proof.Machine.execControlIslandReturn s
  | .commitHoldWrite p val => Sys2Proof.Machine.execCommitHoldWrite p val s
  | .holdLong => Sys2Proof.Machine.execHoldLong s
  | .snapRequest p val => Sys2Proof.Machine.execSnapRequest p val s
  | .snapshotTake => Sys2Proof.Machine.execSnapshotTake s
  | .timeCorrection => Sys2Proof.Machine.execTimeCorrection s
  | .tsyncEdge rising heldNs => Sys2Proof.Machine.execTsyncEdge rising heldNs s
  | .safeForce p val => Sys2Proof.Machine.execSafeForce p val s
  | .safeNLow => Sys2Proof.Machine.execSafeNLow s
  | .refclkFault => Sys2Proof.Machine.execRefclkFault s
  | .supplyFault rail low => Sys2Proof.Machine.execSupplyFault rail low s
  | .thermFault => Sys2Proof.Machine.execThermFault s
  | .portsDownTimeout => Sys2Proof.Machine.execPortsDownTimeout s
  | .motionParityError => Sys2Proof.Machine.execMotionParityError s
  | .lampbusTimeout => Sys2Proof.Machine.execLampbusTimeout s
  | .safeAllOffRepeat => Sys2Proof.Machine.execSafeAllOffRepeat s
  | .safeCauseClear p val => Sys2Proof.Machine.execSafeCauseClear p val s
  | .safeClear e => Sys2Proof.Machine.execSafeClear e s
  | .safeClearEval => Sys2Proof.Machine.execSafeClearEval s
  | .lineStart => Sys2Proof.Machine.execLineStart s
  | .heldLineRelease => Sys2Proof.Machine.execHeldLineRelease s
  | .phaseStart => Sys2Proof.Machine.execPhaseStart s
  | .closingStartPulse => Sys2Proof.Machine.execClosingStartPulse s
  | .strobeRise => Sys2Proof.Machine.execStrobeRise s
  | .strobeFall c => Sys2Proof.Machine.execStrobeFall c s
  | .lampEnOff => Sys2Proof.Machine.execLampEnOff s
  | .readoutComplete seg r => Sys2Proof.Machine.execReadoutComplete seg r s
  | .flushPhases => Sys2Proof.Machine.execFlushPhases s
  | .trainStart p val => Sys2Proof.Machine.execTrainStart p val s
  | .trainDone taps => Sys2Proof.Machine.execTrainDone taps s
  | .loopBroken seg tap leg ua sample => Sys2Proof.Machine.execLoopBroken seg tap leg ua sample s
  | .voltageModeSwitch seg ok0 ok1 ok2 ok3 loop => Sys2Proof.Machine.execVoltageModeSwitch seg ok0 ok1 ok2 ok3 loop s
  | .scbHostFrame p bus val => Sys2Proof.Machine.execScbHostFrame p bus val s
  | .scbReply bus status data check => Sys2Proof.Machine.execScbReply bus status data check s
  | .scbBusyRetry bus => Sys2Proof.Machine.execScbBusyRetry bus s
  | .segmentBringup segs => Sys2Proof.Machine.execSegmentBringup segs s
  | .sliceCalDone n m => Sys2Proof.Machine.execSliceCalDone n m s
  | .rotationStepIdle g => Sys2Proof.Machine.execRotationStepIdle g s
  | .groupRetest p g val => Sys2Proof.Machine.execGroupRetest p g val s
  | .groupPark p g val => Sys2Proof.Machine.execGroupPark p g val s
  | .adcFreeze p val => Sys2Proof.Machine.execAdcFreeze p val s
  | .lampBusTransaction bus => Sys2Proof.Machine.execLampBusTransaction bus s
  | .lampReply bus frame => Sys2Proof.Machine.execLampReply bus frame s
  | .lampNoReply bus => Sys2Proof.Machine.execLampNoReply bus s
  | .zonePingTimer z => Sys2Proof.Machine.execZonePingTimer z s
  | .busPingTimer bus => Sys2Proof.Machine.execBusPingTimer bus s
  | .lampCommitSlot => Sys2Proof.Machine.execLampCommitSlot s
  | .lampAllOffWrite p val => Sys2Proof.Machine.execLampAllOffWrite p val s
  | .tintResetf p val => Sys2Proof.Machine.execTintResetf p val s
  | .zonePingWrite p z val => Sys2Proof.Machine.execZonePingWrite p z val s
  | .zoneClearWrite p z val => Sys2Proof.Machine.execZoneClearWrite p z val s
  | .pxeTakeBlock e => Sys2Proof.Machine.execPxeTakeBlock e s
  | .blockDone e => Sys2Proof.Machine.execBlockDone e s
  | .engineParityError k e => Sys2Proof.Machine.execEngineParityError k e s
  | .engineTestWrite p k e val => Sys2Proof.Machine.execEngineTestWrite p k e val s
  | .engineHoldWrite p k e val => Sys2Proof.Machine.execEngineHoldWrite p k e val s
  | .engineTestDone k e pass mismatch => Sys2Proof.Machine.execEngineTestDone k e pass mismatch s
  | .lineCommit => Sys2Proof.Machine.execLineCommit s
  | .lineAnalysisRead flips => Sys2Proof.Machine.execLineAnalysisRead flips s
  | .bankSelectWrite p val => Sys2Proof.Machine.execBankSelectWrite p val s
  | .bankCommit e => Sys2Proof.Machine.execBankCommit e s
  | .calStart e => Sys2Proof.Machine.execCalStart e s
  | .calPrepareDone => Sys2Proof.Machine.execCalPrepareDone s
  | .calPassEnd => Sys2Proof.Machine.execCalPassEnd s
  | .calShutterSettled => Sys2Proof.Machine.execCalShutterSettled s
  | .calVerifyEnd => Sys2Proof.Machine.execCalVerifyEnd s
  | .calEnd => Sys2Proof.Machine.execCalEnd s
  | .calAbort p val => Sys2Proof.Machine.execCalAbort p val s
  | .bankCheck p bank val => Sys2Proof.Machine.execBankCheck p bank val s
  | .bankCheckDone bank => Sys2Proof.Machine.execBankCheckDone bank s
  | .bankMbist p bank val => Sys2Proof.Machine.execBankMbist p bank val s
  | .bankMbistDone bank unrepaired => Sys2Proof.Machine.execBankMbistDone bank unrepaired s
  | .nzlClear p val => Sys2Proof.Machine.execNzlClear p val s
  | .bandLineWrite p stream high val => Sys2Proof.Machine.execBandLineWrite p stream high val s
  | .eviEdge g rising => Sys2Proof.Machine.execEviEdge g rising s
  | .nzeTakeChunk e => Sys2Proof.Machine.execNzeTakeChunk e s
  | .chunkDone e => Sys2Proof.Machine.execChunkDone e s
  | .contextExport e => Sys2Proof.Machine.execContextExport e s
  | .exportDone ok => Sys2Proof.Machine.execExportDone ok s
  | .windowPlaceWrite p val => Sys2Proof.Machine.execWindowPlaceWrite p val s
  | .tceTakeItem e => Sys2Proof.Machine.execTceTakeItem e s
  | .corrItemDone e => Sys2Proof.Machine.execCorrItemDone e s
  | .profileTick => Sys2Proof.Machine.execProfileTick s
  | .move e => Sys2Proof.Machine.execMove e s
  | .axisHalt p a val => Sys2Proof.Machine.execAxisHalt p a val s
  | .axisStop p a val => Sys2Proof.Machine.execAxisStop p a val s
  | .motionStopAll p val => Sys2Proof.Machine.execMotionStopAll p val s
  | .drvFltFall a => Sys2Proof.Machine.execDrvFltFall a s
  | .drvFltRise a => Sys2Proof.Machine.execDrvFltRise a s
  | .axisFault a => Sys2Proof.Machine.execAxisFault a s
  | .holdCurrentDrop a => Sys2Proof.Machine.execHoldCurrentDrop a s
  | .moveStartDelay a => Sys2Proof.Machine.execMoveStartDelay a s
  | .axisEnableWrite p a val => Sys2Proof.Machine.execAxisEnableWrite p a val s
  | .phomeRise a => Sys2Proof.Machine.execPhomeRise a s
  | .phaseFail a => Sys2Proof.Machine.execPhaseFail a s
  | .phaseRestored a => Sys2Proof.Machine.execPhaseRestored a s
  | .setposWrite p a high val => Sys2Proof.Machine.execSetposWrite p a high val s
  | .encset p a val => Sys2Proof.Machine.execEncset p a val s
  | .advance e => Sys2Proof.Machine.execAdvance e s
  | .advanceAccept => Sys2Proof.Machine.execAdvanceAccept s
  | .passBoundary => Sys2Proof.Machine.execPassBoundary s
  | .jobStart e => Sys2Proof.Machine.execJobStart e s
  | .jobStop e => Sys2Proof.Machine.execJobStop e s
  | .jobEnd => Sys2Proof.Machine.execJobEnd s
  | .couchDwellEnd => Sys2Proof.Machine.execCouchDwellEnd s
  | .couchRestart => Sys2Proof.Machine.execCouchRestart s
  | .absReq p n val => Sys2Proof.Machine.execAbsReq p n val s
  | .absPeriodicTrigger n ready => Sys2Proof.Machine.execAbsPeriodicTrigger n ready s
  | .absRecoveryEnd n ready => Sys2Proof.Machine.execAbsRecoveryEnd n ready s
  | .absFrameDone n f => Sys2Proof.Machine.execAbsFrameDone n f s
  | .absAckTimeout n => Sys2Proof.Machine.execAbsAckTimeout n s
  | .absNoStart n ld => Sys2Proof.Machine.execAbsNoStart n ld s
  | .absBusyTimeout n ld => Sys2Proof.Machine.execAbsBusyTimeout n ld s
  | .absClrunc p n val => Sys2Proof.Machine.execAbsClrunc p n val s
  | .qeiCountEdge n a b z => Sys2Proof.Machine.execQeiCountEdge n a b z s
  | .qeiIndexEdge n z => Sys2Proof.Machine.execQeiIndexEdge n z s
  | .qeiSpeedWindow n => Sys2Proof.Machine.execQeiSpeedWindow n s
  | .qeiSpeedTimeout n => Sys2Proof.Machine.execQeiSpeedTimeout n s
  | .qeiClrunc p n val => Sys2Proof.Machine.execQeiClrunc p n val s
  | .qeiReidx p n val => Sys2Proof.Machine.execQeiReidx p n val s
  | .chopPeriodBoundary c => Sys2Proof.Machine.execChopPeriodBoundary c s
  | .dieEntryTimer => Sys2Proof.Machine.execDieEntryTimer s
  | .monAgeStale n => Sys2Proof.Machine.execMonAgeStale n s
  | .monCalWrite p val => Sys2Proof.Machine.execMonCalWrite p val s
  | .monCalPeriodic => Sys2Proof.Machine.execMonCalPeriodic s
  | .monSeqReq p val => Sys2Proof.Machine.execMonSeqReq p val s
  | .monSeqPeriodic => Sys2Proof.Machine.execMonSeqPeriodic s
  | .monInject p val => Sys2Proof.Machine.execMonInject p val s
  | .monLoad p n val => Sys2Proof.Machine.execMonLoad p n val s
  | .monConfigWrite p n cmwin val => Sys2Proof.Machine.execMonConfigWrite p n cmwin val s
  | .blankAssert => Sys2Proof.Machine.execBlankAssert s
  | .blankRelease => Sys2Proof.Machine.execBlankRelease s
  | .blankStuck => Sys2Proof.Machine.execBlankStuck s
  | .gapCloseAfterJob => Sys2Proof.Machine.execGapCloseAfterJob s
  | .packetIssue flips => Sys2Proof.Machine.execPacketIssue flips s
  | .svcRead p flips => Sys2Proof.Machine.execSvcRead p flips s
  | .sinkWrite p val => Sys2Proof.Machine.execSinkWrite p val s
  | .dmaStart p c val => Sys2Proof.Machine.execDmaStart p c val s
  | .dmaStop p c val => Sys2Proof.Machine.execDmaStop p c val s
  | .dmaTimerExpiry t => Sys2Proof.Machine.execDmaTimerExpiry t s
  | .dmaDescStart c fetched => Sys2Proof.Machine.execDmaDescStart c fetched s
  | .dmaBurstGrant hostData poison => Sys2Proof.Machine.execDmaBurstGrant hostData poison s
  | .dmaDescDone c => Sys2Proof.Machine.execDmaDescDone c s
  | .evoPulseEnd k => Sys2Proof.Machine.execEvoPulseEnd k s
  | .linkFault p remote => Sys2Proof.Machine.execLinkFault p remote s
  | .portLinkHoldExpiry p => Sys2Proof.Machine.execPortLinkHoldExpiry p s
  | .linkTrained p => Sys2Proof.Machine.execLinkTrained p s
  | .portSteady p => Sys2Proof.Machine.execPortSteady p s
  | .portForceDown p port val => Sys2Proof.Machine.execPortForceDown p port val s
  | .pfcStall p => Sys2Proof.Machine.execPfcStall p s
  | .arpRequest p f target senderMac senderIp => Sys2Proof.Machine.execArpRequest p f target senderMac senderIp s
  | .neighbourSolicit p f target senderMac senderIp => Sys2Proof.Machine.execNeighbourSolicit p f target senderMac senderIp s
  | .pfcFrame p f prio quanta => Sys2Proof.Machine.execPfcFrame p f prio quanta s
  | .frameDiscard p => Sys2Proof.Machine.execFrameDiscard p s
  | .ackReceive q f psn => Sys2Proof.Machine.execAckReceive q f psn s
  | .nakReceive q f code psn => Sys2Proof.Machine.execNakReceive q f code psn s
  | .readResponse q f r => Sys2Proof.Machine.execReadResponse q f r s
  | .cnpReceive q f => Sys2Proof.Machine.execCnpReceive q f s
  | .qpAckTimeout q => Sys2Proof.Machine.execQpAckTimeout q s
  | .qpReset p q val => Sys2Proof.Machine.execQpReset p q val s
  | .ecnAlphaTimer q => Sys2Proof.Machine.execEcnAlphaTimer q s
  | .ecnRateTimer q => Sys2Proof.Machine.execEcnRateTimer q s
  | .poll => Sys2Proof.Machine.execPoll s
  | .standbyPoll => Sys2Proof.Machine.execStandbyPoll s
  | .statusBlockTimer => Sys2Proof.Machine.execStatusBlockTimer s
  | .eventWrite => Sys2Proof.Machine.execEventWrite s
  | .hstCtrlWrite p val => Sys2Proof.Machine.execHstCtrlWrite p val s
  | .nop e => Sys2Proof.Machine.execNop e s
  | .regWrite e => Sys2Proof.Machine.execRegWrite e s
  | .regRead e => Sys2Proof.Machine.execRegRead e s
  | .tableLoad e => Sys2Proof.Machine.execTableLoad e s
  | .indicate e => Sys2Proof.Machine.execIndicate e s
  | .snapshot e => Sys2Proof.Machine.execSnapshot e s
  | .unknownOpcode op e => Sys2Proof.Machine.execUnknownOpcode op e s
  | .powerOnReset => Sys2Proof.Machine.execPowerOnReset s
  | .resetPin => Sys2Proof.Machine.execResetPin s
  | .cfgReset p val => Sys2Proof.Machine.execCfgReset p val s
  | .resetApply => Sys2Proof.Machine.execResetApply s
  | .resetRelease norVsel twbAddr refUs => Sys2Proof.Machine.execResetRelease norVsel twbAddr refUs s
  | .flashReady densLog2 prof => Sys2Proof.Machine.execFlashReady densLog2 prof s
  | .flashBurstFail burst => Sys2Proof.Machine.execFlashBurstFail burst s
  | .imageHeadersRead a b => Sys2Proof.Machine.execImageHeadersRead a b s
  | .imageCopyVerified image readOk => Sys2Proof.Machine.execImageCopyVerified image readOk s
  | .startupComplete => Sys2Proof.Machine.execStartupComplete s
  | .fuseOperation p val => Sys2Proof.Machine.execFuseOperation p val s
  | .fuseDone ok => Sys2Proof.Machine.execFuseDone ok s
  | .seal p val => Sys2Proof.Machine.execSeal p val s
  | .sealDone => Sys2Proof.Machine.execSealDone s
  | .zeroise p val => Sys2Proof.Machine.execZeroise p val s
  | .zeroiseKeys => Sys2Proof.Machine.execZeroiseKeys s
  | .brownoutHold io => Sys2Proof.Machine.execBrownoutHold io s
  | .brownoutRelease => Sys2Proof.Machine.execBrownoutRelease s
  | .twbWriteTransaction phases => Sys2Proof.Machine.execTwbWriteTransaction phases s
  | .twbReadWord head last stop => Sys2Proof.Machine.execTwbReadWord head last stop s
  | .twbAbort phases => Sys2Proof.Machine.execTwbAbort phases s
  | .twbStuck ack phases => Sys2Proof.Machine.execTwbStuck ack phases s
  | .tapIrUpdate ir cells => Sys2Proof.Machine.execTapIrUpdate ir cells s
  | .tapReset => Sys2Proof.Machine.execTapReset s
  | .dbgAccess dr => Sys2Proof.Machine.execDbgAccess dr s
  | .dbgAccessDone => Sys2Proof.Machine.execDbgAccessDone s
  | .indFrame => Sys2Proof.Machine.execIndFrame s
  | .indRowSlot => Sys2Proof.Machine.execIndRowSlot s
  | .indPointerExpire e => Sys2Proof.Machine.execIndPointerExpire e s
  | .safeBlinkToggle => Sys2Proof.Machine.execSafeBlinkToggle s
  | .safeNRelease => Sys2Proof.Machine.execSafeNRelease s
  | .refclkRestored => Sys2Proof.Machine.execRefclkRestored s
  | .supplyRestored rail => Sys2Proof.Machine.execSupplyRestored rail s
  | .thermClear => Sys2Proof.Machine.execThermClear s
  | .pcsRealign p => Sys2Proof.Machine.execPcsRealign p s
  | .pfcPauseExpiry p => Sys2Proof.Machine.execPfcPauseExpiry p s

end Sys2Proof.Machine
end

