-- ==== Sys2Proof/Safety.lean ====
section
/-!
DEFINITION. What counts as a safe run: the canonical forms that every step keeps.
-/

namespace Sys2Proof.Machine

/-- The fuses: key hash, device key, unique id, anti-rollback version, debug lock, silicon revision (R33, R384). -/
abbrev Fuses := List Byte × List Byte × Nat × Nat × Bool × Nat

/-- What the fuses hold. -/
def SecSt.fuses (x : SecSt) : Fuses := (x.pkh, x.duk, x.uid, x.svn, x.dbglock, x.rev)

/-- The memory and the register file are in canonical form, and the event queue's staging holds at most its 16,384
places (R417). -/
structure State.Sound (s : State) : Prop where
  mem : Memory.wf s.mem
  regs : Regs.wf s.regs
  staging : s.evq.taken ≤ 16384

/-- The device is out of reset (R358, R416). -/
abbrev State.up (s : State) : Prop := s.cfg.held = false

/-- The device is out of reset and its control island is not lost (R12). -/
abbrev State.controlled (s : State) : Prop := s.cfg.held = false ∧ s.sys.ctlLost = false

/-- A path reaches the registers: the debug port only while it is open (R400). -/
abbrev State.reaches (s : State) (p : Path) : Prop := s.controlled ∧ (p = .dbg → s.flag Reg.dbgStat_open = true)

/-- A register write reaches its register and nothing refuses it (R349). -/
abbrev State.accepts (s : State) (p : Path) (a : Nat) (v : Word) : Prop := s.reaches p ∧ s.regReason p a v = 0

/-- The state once an accepted write of `v` has put its bits into the fields and shadows of the register at `a` (R8, R16). -/
def State.stored (s : State) (a : Nat) (v : Word) : State :=
  match findReg a with
  | some d => s.putReg d a v.toNat
  | none => s

/-- The command at the head of the entries taken is `e` with opcode `op`, the ring is not held, and `e` has no reserved FLAGS
bit (R343 to R345); `r` are the entries behind it. -/
abbrev State.atHead (s : State) (op : Nat) (e : CmdEntry) (r : List Taken) : Prop :=
  s.controlled ∧ s.ringOpen = true ∧ s.cmd.taken = { op := op, entry := e, bad := false } :: r ∧ cmdFlagsBad e = false

/-- The entry at the head has been examined. -/
def State.popped (s : State) (r : List Taken) : State := { s with cmd := { s.cmd with taken := r } }

/-- The state once FEC's counts of a received frame are counted, on a port with a link (R354). -/
def State.received (s : State) (p : Nat) (f : RxFrame) : State :=
  if s.flag (Reg.hstPortStat_link p) then
    (s.bump (Reg.hstPortFecCorr_val p) f.corr.toNat).bump (Reg.hstPortFecUncorr_val p) f.uncorr.toNat
  else s

/-- A port has a link and accepts a received frame by its destination MAC and its VLAN (R329). -/
abbrev State.takesFrame (s : State) (p : Nat) (f : RxFrame) : Prop :=
  (s.received p f).flag (Reg.hstPortStat_link p) = true ∧ (s.received p f).rxAccepts p f = true

/-- Every register but those at the listed addresses reads as before. -/
def State.regsKept (s t : State) (l : List Nat) : Prop := ∀ a, a ∉ l → t.rget a = s.rget a

/-- Every byte of memory reads as before. -/
def State.memKept (s t : State) : Prop := ∀ a, t.byte a = s.byte a

end Sys2Proof.Machine
end

