-- ==== Sys2Proof/Certificates/Slice0/Obligations.lean ====
section
/-!
DEFINITION. The statements for the provers: each `Obligations.<Name>` says what its docstring says, by the rules it names.
-/

open Sys2Proof Sys2Proof.Machine

/-- One step takes the command at the front of the queue and is exec of that command on the state with the queue's rest. -/
def Obligations.StepRunsFrontCommand : Prop :=
  ∀ (c : Instr) (rest : List Instr) (s : State), step { s with pending := c :: rest } = exec c { s with pending := rest }

/-- On an empty queue the block idles for one cycle of the control island: device time advances by 2 ns (R29), unless the device is
held in reset, from whose release device time counts, and nothing else changes. That an empty queue is such a cycle is the model's
choice (log entry 2).
R29: every 10 µs the control island corrects the local copies of device time. -/
def Obligations.EmptyQueueIdles : Prop :=
  (∀ (s : State), s.pending = [] →
     (s.cfg.held = false → step s = .next { s with sys := { s.sys with now := s.sys.now + 2 } }) ∧
     (s.cfg.held = true → step s = .next s)) ∧
  (∀ (s : State), s.controlled → exec .timeCorrection s = .next { s with sys := { s.sys with corrected := s.sys.now } })

/-- What reset leaves (R33, R358, R359): no job runs, the device is not in SAFE, no image is loaded, no cause is latched or
present, device time is 0, every byte of memory reads 0, SYS_ID reads as R33 gives it (its revision is log entry 7), nothing
is queued, and the canonical forms hold. -/
def Obligations.ResetState : Prop :=
  State.reset.Sound ∧ State.reset.running = false ∧ State.reset.isSafe = false ∧
    State.reset.flag Reg.sysState_loaded = false ∧ State.reset.fget Reg.sysSafeCause_val = 0 ∧
    State.reset.fget Reg.sysSafeActive_val = 0 ∧ State.reset.sys.now = 0 ∧ State.reset.fget Reg.sysId_device = 0x3464 ∧
    State.reset.fget Reg.sysId_family = 1 ∧ State.reset.pending = [] ∧ ∀ a, State.reset.byte a = 0

/-- An invariant that every step keeps, from every state that meets it: the memory and the register file are in canonical form
and the staging area of events holds no more than its 16,384 places (R342). Every step answers a next state. -/
def Obligations.StepKeepsSound : Prop :=
  ∀ (s : State), s.Sound → ∃ t, step s = .next t ∧ t.Sound

/-- No command touches the queue: exec of a command leaves the commands that wait as they were. -/
def Obligations.ExecKeepsQueue : Prop :=
  ∀ (c : Instr) (s : State), s.Sound → ∃ t, exec c s = .next t ∧ t.pending = s.pending

/-- Fuses outlive every reset and every command (R383): no command but FUSE_DONE changes one, and FUSE_DONE changes none when the
operation failed, when none burns, or while the device is held or its control island lost. -/
def Obligations.OnlyFuseDoneChangesFuses : Prop :=
  ∀ (c : Instr) (s : State), s.Sound →
    ∃ t, exec c s = .next t ∧
      ((∀ ok, c = .fuseDone ok → ok = false ∨ s.sec.burning = none ∨ s.cfg.held = true ∨ s.sys.ctlLost = true) →
        t.sec.fuses = s.sec.fuses)

/-- R8: an accepted write of a register that is no word of a multi-word value, no DMA channel's and neither SYS_SAFE_CAUSE nor
SHD_BANK, which have statements of their own, puts the written bits into every RW field (LMP_ZONE_z_CFG.EN outside jobs only,
R116), leaves every other register and the memory, and then acts as its block does (`State.effect`). SYS_TSYNC_CTRL holds the RW
fields EN and POL in bits 0 and 1 (R33); its write changes nothing else at all.
R9: a write to an unassigned address is discarded, and the whole state stays as it was. -/
def Obligations.RegisterWriteSetsRwFields : Prop :=
  ((∀ (s : State) (p : Path) (a v : Word) (d : RegDesc), s.Sound → findReg a.toNat = some d → d.writes = true →
     writeGroup a.toNat = none → chanAt a.toNat = none → a.toNat ≠ Reg.sysSafeCause → a.toNat ≠ Reg.shdBank →
     s.accepts p a.toNat v →
       exec (.registerWrite p a v) s = .next
         (let t := (s.stored a.toNat v).effect s p a.toNat v.toNat
          if claimRegs.contains a.toNat then t.reclaim else t) ∧
       s.regsKept (s.stored a.toNat v) [a.toNat] ∧ (s.stored a.toNat v).mem = s.mem ∧
       ∀ f ∈ d.flds, f.acc = .rw → (s.running = true → famIx Reg.lmpZoneCfg 64 a.toNat = none) →
         bitsAt ((s.stored a.toNat v).rget a.toNat).toNat f.lo f.w = bitsAt v.toNat f.lo f.w) ∧
   (∀ (s : State) (p : Path) (v : Word), s.accepts p Reg.sysTsyncCtrl v →
     exec (.registerWrite p (BitVec.ofNat 32 Reg.sysTsyncCtrl) v) s =
       .next (s.rput Reg.sysTsyncCtrl (BitVec.ofNat 32 (blend (s.rget Reg.sysTsyncCtrl).toNat 3 v.toNat))))) ∧
  (∀ (s : State) (p : Path) (a v : Word), findReg a.toNat = none → s.accepts p a.toNat v →
     exec (.registerWrite p a v) s = .next s)

/-- R349: a register write that a rule refuses changes no register but those of the event queue; it raises REG_REFUSED with
the reason, and CONFLICT as well for reason 4. Through the debug port it raises nothing (R401). The address is that of no
multi-word value. -/
def Obligations.RefusedWriteRaisesRegRefused : Prop :=
  ∀ (s : State) (p : Path) (a v : Word), s.reaches p → s.regReason p a.toNat v ≠ 0 → writeGroup a.toNat = none →
    exec (.registerWrite p a v) s = .next (s.regRefused p a.toNat v (s.regReason p a.toNat v)) ∧
    (p ≠ .dbg → s.Sound →
      s.regsKept (s.regRefused p a.toNat v (s.regReason p a.toNat v)) [Reg.evqStat, Reg.evqCntLost] ∧
      (s.regRefused p a.toNat v (s.regReason p a.toNat v)).mem = s.mem)

/-- R8: a read of an RC field answers its value and clears it. The row is shown at SYS_TSYNC_OVR.
R27: a read of word 0 answers the low word and latches the high word for its path alone; a read of word 1 answers what is
latched on its path. The row is shown at SYS_TIME. -/
def Obligations.RcReadAnswersAndClears : Prop :=
  (∀ (s : State) (p : Path), s.reaches p → s.viewOn p = false →
     exec (.rcRead p (BitVec.ofNat 32 Reg.sysTsyncOvr)) s =
       .next ((s.clearRc Reg.sysTsyncOvr).out (.value p Reg.sysTsyncOvr (s.rget Reg.sysTsyncOvr))) ∧
     (s.Sound → (s.clearRc Reg.sysTsyncOvr).rget Reg.sysTsyncOvr = 0 ∧ s.regsKept (s.clearRc Reg.sysTsyncOvr) [Reg.sysTsyncOvr])) ∧
  (∀ (s : State) (p : Path), s.reaches p → s.viewOn p = false →
     exec (.multiwordRead p (BitVec.ofNat 32 Reg.sysTime0)) s =
       .next ((s.latchAll p Reg.sysTime0 2).out (.value p Reg.sysTime0 (BitVec.ofNat 32 s.sys.now))) ∧
     exec (.multiwordRead p (BitVec.ofNat 32 Reg.sysTime1)) s =
       .next (s.out (.value p Reg.sysTime1 (tget (fun _ => 0) s.sys.latch (pathKey p Reg.sysTime1)))))

/-- R28: the low word of a writable multi-word value is held for its path and changes no register; the highest word makes the
whole value enter its shadow, with the held low word where the path holds one. The row is shown at PXE_DECKLE, whose fields
are RWS of class LB. -/
def Obligations.MultiwordWriteHeldUntilHighest : Prop :=
  ∀ (s : State) (p : Path) (v : Word),
    (s.accepts p Reg.pxeDeckle0 v →
      exec (.multiwordWrite p (BitVec.ofNat 32 Reg.pxeDeckle0) v) s =
        .next ((s.each (List.range 2) (fun k s => s.setHeld p (Reg.pxeDeckle0 + 4 * k) none)).setHeld p Reg.pxeDeckle0 (some v))) ∧
    (s.accepts p Reg.pxeDeckle1 v →
      exec (.multiwordWrite p (BitVec.ofNat 32 Reg.pxeDeckle1) v) s =
        .next (((s.setHeld p Reg.pxeDeckle0 none).stored Reg.pxeDeckle0 (BitVec.ofNat 32 (s.lowPart p Reg.pxeDeckle0))).stored
          Reg.pxeDeckle1 v))

/-- R12, R34: an island that was lost and acknowledges the heartbeat round has its bit in SYS_ISLAND_ALIVE set again.
R12: an island that is declared lost, by a missing heartbeat (kind 1) or by its clock (kind 2): its alive bit is cleared and
ISLAND_LOST is raised with the island and the kind. A segment's pixels are no data from then on, a central island means SAFE
with cause ISLAND, a host port island takes its port down.
R12: when the motion island declares the control island lost, the SAFE line acts on every output and the segment clocks
stop; no register answers any more. When it returns, cause ISLAND is latched, and ISLAND_LOST naming island 73 and SAFE_ENTER
follow; a rail or the reference clock that is then out of range is a cause as well (the model's choice, log entry 101). -/
def Obligations.HeartbeatBringsBackIslands : Prop :=
  (∀ (s : State) (ack : BitVec 76), s.Sound → s.controlled →
     ∃ t, exec (.heartbeatTick ack) s = .next t ∧ t.mem = s.mem ∧ t.sent = s.sent ∧
       ∀ i, i < 76 → t.alive i = (s.alive i || (bitAt ack.toNat i && s.beats i))) ∧
  (∀ (s : State) (i : Fin 76), s.controlled → s.beats i.val = true → s.alive i.val = true →
     ∀ (c : Instr) (k : Nat), (c = .islandHeartbeatTimeout i ∧ k = 1 ∨ c = .islandClockFault i ∧ k = 2) →
       (64 ≤ i.val → i.val < 73 →
         exec c s = .next (((s.setAlive i.val false).raise 0x0003 .fault i.val (pf 22 1 k)).enterSafe .island)) ∧
       (73 < i.val →
         exec c s = .next ((((s.setAlive i.val false).raise 0x0003 .fault i.val (pf 22 1 k)).linkDark (i.val - 74)).portDown
           (i.val - 74) 1 0)) ∧
       (i.val < 64 →
         ∃ t, exec c s = .next t ∧ t = s.islandLost i.val k ∧ s.islandLost i.val k =
           (let u := (s.setAlive i.val false).raise 0x0003 .fault i.val (pf 22 1 k)
            let u := if u.segEn i.val && u.segPresent i.val then u.fput (Reg.vfeSegStat_state i.val) 5 else u
            (({ u with vfe := { u.vfe with lostSeg := tput (fun _ => false) u.vfe.lostSeg i.val true } } : State).segGone
              i.val).groupDown i.val))) ∧
  (∀ (s : State), s.up →
     (∀ clock, s.sys.ctlLost = false →
       exec (.controlIslandLost clock) s =
         .next (({ s.setAlive 73 false with
           sys := { (s.setAlive 73 false).sys with ctlLost := true, ctlKind := if clock then 2 else 1 } } : State).safeOutputs.abandonPulses.trackSafe.stopClocks)) ∧
     (s.sys.ctlLost = true →
       ∃ t, exec .controlIslandReturn s = .next t ∧
         t = (let u := ((({ s with sys := { s.sys with ctlLost := false } } : State).setAlive 73 true).latchCause .island).raise
               0x0003 .fault 73 (pf 22 1 s.sys.ctlKind)
              let u := ((u.fput Reg.sysState_safe 1).safeEntry).levelCauses
              if u.causeGone .island then u.clearActive .island else u)))

/-- R17: the write of SYS_COMMIT_HOLD sets the hold bits; the count of lines under an LB hold starts anew when the LB bit changes and
goes on when it does not. HOLD_LONG is raised when an LB hold has lasted for more than 65,536 lines, with bits 2:0 of the register,
and the count goes on from there; with fewer lines nothing happens. R16: a boundary puts every pending shadow of its class, and
for MB of its axis, into force together, and none while the class is held; shadows that SAFE left over (R20) and every other
register stay. -/
def Obligations.CommitHold : Prop :=
  ∀ (s : State),
    (∀ p v, s.accepts p Reg.sysCommitHold v →
      exec (.commitHoldWrite p v) s = .next
        (let t := s.rput Reg.sysCommitHold (BitVec.ofNat 32 (blend (s.rget Reg.sysCommitHold).toNat 2047 v.toNat))
         if s.flag Reg.sysCommitHold_lb = t.flag Reg.sysCommitHold_lb then t
         else { t with sys := { t.sys with lbHoldLines := 0 } })) ∧
    (s.controlled → 65536 < s.sys.lbHoldLines →
      exec .holdLong s = .next (({ s with sys := { s.sys with lbHoldLines := s.sys.lbHoldLines - 65536 } } : State).raise 0x0004
        .warn 0 (pf 22 1 ((s.rget Reg.sysCommitHold).toNat % 8)))) ∧
    (s.controlled → s.sys.lbHoldLines ≤ 65536 → exec .holdLong s = .next s) ∧
    (∀ c x, s.holds c x = true → s.boundary c x = s) ∧
    (∀ c x, s.holds c x = false → s.Sound →
      (s.boundary c x).pend = s.pend.filter (fun p => !p.isOf c x) ∧ (s.boundary c x).mem = s.mem ∧
      (∀ a, (∀ p ∈ s.pend, p.isOf c x = true → p.addr ≠ a) → (s.boundary c x).rget a = s.rget a) ∧
      (∀ p ∈ s.pend, p.isOf c x = true →
        (s.pend.filter (fun q => q.isOf c x && q.addr == p.addr)).length = 1 →
          (s.boundary c x).rget p.addr = BitVec.ofNat 32 (blend (s.rget p.addr).toNat p.mask p.val)))

/-- R25: a write of 1 to REQ requests a snapshot and stores VIEW of the ring's path (R26); the snapshot that is taken records
the line of the LB, or all ones outside a job, sets DONE, ends the request and holds every RO field as it then read; SNAPSHOT
requests as well. A request through the two-wire target sets that path's VIEW, and leaves those of the others. -/
def Obligations.SnapshotRequestAndTake : Prop :=
  ∀ (s : State),
    (∀ v, s.accepts .ring Reg.sysSnapCtrl v → fld v.toNat Reg.sysSnapCtrl_req = 1 →
      ∃ t, exec (.snapRequest .ring v) s = .next t ∧ t.sys.snapPend = true ∧ t.mem = s.mem ∧
        t.regs = (s.rput Reg.sysSnapCtrl (BitVec.ofNat 32 (blend (s.rget Reg.sysSnapCtrl).toNat 4 v.toNat))).regs) ∧
    (s.Sound → s.controlled → s.sys.snapPend = true →
      ∃ t, exec .snapshotTake s = .next t ∧ t.sys.snapPend = false ∧ t.flag Reg.sysSnapCtrl_done = true ∧
        t.wget Reg.sysSnapLine0 = (if s.running then s.lastLb else 2 ^ 48 - 1) ∧
        ∀ a d, findReg a = some d →
          (tget resetWord t.sys.snap a).toNat &&& fieldMask d.flds (fun f => f.acc == .ro) =
            (s.inForce a).toNat &&& fieldMask d.flds (fun f => f.acc == .ro)) ∧
    (∀ v, s.accepts .twb Reg.sysSnapCtrl v → fld v.toNat Reg.sysSnapCtrl_req = 1 →
      ∃ t, exec (.snapRequest .twb v) s = .next t ∧ t.sys.snapPend = true ∧ t.mem = s.mem ∧
        t.viewOn .twb = (fld v.toNat Reg.sysSnapCtrl_view == 1) ∧ t.viewOn .ring = s.viewOn .ring ∧
        t.viewOn .dbg = s.viewOn .dbg) ∧
    (∀ e r, s.atHead 0x0C e r →
      exec (.snapshot e) s = .next ((s.popped r).snapshotCmd e).cmdNext ∧ ((s.popped r).snapshotCmd e).sys.snapPend = true)

/-- R30: with EN = 1 a rising edge on TSYNC (with POL = 1 a falling one) that is held for at least 20 ns latches device time into
SYS_TSYNC_TIME_0 and _1 and raises an INFO event that carries it; an edge less than 1 µs after the last accepted one is ignored
and counted in SYS_TSYNC_OVR. With EN = 0, at the other edge, or with a shorter level nothing happens. -/
def Obligations.TsyncEdge : Prop :=
  ∀ (s : State) (rising : Bool) (heldNs : Nat), s.Sound → s.controlled →
    (s.flag Reg.sysTsyncCtrl_en = true → (rising = !s.flag Reg.sysTsyncCtrl_pol) → 20 ≤ heldNs →
      ((∀ t, s.sys.tsyncLast = some t → t + 1000 ≤ s.sys.now) →
        ∃ u, exec (.tsyncEdge rising heldNs) s = .next (u.raise 0x0005 .info 0 (pf 24 8 s.sys.now)) ∧
          u = { s.wput Reg.sysTsyncTime0 s.sys.now with sys := { s.sys with tsyncLast := some s.sys.now } } ∧
          u.rget Reg.sysTsyncTime0 = BitVec.ofNat 32 s.sys.now ∧ u.rget Reg.sysTsyncTime1 = BitVec.ofNat 32 (s.sys.now / 2 ^ 32) ∧
          s.regsKept u [Reg.sysTsyncTime0, Reg.sysTsyncTime1]) ∧
      (∀ t, s.sys.tsyncLast = some t → s.sys.now < t + 1000 →
        exec (.tsyncEdge rising heldNs) s = .next (s.bump Reg.sysTsyncOvr_val 1) ∧
          (s.bump Reg.sysTsyncOvr_val 1).fget Reg.sysTsyncOvr_val = min (s.fget Reg.sysTsyncOvr_val + 1) (2 ^ 32 - 1))) ∧
    (s.flag Reg.sysTsyncCtrl_en = false ∨ rising = s.flag Reg.sysTsyncCtrl_pol ∨ heldNs < 20 →
      exec (.tsyncEdge rising heldNs) s = .next s)

/-- R35: a low level on SAFE_N that external equipment drives is cause EXT while the device itself does not drive the pin; while it
does, the level alone is recorded and no cause arises from it (this second clause is the model's choice, log entry 24). -/
def Obligations.ExternalSafe : Prop :=
  ∀ (s : State), s.controlled →
    (s.sys.safeNLow = false →
      exec .safeNLow s = .next (({ s with sys := { s.sys with extLow := true } } : State).enterSafe .ext)) ∧
    (s.sys.safeNLow = true → exec .safeNLow s = .next { s with sys := { s.sys with extLow := true } })

/-- R34, R416: the conditions of the SAFE causes. Each sets its cause by the shared entry into SAFE, with what the device keeps
of the condition.
R33, R34: SYS_SAFE_FORCE takes the key 0x5AFE0001 and enters SAFE with cause FORCE; another value does nothing.
R34: the conditions of the causes end. The active bit is cleared; the latched bit stays until SAFE_CLEAR. -/
def Obligations.SafeCausesArise : Prop :=
  (∀ (s : State), s.controlled →
     exec .refclkFault s = .next (({ s with sys := { s.sys with refOut := true, refBack := none } } : State).enterSafe .clock) ∧
     (∀ r low, exec (.supplyFault r low) s = .next (({ s with
       sys := { s.sys with
         railsOut := if s.sys.railsOut.contains r then s.sys.railsOut else s.sys.railsOut ++ [r], railsBack := none
         railsLow := if low = true ∧ r ∉ s.sys.railsLow then s.sys.railsLow ++ [r] else s.sys.railsLow } } : State).enterSafe
           .supply)) ∧
     exec .thermFault s = .next (({ s with sys := { s.sys with hot := true } } : State).enterSafe .therm) ∧
     (s.running = true → s.portUp 0 = false → s.portUp 1 = false → exec .portsDownTimeout s = .next (s.enterSafe .ports)) ∧
     exec .motionParityError s = .next (s.enterSafe .motion) ∧
     (s.lampOn = true → exec .lampbusTimeout s = .next (s.enterSafe .lampbus))) ∧
  (∀ (s : State) (p : Path) (v : Word), s.accepts p Reg.sysSafeForce v →
     exec (.safeForce p v) s = .next (if v = 0x5AFE0001 then s.enterSafe .force else s)) ∧
  (∀ (s : State), s.Sound → s.controlled →
     (∃ t, exec .safeNRelease s = .next t ∧ t.sys.extLow = false ∧ t.active .ext = false ∧ s.regsKept t [Reg.sysSafeActive] ∧
       t.mem = s.mem) ∧
     (s.sys.refOut = true → ∃ t, exec .refclkRestored s = .next t ∧ t.sys.refOut = false ∧ t.sys.refBack = some s.sys.now ∧
       t.active .clock = false ∧ s.regsKept t [Reg.sysSafeActive] ∧ t.mem = s.mem) ∧
     (∀ r, s.sys.railsOut = [r] → ∃ t, exec (.supplyRestored r) s = .next t ∧ t.sys.railsOut = [] ∧
       t.sys.railsBack = some s.sys.now ∧ t.active .supply = false ∧ s.regsKept t [Reg.sysSafeActive] ∧ t.mem = s.mem) ∧
     (∃ t, exec .thermClear s = .next t ∧ t.sys.hot = false ∧ t.active .therm = false ∧ s.regsKept t [Reg.sysSafeActive] ∧
       t.mem = s.mem))

/-- R34 to R36: what an entry into SAFE leaves at once, whichever the cause: the device is in SAFE, the cause is latched and
present, SAFE_N and FAULT_N are driven low, no job runs. -/
def Obligations.EnterSafeLeaves : Prop :=
  ∀ (s : State) (c : Cause), s.Sound → s.isSafe = false →
    (s.enterSafe c).isSafe = true ∧ bitAt ((s.enterSafe c).fget Reg.sysSafeCause_val) c.bit = true ∧
      (s.enterSafe c).active c = true ∧ (s.enterSafe c).sys.safeNLow = true ∧ (s.enterSafe c).sys.faultNLow = true ∧
      (s.enterSafe c).running = false

/-- R39: SAFE_CLEAR in SAFE releases SAFE_N and holds the ring for its wait; outside SAFE it is done at once. The re-evaluation
clears the latched bits of the causes whose condition is gone; with none left the device leaves SAFE and the command is done,
else SAFE_N is driven low again and the command is refused with the bits that remain. A W1C write of SYS_SAFE_CAUSE clears in
the same way and cannot leave SAFE.
R36, R114: in SAFE the broadcast ALL_OFF is repeated on each lamp bus: at once on a free bus, else as its next frame. -/
def Obligations.SafeClearSequence : Prop :=
  (∀ (s : State),
     (∀ e r, s.atHead 0x0D e r →
       exec (.safeClear e) s = .next (if s.isSafe
         then ({ s.popped r with sys := { s.sys with safeNLow := false, safeClear := some e } } : State).cmdNext
         else ((s.popped r).cmdFinish 13 e 0).cmdNext)) ∧
     (∀ e, s.controlled → s.sys.safeClear = some e → s.sys.extLow = false →
       ∃ t, exec .safeClearEval s = .next t ∧
         t = (let u := (((({ s with sys := { s.sys with safeClear := none } } : State).clearActive .force).clearActive
               .motion).clearCauses (2 ^ 12 - 1))
              if u.fget Reg.sysSafeCause_val = 0 then (u.leaveSafe.cmdFinish 13 e 0).cmdNext
              else (({ u with sys := { u.sys with safeNLow := true } } : State).cmdRefuse 13 e 6
                (pf 24 4 (u.fget Reg.sysSafeCause_val))).cmdNext)) ∧
     (∀ p v, s.Sound → s.accepts p Reg.sysSafeCause v →
       exec (.safeCauseClear p v) s = .next (s.clearCauses v.toNat) ∧ (s.clearCauses v.toNat).isSafe = s.isSafe ∧
         s.regsKept (s.clearCauses v.toNat) [Reg.sysSafeCause, Reg.sysSafeActive])) ∧
  (∀ (s : State), s.up → s.isSafe = true →
     exec .safeAllOffRepeat s = .next ((s.each (List.range 2) (fun b s =>
       if (s.lbus b).cur.isSome then s.setLbus b { s.lbus b with allOffDue := (s.lbus b).allOffDue + 1 } else s.allOffOn b)).allOffDone))

/-- R239, R241: a line by position starts when the feed has passed the line's position (and lines are not clocked by an edge): with
no line held and none in progress it starts at once, and LINE is counted on. A line in progress makes it the held line, and a
held one an overrun.
R241: a held line starts once the last phase of the line in progress has begun, or, with none in progress, once readouts and
flush phases have ended. -/
def Obligations.LineStart : Prop :=
  (∀ (s : State) (n : Nat), s.controlled → s.triggerLine = some (n, false) → s.linesByEdge = false →
     s.linePos n * 2 ^ 32 < s.mot.f →
       (let feed := if s.feedQei.isSome || s.mot.jump then s.feedNm else s.linePos n
        let u : State := { s with seq := { s.seq with next := n + 1 } }
        (s.seq.held = none → u.lineBusy = false → exec .lineStart s = .next (u.startLine n feed)) ∧
        (s.seq.held = none → u.lineBusy = true →
          exec .lineStart s = .next { u with seq := { u.seq with held := some (n, s.sys.now, feed) } }) ∧
        (s.seq.held ≠ none → exec .lineStart s = .next (u.lineOverrun n feed)))) ∧
  (∀ (s : State) (num trig : Nat) (feed : Int), s.controlled → s.seq.held = some (num, trig, feed) → s.seq.waitFlush = false →
     s.vfe.flush = 0 → (s.seq.cur ≠ none → s.seq.phases ≤ s.seq.started) → (s.seq.cur = none → s.vfe.reads = []) →
       exec .heldLineRelease s = .next (s.startLine num feed))

/-- R42, R93, R95, R106, R434: a phase of the line in progress starts with a start pulse, which begins the readout of the charge
before it; its strobes, where it has any, rise later and fall one by one. The closing start pulse ends the line, and the next
one waits for one phase period.
R41, R42, R45: a readout that ends leaves the segment's queue of readouts, and shows the loop currents; idle and flush charge
is discarded. A line's charge is checked by the slices that the pulse had (R75, R79), and a colour phase reaches staging; a
calibration's goes to its accumulators (R158). In staging each tap's clamp is updated (R120); a free unit takes the samples and
descriptors, and the four tap blocks are offered to their queue (R134); without a free unit the line is dropped (R118). The flush
phases start the clocks, drop every readout and let captured lines start. -/
def Obligations.PhasesAndStrobes : Prop :=
  (∀ (s : State), s.controlled →
     (∀ num, s.seq.cur = some num → s.seq.started < s.seq.phases →
       exec .phaseStart s = .next
         (let u := (s.handOverSegs true).startPulse (.line num s.seq.started)
          let u : State := { u with seq := { u.seq with started := s.seq.started + 1 } }
          let u := u.diagArm (num % overlapBase) s.seq.started
          { u with lmp := { u.lmp with
            rise := if u.risers s.seq.started = [] then none else some s.seq.started } })) ∧
     (∀ num, s.seq.cur = some num → s.seq.phases ≤ s.seq.started → s.seq.held = none → s.isSafe = false → s.vfe.stopping = false →
       exec .closingStartPulse s = .next
         (let u := (s.handOverSegs false).startPulse .idle
          let u : State := { u with seq := { u.seq with cur := none, closing := u.sys.now + 10 * u.seq.period } }
          if u.running then u else u.stopClocks)) ∧
     (∀ k, s.lmp.rise = some k →
       exec .strobeRise s = .next { s with
         lmp := { s.lmp with
           rise := none
           strobe := (s.risers k).foldl (fun t c => tput (fun _ => false) t c true) s.lmp.strobe
           diagMask := if s.colour k = 5 then 0 else s.lmp.diagMask } }) ∧
     (∀ c, exec (.strobeFall c) s = .next { s with
       lmp := { s.lmp with strobe := tput (fun _ => false) s.lmp.strobe c.val false } }) ∧
     (s.lmp.offArmed = true → s.lmp.strobe = [] → s.lmp.rise = none →
       exec .lampEnOff s = .next (({ s with lmp := { s.lmp with offArmed := false } } : State).fput Reg.lmpStat_lamp_en 0))) ∧
  (∀ (s : State),
     (∀ (seg : Fin 64) r, s.up → tget (fun _ => []) s.vfe.reads seg.val = [] → exec (.readoutComplete seg r) s = .next s) ∧
     (∀ (seg : Fin 64) r p rest, s.up → tget (fun _ => []) s.vfe.reads seg.val = p :: rest →
       let u : State := { s with vfe := { s.vfe with
         reads := tput (fun _ => []) s.vfe.reads seg.val rest
         pulse := if rest = [] then tput (fun _ => 0) s.vfe.pulse seg.val 0 else s.vfe.pulse } }
       let u := u.showLoops seg.val (r.taps.map (·.loopUa))
       let ended (u : State) : State := State.readEnded { u with vfe := { u.vfe with
         cutAt := (List.range 4).foldl (fun t i => tput (fun _ => none) t (4 * seg.val + i) none) u.vfe.cutAt } }
       (p.charge = .idle ∨ p.charge = .flush → exec (.readoutComplete seg r) s = .next (ended u)) ∧
       (∀ n k, p.charge = .line n k →
         let x := u.readTaps seg.val k (n % overlapBase) p.slices r.taps
         exec (.readoutComplete seg r) s = .next (ended
           (if k < x.2.colourPhases then x.2.stageReadout seg.val n k x.1 else x.2))) ∧
       (∀ n k, p.charge = .cal n k →
         let x := u.readTaps seg.val k lineNone p.slices r.taps
         exec (.readoutComplete seg r) s = .next (ended
           (if k < x.2.colourPhases then x.2.calReadout seg.val n k x.1 else x.2)))) ∧
     (∀ (seg : Fin 64) (t : Fin 4) (k m : Nat),
       let a := s.pxe.clampA
       let acc := tget (fun _ => none) s.pxe.acc (16 * seg.val + 4 * t.val + k)
       let c16 (acc : Option Int) : Int := match acc with
         | none => 0
         | some x => (x + (2 ^ a : Nat)).fdiv (2 ^ (a + 1) : Nat)
       (s.clampUpdate seg.val t.val k none).1 = c16 acc ∧
       (acc = none → (s.clampUpdate seg.val t.val k (some m)).1 = c16 (some (m * 2 ^ a : Nat))) ∧
       (∀ x, acc = some x → (s.clampUpdate seg.val t.val k (some m)).1 = c16 (some (x + m - x.fdiv (2 ^ a : Nat))))) ∧
     (∀ (seg : Fin 64) n k taps q, s.pline n = some q →
       let c0 := s.clampUpdate seg.val 0 k (taps.getD 0 TapStage.none).sum
       let c1 := c0.2.clampUpdate seg.val 1 k (taps.getD 1 TapStage.none).sum
       let c2 := c1.2.clampUpdate seg.val 2 k (taps.getD 2 TapStage.none).sum
       let c3 := c2.2.clampUpdate seg.val 3 k (taps.getD 3 TapStage.none).sum
       (c3.2.freeUnit = none → s.stageReadout seg.val n k taps = c3.2.dropLine n 1) ∧
       (∀ m, c3.2.freeUnit = some m → (∃ t ∈ List.range 4, (k, BlkKind.tap seg.val t) ∈ q.left) →
         s.stageReadout seg.val n k taps =
           (let u := c3.2.store (unitAddr m) (taps.flatMap (fun x => x.y.flatMap (leBytes 2)))
            let u := u.store (unitDesc m) (taps.flatMap (fun x => x.desc.flatMap (leBytes 4)))
            let u : State := { u with pxe := { u.pxe with unit := tput (fun _ => none) u.pxe.unit m (some
              { seg := seg.val, line := n, phase := k
                left := (List.range 4).filter (fun t => q.left.contains (k, .tap seg.val t))
                clamp := [c0.1, c1.1, c2.1, c3.1], nodata := taps.flatMap (fun x => x.nodata) }) } }
            let u := u.setPline { q with
              due := q.due.filter (fun d => d != (k, seg.val)), suspect := q.suspect || taps.any (fun x => x.suspect)
              lastStaged := if k + 1 = q.cfg.c then some u.sys.now else q.lastStaged }
            (((u.offer n k (.tap seg.val 0)).offer n k (.tap seg.val 1)).offer n k (.tap seg.val 2)).offer n k
              (.tap seg.val 3)))) ∧
     (s.controlled → s.vfe.flush ≠ 0 → s.lmp.delivering = false → s.isSafe = false → s.vfe.toVolt = [] →
       exec .flushPhases s = .next
         (let u := (s.handOverSegs true).handOverSegs true
          State.calFlushed { u with
            vfe := { u.vfe with flush := 0, clocks := true, stopping := false, charge := .flush, reads := [] }
            seq := { u.seq with waitFlush := false } })))

/-- R50, R51, R63: TRAIN starts a training of the enabled segments, TRAIN_DONE ends it by what the taps showed; bring-up identifies
the segments and starts a training where one is present. -/
def Obligations.TrainingRuns : Prop :=
  ∀ (s : State),
    (∀ p v, s.accepts p Reg.vfeCtrl v → fld v.toNat Reg.vfeCtrl_train = 1 →
      exec (.trainStart p v) s = .next ((s.stored Reg.vfeCtrl v).trainBegin)) ∧
    (∀ taps, s.controlled → s.flag Reg.vfeStat_busy = true →
      exec (.trainDone taps) s = .next
        (if (s.trainEnd taps).flag Reg.cfgStat_ready then s.trainEnd taps
         else { s.trainEnd taps with cfg := { (s.trainEnd taps).cfg with segsDone := true } })) ∧
    (∀ bs, s.controlled → s.bringDue = true →
      exec (.segmentBringup bs) s = .next
        (let u := (s.fput Reg.vfeVrefCtrl_en 15).fput Reg.cfgStat_step 9
         let u := u.each u.enabledSegs (fun k s => s.bringId k (bringOf bs k))
         let u := bs.foldl State.bringCables (u.bringRegs bs)
         if u.enabledSegs.any u.segPresent then u.trainBegin else { u with cfg := { u.cfg with segsDone := true } }))

/-- R53 to R57: a leg outside its window breaks a tap not yet broken of an enabled, present segment whose island lives, and the
segment's fallback becomes due. The switch of a due segment to voltage mode begins before capture starts or while the couch
stands, with the clock, the receivers' reference and the MODE write with VM and the alternating pattern; once that write is
acknowledged, the segment is in voltage mode, SEG_FALLBACK is raised and the due fallback ends. -/
def Obligations.LoopBrokenAndFallback : Prop :=
  ∀ (s : State), s.controlled →
    (∀ (k : Fin 64) (t : Fin 4) leg ua sample, s.segEn k.val = true → s.segPresent k.val = true → s.alive k.val = true →
      s.loopOutside k.val ua = true →
      (if s.inVolt k.val then tget (fun _ => false) s.vfe.vbad (4 * k.val + t.val) = false
        else s.fget (Reg.vfeTapTrain_result k.val t.val) ≠ 3) →
        exec (.loopBroken k t leg ua sample) s = .next ((s.markBroken k.val t.val leg ua sample).fallbackDue k.val)) ∧
    (∀ (k : Fin 64) ok0 ok1 ok2 ok3 loop, s.vfe.toVolt.contains k.val = true → s.switching k.val = none → s.seq.cur = none →
      (s.mot.couch = none ∧ s.seq.waitFlush = true ∨
        s.mot.couch ≠ none ∧ 3 ≤ s.couchStep ∧ s.couchStep ≤ 5 ∧ tget (fun _ => []) s.vfe.reads k.val = []) →
        exec (.voltageModeSwitch k ok0 ok1 ok2 ok3 loop) s = .next
          (let u := (s.voltClock k.val).fput (Reg.vfeSegStat_state k.val) 4
           let u := u.fput Reg.vfeVrefCtrl_en (putBit (u.fget Reg.vfeVrefCtrl_en) (k.val / 16) true)
           let u : State := { u with vfe := { u.vfe with
             switch := tput (fun _ => none) u.vfe.switch k.val (some [ok0, ok1, ok2, ok3])
             switchLoop := tput (fun _ => []) u.vfe.switchLoop k.val loop } }
           u.segMode k.val 1 u.binned true)) ∧
    (∀ (k : Fin 64) ok, s.switching k.val = some ok → s.segPresent k.val = true →
      (∀ f, (tget (fun _ => ScbBus.init) s.vfe.scb (k.val / 16)).cur = some f ∨
          f ∈ (tget (fun _ => ScbBus.init) s.vfe.scb (k.val / 16)).queue → f.forSwitch = false ∨ f.addr ≠ k.val % 16) →
        s.switchCheck k.val =
          (let u := (s.fput (Reg.vfeSegStat_state k.val) 3).fput (Reg.vfeSegStat_fallback k.val) 1
           let u := u.each (List.range 4) (fun t u => u.voltRx k.val t)
           let u := u.showLoops k.val (tget (fun _ => []) u.vfe.switchLoop k.val)
           let u := u.segMode k.val 0 u.binned true
           let bad := (List.range 4).foldl (fun t i =>
             tput (fun _ => false) t (4 * k.val + i) (!ok.getD i false)) u.vfe.vbad
           let u : State := State.fallbackPeriod { u with vfe := { u.vfe with
             vbad := bad, toVolt := u.vfe.toVolt.filter (· != k.val)
             switch := tput (fun _ => none) u.vfe.switch k.val none
             switchLoop := tput (fun _ => []) u.vfe.switchLoop k.val [] } }
           u.raise 0x5007 .info k.val (pf 24 4 u.seq.period)))

/-- R62: a host write of VFE_SCB_b_CMD with GO = 1 puts the frame on its bus, one with GO = 0 sends none. R60: the reply to the
frame in progress shows in ST and TRIES. ACK, with a good check where the frame reads, ends it with DATA for a read; 0b0110 ends it
in error with a WARN event; BUSY makes it wait, at most 100 times; any other reply repeats it, at most 3 times. Repeats or BUSY
replies exhausted, the frame ends in error with SCB_FAIL and a FAULT event, and the segment counts as absent. When the BUSY wait of
10 µs ends the frame is sent again; with no frame waiting nothing is sent. What follows for a segment absent or being
switched is the operation `scbSettle`. That 0b0110 on a frame of a switch to voltage mode makes the segment absent is the model's
choice (log entry 79). -/
def Obligations.SegmentControlFrames : Prop :=
  ∀ (s : State) (b : Fin 4),
    let bus := tget (fun _ => ScbBus.init) s.vfe.scb b.val
    (∀ p v, s.accepts p (Reg.vfeScbCmd b.val) v →
      exec (.scbHostFrame p b v) s = .next (if fld v.toNat (Reg.vfeScbCmd_go b.val) = 1
        then (s.stored (Reg.vfeScbCmd b.val) v).scbStart b.val
          { addr := fld v.toNat (Reg.vfeScbCmd_addr b.val), rd := fld v.toNat (Reg.vfeScbCmd_rd b.val) == 1
            reg := fld v.toNat (Reg.vfeScbCmd_reg b.val), data := fld v.toNat (Reg.vfeScbCmd_data b.val), host := true }
        else s.stored (Reg.vfeScbCmd b.val) v)) ∧
    (s.controlled → (∀ f, bus.cur = some f → bus.waiting = true → exec (.scbBusyRetry b) s = .next (s.scbStart b.val f)) ∧
      (bus.cur = none ∨ bus.waiting = false → exec (.scbBusyRetry b) s = .next s)) ∧
    (∀ status data check, s.controlled → bus.cur = none ∨ bus.waiting = true →
      exec (.scbReply b status data check) s = .next (s.scbSettle s)) ∧
    (∀ f (status : BitVec 4) (data : BitVec 16) (check : BitVec 8), s.controlled → bus.cur = some f → bus.waiting = false →
      let good := crc8 (bitsMsb 4 status.toNat ++ bitsMsb 16 data.toNat) == check.toNat
      let u := (s.fput (Reg.vfeScbStat_st b.val) status.toNat).fput (Reg.vfeScbStat_tries b.val) bus.repeats
      let fails : State := (u.fput (Reg.vfeSegStat_scb_fail (16 * b.val + f.addr)) 1).raise 0x5005 .fault (16 * b.val + f.addr)
        (pf 22 1 f.reg + pf 23 1 status.toNat)
      (status = 10 → f.rd = false ∨ good = true → exec (.scbReply b status data check) s = .next (s.scbSettle
        ((if f.rd then u.fput (Reg.vfeScbData_data b.val) data.toNat else u).scbEnd b.val f false bus.queue))) ∧
      (status = 6 → (f.forSwitch = false ∨ s.switching (16 * b.val + f.addr) = none) →
        exec (.scbReply b status data check) s = .next (s.scbSettle
          ((u.raise 0x5006 .warn (16 * b.val + f.addr) (pf 22 1 f.reg + pf 23 1 6)).scbEnd b.val f true bus.queue))) ∧
      (status = 6 → f.forSwitch = true → s.switching (16 * b.val + f.addr) ≠ none →
        exec (.scbReply b status data check) s = .next (s.scbSettle
          (((u.raise 0x5006 .warn (16 * b.val + f.addr) (pf 22 1 f.reg + pf 23 1 6)).segAbsent (16 * b.val + f.addr)).scbEnd
            b.val f true bus.queue))) ∧
      (status = 3 → bus.busies < 100 → exec (.scbReply b status data check) s = .next (s.scbSettle { u with
        vfe := { u.vfe with
          scb := tput (fun _ => ScbBus.init) u.vfe.scb b.val { bus with busies := bus.busies + 1, waiting := true } } })) ∧
      ((status ≠ 10 ∧ status ≠ 6 ∧ status ≠ 3) ∨ (status = 10 ∧ f.rd = true ∧ good = false) → bus.repeats < 3 →
        exec (.scbReply b status data check) s = .next (s.scbSettle
          ((({ u with vfe := { u.vfe with
              scb := tput (fun _ => ScbBus.init) u.vfe.scb b.val { bus with repeats := bus.repeats + 1 } } } : State).fput
            (Reg.vfeScbStat_tries b.val) (bus.repeats + 1)).scbStart b.val f))) ∧
      ((status = 3 ∧ 100 ≤ bus.busies) ∨ (((status ≠ 10 ∧ status ≠ 6 ∧ status ≠ 3) ∨
          (status = 10 ∧ f.rd = true ∧ good = false)) ∧ 3 ≤ bus.repeats) →
        exec (.scbReply b status data check) s = .next (s.scbSettle
          ((fails.segAbsent (16 * b.val + f.addr)).scbEnd b.val f true bus.queue))))

/-- R70 to R78, R85 to R87: a slice calibration that ends is accepted when no check fails, else rejected; a group whose segment clocks
stand takes its hand-over points by time; RETEST, PARK and FREEZE are fields of the control registers, and RETEST restarts the
counts of the faulty slices that are off line. -/
def Obligations.ConverterGroups : Prop :=
  ∀ (s : State),
    (∀ (n : Fin 579) m, s.up → s.calibrating (groupOf n.val) (localOf n.val) = true →
      exec (.sliceCalDone n m) s = .next
        (let r := calCompute m (s.fgetI (Reg.adcSliceSkew_skew n.val))
         let G := s.grp (groupOf n.val)
         let mask := s.calChecks n.val r (!(G.startup.contains (localOf n.val) || G.retest.contains (localOf n.val)))
         if mask = 0 then s.calAccept (groupOf n.val) (localOf n.val) r
         else s.calReject (groupOf n.val) (localOf n.val) r mask)) ∧
    (∀ (g : Fin 65), s.up → g.val < 64 → s.vfe.clocks = false →
      exec (.rotationStepIdle g) s = .next (s.handOver g.val true)) ∧
    (∀ p (g : Fin 65) v, s.accepts p (Reg.adcGrpCtrl g.val) v →
      exec (.groupRetest p g v) s = .next (if fld v.toNat (Reg.adcGrpCtrl_retest g.val) = 1
        then (s.stored (Reg.adcGrpCtrl g.val) v).retest g.val else s.stored (Reg.adcGrpCtrl g.val) v) ∧
      exec (.groupPark p g v) s = exec (.groupRetest p g v) s) ∧
    (∀ p v, s.accepts p Reg.adcCtrl v →
      exec (.adcFreeze p v) s = .next (s.stored Reg.adcCtrl v))

/-- R114: a free bus that is not off starts its next transaction by priority: an ALL_OFF that is due, a repeat that may go (a DOWN bus
repeats only while the other is not UP, R113), the CONFIG of the lowest-numbered zone that waits for one, outside exposure windows
(R112), values and then report-only XCHGs in round-robin order, and with nothing of these to send, outside a delivery, PING,
GET_DIAG and CLEAR; a bus that is DOWN carries pings only. That a delivery holds back the repeats of other frames, and that the
lowest-numbered zone's CONFIG goes before all values, are the model's choices (log entry 57). -/
def Obligations.LampBusTransactions : Prop :=
  ∀ (s : State) (b : Fin 2), s.up → (s.lbus b).cur = none → s.fget (Reg.lmpBusStat_state b) ≠ 0 →
    (0 < (s.lbus b).allOffDue → exec (.lampBusTransaction b) s = .next ((s.lbBroadcast b .allOff).setLbus b
      { s.lbus b with allOffDue := (s.lbus b).allOffDue - 1 })) ∧
    (∀ q r, (s.lbus b).allOffDue = 0 → (s.lbus b).retry = q :: r → (s.busUp b = true ∨ s.busUp (1 - b.val) = false) →
      s.lbMay q.op = true → exec (.lampBusTransaction b) s =
      .next ((s.setLbus b { s.lbus b with retry := r }).lbStart b q)) ∧
    ((s.lbus b).allOffDue = 0 → (s.lbus b).retry = [] → s.busUp b = true →
      (∀ z : Nat, z < 64 → s.lbMay .config = true → s.serves b z = true → (s.zone z).configDue = true →
        (∀ y < z, ¬ (s.serves b y = true ∧ (s.zone y).configDue = true)) →
          exec (.lampBusTransaction b) s =
            .next ((s.setZone z { s.zone z with configDue := false }).lbStart b (.plain .config z))) ∧
      (∀ z, (s.lbMay .config = false ∨ ∀ y < 64, (s.zone y).configDue = false) → s.valuesMay = true →
        roundRobin (s.lbus b).rrValue (fun z => s.serves b z && s.zoneState z == 1 && (s.zone z).need) = some z →
          exec (.lampBusTransaction b) s = .next
            (let u := (s.setLbus b { s.lbus b with rrValue := (z + 1) % 64 }).setZone z { s.zone z with need := false }
             let u := u.each (List.range 4) (fun c u => u.setStr z c { u.str z c with sent := (u.str z c).want })
             u.lbStart b { op := .value, zone := some z, vals := (List.range 4).map (fun c => (u.str z c).sent) })) ∧
      (∀ z, (s.lbMay .config = false ∨ ∀ y < 64, (s.zone y).configDue = false) →
        (s.valuesMay = false ∨ ∀ y < 64, (s.zone y).need = false) → s.reporting = true →
        roundRobin (s.lbus b).rrReport (fun z => s.serves b z && s.zoneState z == 1) = some z →
          exec (.lampBusTransaction b) s =
            .next ((s.setLbus b { s.lbus b with rrReport := (z + 1) % 64 }).lbStart b (.plain .report z)))) ∧
    ((s.lbus b).allOffDue = 0 → (s.lbus b).retry = [] → s.lbRegular b = none → s.lmp.delivering = false →
      (∀ z r, (s.lbus b).pingDue = z :: r →
        exec (.lampBusTransaction b) s = .next ((s.setLbus b { s.lbus b with pingDue := r }).lbStart b (.plain .ping z))) ∧
      (s.busUp b = true → (s.lbus b).pingDue = [] → ∀ z : Nat, z < 64 → s.serves b z = true →
        (s.zoneState z = 1 → (s.zone z).diagDue = true →
          (∀ y < z, ¬ (s.serves b y = true ∧ s.zoneState y = 1 ∧ (s.zone y).diagDue = true)) →
            exec (.lampBusTransaction b) s =
              .next ((s.setZone z { s.zone z with diagDue := false }).lbStart b (.plain .getDiag z))) ∧
        ((s.zone z).clearDue ≠ 0 → (∀ y < z, ¬ (s.serves b y = true ∧ (s.zone y).clearDue ≠ 0)) →
          (∀ y < 64, (s.zone y).diagDue = false) →
            exec (.lampBusTransaction b) s = .next ((s.setZone z { s.zone z with clearDue := 0 }).lbStart b
              (.plain (.clear (s.zone z).clearDue) z))))) ∧
    (∀ z r, (s.lbus b).allOffDue = 0 → (s.lbus b).retry = [] → s.busUp b = false → s.lmp.delivering = false →
      (s.lbus b).pingDue = z :: r →
        exec (.lampBusTransaction b) s = .next ((s.setLbus b { s.lbus b with pingDue := r }).lbStart b (.plain .ping z)))

/-- R110, R111, R113: no reply, a reply with a wrong CRC, and one whose STATUS has LEN_ERR or OP_ERR are failed attempts; the first two
are counted. A good reply is a success, its STATUS is taken, and values bring the tint reports, make a COMMIT due and, where they
are not those last sent to the zone, a new delivery. That the reports are taken before the STATUS of the same reply is the model's
choice (log entry 55). -/
def Obligations.LampReplies : Prop :=
  ∀ (s : State) (b : Fin 2) (q : LbReq), s.up → (s.lbus b).cur = some q →
    (exec (.lampNoReply b) s = .next (((s.bump (Reg.lmpBusErr_noreply b) 1).lbFail b q).deliveryCheck)) ∧
    (∀ fr, leAt fr (3 + leAt fr 2 1) 2 ≠ crc16 (fr.take (3 + leAt fr 2 1)) →
      exec (.lampReply b fr) s = .next (((s.bump (Reg.lmpBusErr_badcrc b) 1).lbFail b q).deliveryCheck)) ∧
    (∀ fr, fr.length = 5 + leAt fr 2 1 → leAt fr (3 + leAt fr 2 1) 2 = crc16 (fr.take (3 + leAt fr 2 1)) →
      leAt fr 0 1 = 0x80 + q.zone.getD 0 → leAt fr 1 1 = q.op.code →
      ((bitAt (leAt fr 3 2) 12 = true ∨ bitAt (leAt fr 3 2) 11 = true) →
        exec (.lampReply b fr) s = .next ((s.lbFail b q).deliveryCheck)) ∧
      (bitAt (leAt fr 3 2) 12 = false → bitAt (leAt fr 3 2) 11 = false →
        let z := q.zone.getD 0
        let u := s.lbSuccess b z
        let tints (u : State) : State := u.each (List.range 4) (fun c u =>
          u.tintUpdate z c (leAt fr (5 + 3 * c) 2) (leAt fr (7 + 3 * c) 1))
        let ends (u : State) : State := (u.lbStatus z (leAt fr 3 2)).deliveryCheck
        (q.op = .ping ∨ q.op = .config ∨ (∃ m, q.op = .clear m) → exec (.lampReply b fr) s = .next (ends u)) ∧
        (q.op = .value → exec (.lampReply b fr) s = .next
          (let v := ({ u with lmp := { u.lmp with commitDue := true } } : State).each (List.range 4) (fun c u =>
             u.setStr z c { u.str z c with deliv := q.vals.getD c .init })
           ends (tints (v.setZone z { v.zone z with
             need := (v.zone z).need || (List.range 4).any (fun c => (u.str z c).sent != q.vals.getD c .init) })))) ∧
        (q.op = .report → exec (.lampReply b fr) s = .next (ends (tints u))) ∧
        (q.op = .getDiag → exec (.lampReply b fr) s = .next (ends (u.lampMap z (leAt fr 5 8))))))

/-- R99, R113: a NO_REPLY zone is pinged on every bus that is up, a DOWN bus pings its lowest-numbered answering zone (the choice of
zone is the model's), and the broadcast slot of a line that is no overlap line sends a COMMIT that is due, once delivery is over and the
buses are free, unless it would change nothing.
R100, R105, R113, R114, R116: ALL_OFF is sent on the enabled buses, RESETF sets every F to 1, which is no longer at a limit, PING asks an enabled zone for a
GET_DIAG and a ping, CLEAR asks it for a CLEAR of the strings named. -/
def Obligations.LampTimersAndSlot : Prop :=
  (∀ (s : State), s.up →
     (∀ z : Fin 64, s.zoneState z = 2 →
       exec (.zonePingTimer z) s = .next (s.each ((List.range 2).filter s.busUp) (fun b s => s.pingOn z b))) ∧
     (∀ (b : Fin 2) (z : Nat), s.fget (Reg.lmpBusStat_state b) = 2 → z < 64 → s.zoneEn z = true → s.zoneState z = 1 →
       (∀ y < z, ¬ (s.zoneEn y = true ∧ s.zoneState y = 1)) → exec (.busPingTimer b) s = .next (s.pingOn z b)) ∧
     (∀ n, s.seq.cur = some n → isOverlap n = false → s.seq.started = s.colourPhases → s.lmp.rise = none → s.lmp.commitDue = true →
       s.lmp.delivering = false → (∀ b < 2, s.busUp b = true → (s.lbus b).cur = none) →
         exec .lampCommitSlot s = .next (if s.commitChanges then s.lampCommit
           else { s with lmp := { s.lmp with commitDue := false } }))) ∧
  (∀ (s : State) (p : Path) (v : Word),
     (s.accepts p Reg.lmpCtrl v → fld v.toNat Reg.lmpCtrl_all_off = 1 →
       exec (.lampAllOffWrite p v) s =
         .next (((s.stored Reg.lmpCtrl v).each (List.range 2) (fun b u => u.busEnable b)).hostAllOff)) ∧
     (s.accepts p Reg.lmpTint v → fld v.toNat Reg.lmpTint_resetf = 1 →
       exec (.tintResetf p v) s = .next ((s.stored Reg.lmpTint v).each (List.range 256) (fun i u =>
         u.fput (Reg.lmpZoneStrStat_f (i / 4) (i % 4)) 16384) |>.tintInside true)) ∧
     (∀ z : Fin 64, s.accepts p (Reg.lmpZoneCtrl z) v → (s.stored (Reg.lmpZoneCtrl z) v).zoneEn z = true →
       (fld v.toNat (Reg.lmpZoneCtrl_ping z) = 1 → exec (.zonePingWrite p z v) s = .next
         (let t := s.stored (Reg.lmpZoneCtrl z) v
          let u := t.setZone z { t.zone z with diagDue := true }
          let b := if u.busUp (z.val % 2) then z.val % 2 else 1 - z.val % 2
          let u := u.setLbus b { u.lbus b with pingDue := (u.lbus b).pingDue ++ [z.val] }
          u.setZone z { u.zone z with clearDue := (u.zone z).clearDue ||| fld v.toNat (Reg.lmpZoneCtrl_clear z) })) ∧
       (fld v.toNat (Reg.lmpZoneCtrl_ping z) = 0 → exec (.zoneClearWrite p z v) s = .next
         (let t := s.stored (Reg.lmpZoneCtrl z) v
          t.setZone z { t.zone z with clearDue := (t.zone z).clearDue ||| fld v.toNat (Reg.lmpZoneCtrl_clear z) }))))

/-- R135, R185, R199: the idle engine with the lowest number takes the next piece of work: a pixel engine the head of its home queue, or
the oldest head of the others, which counts a steal; a nozzle engine the next chunk; a correlator engine the head of the queue.
R133, R140, R185, R199, R201, R203, R249: an engine whose work ends gives it up, the work's result is applied, and the engine is
counted; one that stays in its pool is idle again, one that is to leave does so now. -/
def Obligations.EnginesTakeWork : Prop :=
  (∀ (s : State), s.up →
     (∀ (e : Fin 48) blk rest, s.engNext .pixel = some e.val → s.queue (e.val % 16) = blk :: rest →
       exec (.pxeTakeBlock e) s = .next
         (((s.setQueue (e.val % 16) rest).setHoldP e (some blk)).fput (engBusyF .pixel e) 1)) ∧
     (∀ (e : Fin 48) q blk rest, s.engNext .pixel = some e.val → s.queue (e.val % 16) = [] → s.stealFrom e = some q →
       s.queue q = blk :: rest → exec (.pxeTakeBlock e) s = .next
         ((((s.setQueue q rest).setHoldP e (some blk)).fput (engBusyF .pixel e) 1).bump Reg.pxeCntSteal_val 1)) ∧
     (∀ (e : Fin 24) c, s.engNext .nozzle = some e.val → s.chunkNext = some c →
       exec (.nzeTakeChunk e) s = .next
         ((({ s with nzl := { s.nzl with queue := s.nzl.queue.filter (· != c) } } : State).setHoldN e (some c)).fput
           (engBusyF .nozzle e) 1)) ∧
     (∀ (e : Fin 16) i rest, s.engNext .correlator = some e.val → s.trk.queue = i :: rest →
       exec (.tceTakeItem e) s = .next
         ((({ s with trk := { s.trk with queue := rest } } : State).setHoldC e
           (some { item := i, ref := (s.corrCopy i.kind).1, cur := (s.corrCopy i.kind).2 })).fput
             (engBusyF .correlator e) 1))) ∧
  (∀ (s : State), s.up →
     (∀ (k : EngKind) (e : Nat),
       (s.engLeave k e = none → s.engDone k e = (s.fput (engBusyF k e) 0).bump (engCntF k e) 1) ∧
       (∀ r, s.engLeave k e = some r →
         s.engDone k e = ((s.fput (engBusyF k e) 0).bump (engCntF k e) 1).engOut k e r)) ∧
     (∀ (e : Fin 48) blk, tget (fun _ => none) s.pxe.hold e.val = some blk →
       exec (.blockDone e) s = .next (((s.setHoldP e none).blockDone blk).engDone .pixel e)) ∧
     (∀ (e : Fin 24) c, tget (fun _ => none) s.nzl.hold e.val = some c →
       exec (.chunkDone e) s = .next (((s.setHoldN e none).chunkApply c).engDone .nozzle e)) ∧
     (∀ (e : Fin 16) h, tget (fun _ => none) s.trk.hold e.val = some h →
       (∀ w r c, h.item.kind = .chain w r c →
         exec (.corrItemDone e) s = .next ((((s.setHoldC e none).chainDone w r c h).trackLat c.com).engDone .correlator e)) ∧
       (∀ w c, h.item.kind = .tick w c →
         exec (.corrItemDone e) s = .next ((((s.setHoldC e none).tickDone w c h).trackLat c.com).engDone .correlator e)) ∧
       (∀ n, h.item.kind = .couch n →
         exec (.corrItemDone e) s = .next (((s.setHoldC e none).couchDone n h).engDone .correlator e))))

/-- R140, R141, R187, R200: an engine in its pool leaves it for test or hold, at once when it holds no work, else when its work is
written; a test that passes brings it back or leaves it held, one that fails makes it FAILED; a parity error gives its work back and
sends it to test. -/
def Obligations.EngineTestAndHold : Prop :=
  ∀ (s : State) (k : EngKind) (e : Fin 48), e.val < engCount k →
    (∀ p v, s.accepts p (engCtrl k e) v →
      let t := (s.stored (engCtrl k e) v).fputB (engHoldF k e) (bitAt v.toNat 0)
      t.fget (engStateF k e) = 0 → t.engLeave k e = none →
        (bitAt v.toNat 31 = true → t.engWork k e = false →
          exec (.engineTestWrite p k e v) s = .next (t.engOut k e 1)) ∧
        (bitAt v.toNat 31 = true → t.engWork k e = true →
          exec (.engineTestWrite p k e v) s = .next (t.setLeave k e (some 1))) ∧
        (bitAt v.toNat 31 = false → bitAt v.toNat 0 = true → t.engWork k e = false →
          exec (.engineHoldWrite p k e v) s = .next (t.engOut k e 2)) ∧
        (bitAt v.toNat 31 = false → bitAt v.toNat 0 = true → t.engWork k e = true →
          exec (.engineHoldWrite p k e v) s = .next (t.setLeave k e (some 2)))) ∧
    (s.up →
      (s.engWork k e = true → exec (.engineParityError k e) s =
        .next (((s.workBack k e).fput (engBusyF k e) 0).engOut k e 3)) ∧
      (∀ n, s.fget (engStateF k e) = 2 →
        exec (.engineTestDone k e false n) s = .next
          (((s.fputB (engPassF k e) false).fput (engStateF k e) 3).raise 0x7003 .fault (engSrc k + e.val) (pf 24 4 n)) ∧
        (s.flag (engHoldF k e) = true → exec (.engineTestDone k e true n) s =
          .next ((s.fputB (engPassF k e) true).fput (engStateF k e) 1)) ∧
        (s.flag (engHoldF k e) = false → exec (.engineTestDone k e true n) s =
          .next ((s.fputB (engPassF k e) true).engBack k e 1))))

/-- R168, R299: the next line commits, with margin drift and, in PACED regime, the couch store; the analysis island takes the oldest
committed line off its list, with the pixels of its poisoned words missing (R297), and gives it to its readers; with none left,
what follows the line it has read, up to the last committed one, was dropped (R190). That the parity failures come with the command
(`flips`), and that LFF_CNT_POISON counts the items the analysis island reads, are the model's choices (log entry 74). -/
def Obligations.LineCommitAndAnalysis : Prop :=
  ∀ (s : State), s.up →
    (∀ n r, s.nextCommit = some (n, r) →
      (r.cfg.paced = false →
        exec .lineCommit s = .next ((s.commitLine n r).driftCommit r)) ∧
      (r.cfg.paced = true →
        exec .lineCommit s = .next (((s.commitLine n r).driftCommit r).putStrips false
          { n := n, cfg := r.cfg, runs := r.runs, com := ((s.commitLine n r).driftCommit r).sys.now }))) ∧
    (∀ flips x (i : LineImg) rest, s.lff.analysis = (x, i) :: rest →
      exec (.lineAnalysisRead flips) s = .next
        (let t := s.flip flips
         let bad := t.badItems x (4 + i.cfg.c * i.cfg.plane / 16)
         let t := t.bump Reg.lffCntPoison_val bad.length
         let j : LineImg := { i with bad := bad }
         let bin := bitAt i.cfg.fmt 1
         let upto := if rest = [] then max (nextLine bin i.n) (nextLine bin (t.wget Reg.lffLastCommit0)) else nextLine bin i.n
         let u : State := { t with
           lff := { t.lff with analysis := rest }
           nzl := { t.nzl with hist := j :: t.nzl.hist, readTo := upto } }
         let u := u.trackLine j
         let u := (u.each u.busyWins (fun w u => u.patchesDone w (outLine bin upto))).chunksReady
         (u.streakLine j (outLine bin t.nzl.readTo) (outLine bin upto)).histTrim.advanceFree)) ∧
    (∀ flips, s.lff.analysis = [] → exec (.lineAnalysisRead flips) s = .next (s.flip flips))

/-- R146, R346, R431: a selection of another bank is a pending shadow of SHD_BANK, one that names the bank in force withdraws a pending
one; BANK_COMMIT makes the same selection, and is refused with the reason that R431 gives. -/
def Obligations.BankSelections : Prop :=
  ∀ (s : State),
    (∀ p v, s.accepts p Reg.shdBank v →
      exec (.bankSelectWrite p v) s = .next (s.selectBank (fld v.toNat Reg.shdBank_sel)) ∧
      (s.selectBank (fld v.toNat Reg.shdBank_sel)).fget Reg.shdBank_sel = s.fget Reg.shdBank_sel ∧
      (fld v.toNat Reg.shdBank_sel = s.fget Reg.shdBank_sel →
        (s.selectBank (fld v.toNat Reg.shdBank_sel)).bankPend = none) ∧
      (fld v.toNat Reg.shdBank_sel ≠ s.fget Reg.shdBank_sel →
        (s.selectBank (fld v.toNat Reg.shdBank_sel)).bankPend = some (fld v.toNat Reg.shdBank_sel))) ∧
    (∀ e r, s.atHead 8 e r → s.isSafe = false →
      ((s.popped r).selectReason (commitBank e) = 0 →
        exec (.bankCommit e) s = .next ((((s.popped r).selectBank (commitBank e)).cmdFinish 8 e 0).cmdNext)) ∧
      ((s.popped r).selectReason (commitBank e) ≠ 0 →
        exec (.bankCommit e) s =
          .next (((s.popped r).cmdRefuse 8 e ((s.popped r).selectReason (commitBank e)) 0).cmdNext)))

/-- R149, R150, R151: a CAL_START that nothing refuses starts a calibration of the bank not in force, or a check with KIND 4, and is
done; once no line uses the target bank it is prepared, and the two flush phases and the lamps begin the capture. -/
def Obligations.CalibrationStarts : Prop :=
  ∀ (s : State),
    (∀ e r, s.atHead 9 e r → s.isSafe = false →
      ((s.popped r).calReason e ≠ 0 →
        exec (.calStart e) s = .next (((s.popped r).cmdRefuse 9 e ((s.popped r).calReason e) 0).cmdNext)) ∧
      ((s.popped r).calReason e = 0 → calKind e = 4 →
        exec (.calStart e) s = .next
          ((({ s.popped r with shd := { s.shd with check := s.shd.check ++ [1 - s.fget Reg.shdBank_sel] } } :
            State).cmdFinish 9 e 0).cmdNext)) ∧
      ((s.popped r).calReason e = 0 → calKind e ≠ 4 →
        exec (.calStart e) s = .next ((((s.popped r).calBegin e).cmdFinish 9 e 0).cmdNext) ∧
        (((s.popped r).calBegin e).shd.cal.map (fun c => (c.kind, c.n, c.target))) =
          some (calKind e, calN e, 1 - s.fget Reg.shdBank_sel))) ∧
    (∀ c, s.controlled → s.shd.cal = some c → c.step = .preparing → s.bankHeld c.target = false →
      exec .calPrepareDone s = .next
        (let u := (s.calPrepare c).setCal (some { c with step := .flushing })
         State.setLampEn { u with
           vfe := { u.vfe with flush := 2 }
           seq := { u.seq with waitFlush := true }
           pxe := { u.pxe with acc := [], clampA := u.fget Reg.pxeCtrl_clamp_a }
           lmp := { u.lmp with offArmed := false } } true))

/-- R152 to R157, R160: a dark or gain pass that ends enters its values and goes on with the next pass; the last dark pass of a DARK
calibration leads to the verdict, that of another one to the shutter, the last gain pass to the writing of the entries
and to verification, whose warm-up's end has first fixed what it excludes; gain passes begin with the
shutter at TILE and the lamps committed, and the last verification pass leads to the verdict.
R157, R159: a calibration ends at once without a shutter, or when the shutter has arrived at PARK; CAL_ABORT ends the capture after
the line in progress and gives cause 3. A calibration that ends frees its bank, and one with AUTO that succeeded selects it. That
CAL_ABORT is ignored while the shutter returns, after the verdict, is the model's choice (log entry 60). -/
def Obligations.CalibrationPasses : Prop :=
  (∀ (s : State) (c₀ : Cal), s.controlled → s.shd.cal = some c₀ →
     let c := s.calWarmed c₀
     (s.calPassEnds c = true → c.aborting = false →
       (c.step = .dark → s.calLastPass c = false →
         exec .calPassEnd s = .next ((s.calDark c).1.calNextPass (s.calDark c).2)) ∧
       (c.step = .dark → s.calLastPass c = true → c.kind = 1 →
         exec .calPassEnd s = .next ((s.calDark c).1.calVerdict (s.calDark c).2)) ∧
       (c.step = .dark → s.calLastPass c = true → c.kind ≠ 1 →
         exec .calPassEnd s = .next ((s.calDark c).1.calShutter (s.calDark c).2)) ∧
       (c.step = .gain → s.calLastPass c = false →
         exec .calPassEnd s = .next ((s.calGain c).1.calNextPass (s.calGain c).2)) ∧
       (c.step = .gain → s.calLastPass c = true →
         exec .calPassEnd s = .next (((s.calGain c).1.calTref (s.calGain c).2).calStep (s.calGain c).2
           (if s.calPasses = 0 then .verify else .writing))) ∧
       (c.step = .verify → s.calLastPass c = false →
         exec .calPassEnd s = .next ((s.calRnu c).calNextPass c)) ∧
       (c.step = .verify → s.calLastPass c = true →
         exec .calVerifyEnd s = .next ((s.calRnu c).calVerdict c))) ∧
     (s.calPassEnds c = true → c.aborting = true → exec .calPassEnd s = .next (s.calReturn c)) ∧
     (c₀.step = .shutter → s.lmp.delivering = false →
       (s.flag Reg.shdCtrl_shutter = false ∨
         (s.moving 6 = false ∧ s.axPos 6 = toInt 32 (s.rget Reg.shdTile0).toNat)) →
           exec .calShutterSettled s = .next (s.calStep c₀ .gain))) ∧
  (∀ (s : State) (c : Cal), s.shd.cal = some c →
     (s.controlled → c.step = .returning → (s.flag Reg.shdCtrl_shutter = false ∨
         (s.moving 6 = false ∧ s.axPos 6 = toInt 32 (s.rget Reg.shdTile1).toNat)) →
       exec .calEnd s = .next (s.calFinish c) ∧ (s.calFinish c).shd.cal = none ∧
       (c.auto = true → c.outcome = none → c.target < 2 → c.target ≠ s.fget Reg.shdBank_sel →
         (s.calFinish c).bankPend = some c.target)) ∧
     (∀ p v, s.accepts p Reg.shdCtrl v → fld v.toNat Reg.shdCtrl_cal_abort = 1 →
       (c.step = .returning → exec (.calAbort p v) s = .next (s.stored Reg.shdCtrl v)) ∧
       (c.step ≠ .returning → c.step ≠ .dark → c.step ≠ .gain → c.step ≠ .verify →
         exec (.calAbort p v) s =
           .next ((s.stored Reg.shdCtrl v).calReturn { c with aborting := true, outcome := some 3 })) ∧
       ((c.step = .dark ∨ c.step = .gain ∨ c.step = .verify) →
         (s.stored Reg.shdCtrl v).calPassEnds { c with aborting := true, outcome := some 3 } = false →
           exec (.calAbort p v) s =
             .next ((s.stored Reg.shdCtrl v).setCal (some { c with aborting := true, outcome := some 3 })))))

/-- R145, R161, R162: CHECK and MBIST start the check and the memory test of a bank, and a test's start is a write to the bank; a check
that passes makes the bank VALID with source 2 and raises CHECK_DONE, one that fails counts its items and raises CHECK_FAIL; a memory
test leaves the bank zeroed, BAD exactly when a row could not be repaired. -/
def Obligations.BankTests : Prop :=
  ∀ (s : State) (b : Fin 2),
    (∀ p v, s.accepts p (Reg.shdBankCtrl b) v →
      (fld v.toNat (Reg.shdBankCtrl_check b) = 1 → fld v.toNat (Reg.shdBankCtrl_mbist b) = 0 →
        exec (.bankCheck p b v) s = .next ((s.stored (Reg.shdBankCtrl b) v).checkStart b)) ∧
      (fld v.toNat (Reg.shdBankCtrl_check b) = 0 → fld v.toNat (Reg.shdBankCtrl_mbist b) = 1 →
        exec (.bankMbist p b v) s = .next ((s.stored (Reg.shdBankCtrl b) v).mbistStart b))) ∧
    (s.up → s.shd.check.contains b.val = true → s.cfg.bankCheck = false →
      exec (.bankCheckDone b) s = .next
        (let n := (s.checkBank b).1
         let first := (s.checkBank b).2
         let u := (s.fput Reg.shdCheck0_failing n).fput Reg.shdCheck1_first first
         let u : State := { u with shd := { u.shd with check := u.shd.check.filter (· != b.val) } }
         if n = 0 then (u.validate b 2).raise 0x8004 .info b 0
         else u.raise 0x8005 .warn b (pf 24 4 n + pf 28 4 first))) ∧
    (s.up → s.shd.mbist.contains b.val = true →
      let u := s.clear (bankBase b) 0x800000
      let u : State := { u with shd := { u.shd with mbist := u.shd.mbist.filter (· != b.val) } }
      exec (.bankMbistDone b none) s = .next (u.fputB (bankBadFld b) false) ∧
      (∀ o, exec (.bankMbistDone b (some o)) s =
        .next ((u.fputB (bankBadFld b) true).raise 0x8006 .fault b (pf 24 4 o))))

/-- R171, R175, R195, R378: CLEAR zeroes the contexts of all 655,360 nozzles and changes no other byte; PLACE asks for a placement of the
tracking windows; a stream's band start line is held until its high word is written, which gives the line to the stream.
R175, R197, R226, R239, R282: the level of an EVI pin is recorded; a falling edge and a level that stays do nothing more, a rising
edge reaches the bands, the windows and a move with EVSTOP, triggers the sequence that follows it, and a line where lines follow it. -/
def Obligations.NozzleAndTrackWrites : Prop :=
  (∀ (s : State) (p : Path) (v : Word),
     (s.accepts p Reg.nzlCtrl v → fld v.toNat Reg.nzlCtrl_clear = 1 → ∃ t,
       exec (.nzlClear p v) s = .next t ∧
       t = ((s.stored Reg.nzlCtrl v).zeroContexts 0 0xA0000).reclaim ∧
       ∀ a, t.byte a = if ctxAddr 0 ≤ a ∧ a < ctxAddr 0 + 16 * 655360 then memDefault a else s.byte a) ∧
     (s.accepts p Reg.trkCtrl v → fld v.toNat Reg.trkCtrl_place = 1 →
       exec (.windowPlaceWrite p v) s = .next { s.stored Reg.trkCtrl v with
         trk := { (s.stored Reg.trkCtrl v).trk with place := true } }) ∧
     (∀ st : Fin 4, s.accepts p (Reg.nzlBandLine0 st) v →
       exec (.bandLineWrite p st false v) s = .next
         ((s.each (List.range 2) (fun k u => u.setHeld p (Reg.nzlBandLine0 st + 4 * k) none)).setHeld p
           (Reg.nzlBandLine0 st) (some v))) ∧
     (∀ (st : Fin 4) (low : Word), s.accepts p (Reg.nzlBandLine1 st) v → s.lowPart p (Reg.nzlBandLine0 st) = low.toNat →
       exec (.bandLineWrite p st true v) s = .next
         ((((s.setHeld p (Reg.nzlBandLine0 st) none).stored (Reg.nzlBandLine0 st) low).stored
           (Reg.nzlBandLine1 st) v).bandHost st))) ∧
  (∀ (s : State) (g : Fin 4), s.up →
     (let low : State := { s with seq := { s.seq with evi := tput (fun _ => false) s.seq.evi g.val false } }
      exec (.eviEdge g false) s = .next low) ∧
     (let high : State := { s with seq := { s.seq with evi := tput (fun _ => false) s.seq.evi g.val true } }
      let u := ((high.bandEvi g).trackEvi g).evstop g
      let w := if bitsAt u.seqCtl 26 2 = g.val then u.monTriggerBy 2 else u
      (tget (fun _ => false) s.seq.evi g.val = true → exec (.eviEdge g true) s = .next high) ∧
      (tget (fun _ => false) s.seq.evi g.val = false →
        (w.linesByEdge = true → w.fget Reg.motCtrl_levi = g.val →
          exec (.eviEdge g true) s = .next (w.lineTrigger w.feedNm)) ∧
        ((w.linesByEdge = false ∨ w.fget Reg.motCtrl_levi ≠ g.val) → exec (.eviEdge g true) s = .next w))))

/-- R192, R346: a CONTEXT_EXPORT that nothing refuses begins, or is held while an export runs; an export that ends well has written its
header and contexts, gives its channel back and raises EXPORT_DONE with the number of contexts, and the held export follows. -/
def Obligations.ContextExports : Prop :=
  ∀ (s : State),
    (∀ e r, s.atHead 0x0A e r →
      let q := s.popped r
      let x : Export := { first := expFirst e, count := expCount e, dst := expDst e, taken := false, line := 0, time := 0
                          band := 0, data := [] }
      (q.exportReason e ≠ 0 → exec (.contextExport e) s = .next ((q.cmdRefuse 0x0A e (q.exportReason e) 0).cmdNext)) ∧
      (q.exportReason e = 0 → q.nzl.exp = none →
        exec (.contextExport e) s = .next (((q.exportBegin x).cmdFinish 0x0A e 0).cmdNext)) ∧
      (q.exportReason e = 0 → q.nzl.exp ≠ none →
        exec (.contextExport e) s = .next
          ((((({ q with nzl := { q.nzl with expHeld := some (if q.running then x else q.exportTake x lineNone) } } :
            State).fput Reg.nzlStat_exp_pend 1).cmdFinish 0x0A e 0)).cmdNext))) ∧
    (∀ x, s.up → s.nzl.exp = some x → x.taken = true →
      let u := ({ s with nzl := { s.nzl with exp := none } } : State).fput Reg.nzlStat_exp_busy 0
      (isHost x.dst = true → exec (.exportDone true) s = .next
        ((((u.dmaWrite x.dst x.bytes).exportChannel false).raiseAt 0xA008 .info 0 x.line
          (pf 24 4 x.count + pf 28 4 x.count)).exportNext)) ∧
      (isHost x.dst = false → s.dstRule x.dst (64 + 16 * x.count) ≠ .refuse → exec (.exportDone true) s = .next
        ((((u.outerStore .ring x.dst x.bytes).exportChannel false).raiseAt 0xA008 .info 0 x.line
          (pf 24 4 x.count + pf 28 4 x.count)).exportNext)) ∧
      (isHost x.dst = false → s.dstRule x.dst (64 + 16 * x.count) = .refuse → exec (.exportDone true) s = .next
        (((((u.dmaConflict (s.fget Reg.nzlCtrl_expch) x.dst).dmaHalt (s.fget Reg.nzlCtrl_expch) 3).raiseAt 0xA009 .warn 0
          x.line (pf 24 4 x.count)).exportNext))))

/-- R223, R226, R228, R232: a profile tick takes the axes in order: a queued move that follows starts, else a moving axis advances, then
the corrective steps of a restoration, the steps an axis at rest still owes (R224), and an idle axis's settings; what a later write
asks counts for the next tick. One axis's tick ends on the target once the rest is no more than
its speed or VSTART, and else moves by its new speed towards the target. That the steps still owed at rest come in later ticks, and
that the wait times count down in ns by 1000 a tick, are the model's choices (log entry 76). -/
def Obligations.ProfileTick : Prop :=
  (∀ s : State, s.up →
    exec .profileTick s = .next ((s.couchTick.each (List.range 8) (fun a s =>
      let s := match (s.axis a).startNext, (s.axis a).queued with
        | true, some q => ((s.setAxis a { s.axis a with queued := none, startNext := false }).fput
            (Reg.motAxStat_queued a) 0).moveStart a q.kind q.tgt
        | _, _ => s.axisTick a
      let s := s.restoreTick a
      let s := if !s.moving a && s.owed a != 0 then s.emitSteps a (s.axis a).p else s
      if !s.moving a && (s.axis a).queued.isNone && s.mbPending a && !s.holds .mb a then s.mbCommit a else s)).each
        (List.range 8) (fun a s => s.setAxis a { s.axis a with wrote := false, wait := (s.axis a).wait - 1000 }))) ∧
  (∀ (x : Axis) (vline : Int),
    ((((x.tgt * one48 - x.p).natAbs : Nat) : Int) ≤ max x.v x.vst →
      x.tick vline = ({ x with p := x.tgt * one48, v := 0, a := 0 }, true)) ∧
    (max x.v x.vst < (((x.tgt * one48 - x.p).natAbs : Nat) : Int) →
      (x.tick vline).2 = false ∧
      (x.p ≤ x.tgt * one48 → (x.tick vline).1.p = x.p + (x.tick vline).1.v) ∧
      (x.tgt * one48 < x.p → (x.tick vline).1.p = x.p - (x.tick vline).1.v) ∧
      (x.j = 0 → x.braking = false → vline ≤ 0 → brake x.v x.a x.dec x.j + x.v < (((x.tgt * one48 - x.p).natAbs : Nat) : Int) →
        x.v < x.vmax → 0 < x.acc → (x.tick vline).1.v = min (x.v + x.acc) x.vmax ∧ (x.tick vline).1.goal = .accel) ∧
      (x.j = 0 → 0 < x.dec → (((x.tgt * one48 - x.p).natAbs : Nat) : Int) ≤ brake x.v x.a x.dec x.j + x.v →
        (x.tick vline).1.v = max (x.v - x.dec) x.vst ∧ (x.tick vline).1.braking = true)))

/-- R225, R226, R227, R234, R346: a MOVE that nothing refuses is done at once and its move starts, or is queued behind the running one; a
relative target counts from the present position. HALT brakes an axis (the pair for a feed axis that follows), STOP stops it at once,
and MOT_CTRL.STOP stops all eight. -/
def Obligations.MoveHaltStop : Prop :=
  ∀ (s : State),
    (∀ e r, s.atHead 6 e r → s.isSafe = false →
      let q := s.popped r
      let a := moveAxis e
      let tgt := toInt 48 ((if moveRel e then moveTarget e + s.axPos a else moveTarget e) % 2 ^ 48).toNat
      let k := MoveKind.move (moveNotify e) (moveEvstop e) (moveEvi e)
      let t := q.cmdFinish 6 e 0
      (q.moveReason e ≠ 0 → exec (.move e) s = .next ((q.cmdRefuse 6 e (q.moveReason e) 0).cmdNext)) ∧
      (q.moveReason e = 0 → t.moving a = true → exec (.move e) s = .next
        (((t.setAxis a { t.axis a with queued := some { kind := k, tgt := tgt } }).fput (Reg.motAxStat_queued a) 1).cmdNext)) ∧
      (q.moveReason e = 0 → t.moving a = false → exec (.move e) s = .next ((t.moveStart a k tgt).cmdNext))) ∧
    (∀ p (a : Fin 8) v, s.accepts p (Reg.motAxCtrl a) v →
      let t := s.stored (Reg.motAxCtrl a) v
      t.flag (Reg.motAxCtrl_ena a) = s.flag (Reg.motAxCtrl_ena a) → fld v.toNat (Reg.motAxCtrl_encset a) = 0 →
        (fld v.toNat (Reg.motAxCtrl_stop a) = 1 → exec (.axisStop p a v) s = .next (t.hostStop [a.val])) ∧
        (fld v.toNat (Reg.motAxCtrl_stop a) = 0 → fld v.toNat (Reg.motAxCtrl_halt a) = 1 →
          exec (.axisHalt p a v) s = .next (t.halt (if a.val = 1 ∧ t.moving 0 = true then 0 else a.val)))) ∧
    (∀ p v, s.accepts p Reg.motCtrl v → fld v.toNat Reg.motCtrl_stop = 1 →
      exec (.motionStopAll p v) s = .next (((s.stored Reg.motCtrl v).hostStop (List.range 8)).reclaim))

/-- R231: ENA drives EN_a: an accepted write sets the enable to its ENA bit. Clearing ENA is refused with a CONFLICT event while the axis
moves, and for axes 0 and 1 during a job or a couch. When EN_a of an axis from 2 to 7 falls, REF is cleared and UNC set. -/
def Obligations.AxisEnaDrivesEn : Prop :=
  ∀ (s : State) (p : Path) (a : Fin 8) (v : Word), s.Sound →
    (s.accepts p (Reg.motAxCtrl a) v → fld v.toNat (Reg.motAxCtrl_stop a) = 0 → fld v.toNat (Reg.motAxCtrl_halt a) = 0 →
      fld v.toNat (Reg.motAxCtrl_encset a) = 0 →
        ∃ t, exec (.axisEnableWrite p a v) s = .next t ∧
          t.flag (Reg.motAxCtrl_ena a) = (fld v.toNat (Reg.motAxCtrl_ena a) == 1) ∧
          (2 ≤ a.val → s.flag (Reg.motAxCtrl_ena a) = true → fld v.toNat (Reg.motAxCtrl_ena a) = 0 →
            t.flag (Reg.motAxStat_ref a) = false ∧ t.flag (Reg.motAxStat_unc a) = true)) ∧
    (s.reaches p → s.bare = false → s.flag (Reg.motAxCtrl_ena a) = true → fld v.toNat (Reg.motAxCtrl_ena a) = 0 →
      (s.moving a = true ∨ (a.val < 2 ∧ (s.running = true ∨ s.mot.couch ≠ none))) →
        exec (.axisEnableWrite p a v) s = .next (s.regRefused p (Reg.motAxCtrl a) v 4) ∧
        (p ≠ .dbg → s.regRefused p (Reg.motAxCtrl a) v 4 =
          (s.raise 0x0006 .warn (pathNum p) (pf 22 1 4 + pf 24 4 (Reg.motAxCtrl a) + pf 28 4 v.toNat)).raise 0x0007 .warn
            (pathNum p) (pf 22 1 1 + pf 24 4 (Reg.motAxCtrl a))))

/-- R28, R231, R232, R233: enabling a feed axis starts the restoration of its phase: PHOME gives the corrective steps, 1 ms without it is
a failure that costs the reference, and the steps' end raises PHASE_RESTORED. Disabling a feed axis saves its phase, disabling another
one loses its reference. SETPOS and ENCSET set a position as referenced. -/
def Obligations.AxisEnableAndPosition : Prop :=
  ∀ (s : State),
    (∀ p (a : Fin 8) v, s.accepts p (Reg.motAxCtrl a) v →
      let t := s.stored (Reg.motAxCtrl a) v
      fld v.toNat (Reg.motAxCtrl_stop a) = 0 → fld v.toNat (Reg.motAxCtrl_halt a) = 0 →
        (fld v.toNat (Reg.motAxCtrl_encset a) = 0 → s.flag (Reg.motAxCtrl_ena a) = false →
          t.flag (Reg.motAxCtrl_ena a) = true → exec (.axisEnableWrite p a v) s = .next
            (if a.val < 2 then ((t.setAxis a { t.axis a with restore := some .seek }).fput (Reg.motAxStat_state a) 5).fput
              (Reg.motAxStat_hold a) 1 else t)) ∧
        (fld v.toNat (Reg.motAxCtrl_encset a) = 0 → s.flag (Reg.motAxCtrl_ena a) = true →
          t.flag (Reg.motAxCtrl_ena a) = false →
            let w := if (t.axis a).restore.isSome
              then (t.setAxis a { t.axis a with restore := none }).fput (Reg.motAxStat_state a) 0 else t
            let lost := (w.fput (Reg.motAxStat_ref a) 0).fput (Reg.motAxStat_unc a) 1
            exec (.axisEnableWrite p a v) s = .next
              (if a.val < 2 then w.fput (Reg.motAxPhase_ph_save a) (w.fget (Reg.motAxPhase_ph a))
               else if a.val = 6 ∧ w.flag (Reg.motAxStat_unc a) = false then lost.calAxis else lost)) ∧
        (∀ w m, fld v.toNat (Reg.motAxCtrl_encset a) = 1 → t.flag (Reg.motAxCtrl_ena a) = s.flag (Reg.motAxCtrl_ena a) →
          t.absWord (t.fget (Reg.motAxEnc_port a)) = some (w, m) →
            exec (.encset p a v) s = .next (t.setPosition a (t.encPos a w)))) ∧
    (∀ p (a : Fin 8) v, s.accepts p (Reg.motAxSetpos1 a) v → exec (.setposWrite p a true v) s = .next
      ((s.setHeld p (Reg.motAxSetpos0 a) none).setPosition a
        (toInt 48 (s.lowPart p (Reg.motAxSetpos0 a) + 2 ^ 32 * v.toNat)))) ∧
    (s.up → ∀ a : Fin 2,
      ((s.axis a).restore = some .seek → exec (.phomeRise a) s = .next
        (let n := phaseSteps (s.fget (Reg.motAxPhase_ph_save a))
         ((s.fput (Reg.motAxStat_phome a) 1).fput (Reg.motAxPhase_ph a) 0).setAxis a
           { s.axis a with restore := some (if n = 0 then .done else .step n 0) })) ∧
      ((s.axis a).restore = some .seek → exec (.phaseFail a) s = .next
        ((((((((s.setAxis a { s.axis a with restore := none }).fput (Reg.motAxStat_state a) 0).fput (Reg.motAxPhase_ph a) 0).fput
          (Reg.motAxStat_phome a) 0).raise 0xC007 .fault a (pf 24 2 (s.fget (Reg.motAxPhase_ph_save a)))).fput (Reg.motAxStat_ref a) 0).fput
            (Reg.motAxStat_unc a) 1))) ∧
      ((s.axis a).restore = some .done → exec (.phaseRestored a) s = .next
        ((((s.setAxis a { s.axis a with restore := none }).fput (Reg.motAxStat_state a) 0).raise 0xC006 .info a
          (pf 24 2 (s.fget (Reg.motAxPhase_ph_save a)))).advanceTry)))

/-- R230, R234, R235, R236: the level of DRV_FLT shows in FLT; a fault that has lasted 1 µs stops an enabled axis at once, raises
AXIS_FAULT once, and stops the feed in the case of a feed axis. HOLD_DLY after a move the current of an axis at rest drops to HOLD, and
100 µs after a move from HOLD has started its steps may come. That the rise of DRV_FLT takes an axis out of STATE 6, and that a fault of
axis 6 ends any calibration, are the model's choices (log entry 24). -/
def Obligations.AxisFaultsAndCurrent : Prop :=
  ∀ (s : State) (a : Fin 8), s.up →
    exec (.drvFltFall a) s = .next (s.fput (Reg.motAxStat_flt a) 1) ∧
    exec (.drvFltRise a) s = .next
      (let u := (s.fput (Reg.motAxStat_flt a) 0).setAxis a { s.axis a with faulted := false }
       if u.fget (Reg.motAxStat_state a) = 6 then u.fput (Reg.motAxStat_state a) 0 else u) ∧
    (s.flag (Reg.motAxStat_flt a) = true → (s.axis a).faulted = false →
      (s.flag (Reg.motAxCtrl_ena a) = false → exec (.axisFault a) s = .next
        (let t := (s.setAxis a { s.axis a with faulted := true }).raise 0xC003 .fault a (pfI 24 6 (s.axPos a))
         if a.val = 6 then t.calAxis else t)) ∧
      (s.flag (Reg.motAxCtrl_ena a) = true → exec (.axisFault a) s = .next
        (let t := s.stopAxes [a.val] 6
         let t := (t.setAxis a { t.axis a with faulted := true }).raise 0xC003 .fault a (pfI 24 6 (t.axPos a))
         let t := if a.val = 6 then t.calAxis else t
         if a.val < 2 then t.feedStop a 2 else t))) ∧
    (s.moving a = false → exec (.holdCurrentDrop a) s = .next (s.fput (Reg.motAxStat_hold a) 1)) ∧
    exec (.moveStartDelay a) s = .next (s.setAxis a { s.axis a with delay := false })

/-- R13, R242, R244, R245, R346, R433: JOB_START tries the settings its JB would commit, is refused by the first check of R433 that fails,
and else begins the job; JOB_STOP waits for the pass in ADVANCE regime and halts the feed where the device moves it; the job ends when
the line in progress is over and the feed is at rest. -/
def Obligations.JobStartStopEnd : Prop :=
  ∀ (s : State),
    (∀ e r, s.atHead 3 e r →
      let q := s.popped r
      let least := (q.jobSettings e).leadMin
      let t := q.jobTrial e
      let f := if jobRegime e = 1 then t.fitWindows least else ([], t)
      (∀ code reason idx, q.jobCheck f.2 least e = some (code, reason, idx) →
        exec (.jobStart e) s = .next ((q.cmdRefuse 3 e reason (pf 24 1 code + pf 26 2 idx)).cmdNext)) ∧
      (q.jobCheck f.2 least e = none → exec (.jobStart e) s = .next
        (((f.2.jobBegin e f.1 (decide (t.seq.period < f.2.seq.period))).cmdFinish 3 e 0).cmdNext))) ∧
    (∀ e r, s.atHead 4 e r → s.isSafe = false → (s.popped r).running = true → s.mot.stopping = none →
      let t := (((s.popped r).cmdAccept 4 e).fput Reg.motStat_adv_held 0).fput Reg.motStat_couch 0
      let t : State := { t with mot := { t.mot with stopping := some e, held := none, heldCmd := none, couch := none } }
      let u : State := { t with seq := { t.seq with armed := false, held := none } }
      (t.regime = 2 → t.mot.adv ≠ none → exec (.jobStop e) s = .next t.cmdNext) ∧
      (t.regime = 2 → t.mot.adv = none → exec (.jobStop e) s = .next u.cmdNext) ∧
      (t.regime = 1 → exec (.jobStop e) s = .next ((u.halt 0).cmdNext))) ∧
    (s.up → s.running = true → s.mot.stopping ≠ none → s.seq.cur = none →
      ((s.regime = 2 ∧ s.mot.adv = none) ∨ (s.regime ≠ 2 ∧ s.moving 0 = false ∧ (s.axis 0).queued = none)) →
        exec .jobEnd s = .next s.jobEnd)

/-- R23, R242, R244, R346: an ADVANCE is accepted by the ring and held, and the motion island takes it when the pair is idle and ABOVE is
clear; the PB of an advance whose last steps are out places F at its end, commits PB-class settings, whose claims follow (R378), and checks
the calender map; then a held advance follows, and a job that was stopped ends. That the boundary waits for owed steps is the model's
choice (log entry 76).
R246: after the dwell that follows the halt the pair moves back behind the point of return; after the dwell that follows the back
move the couch waits for the low mark, and with the fill below it and no segment waiting for voltage mode the forward run begins. That
the couch's check is made at the forward start is the model's choice (log entry 35). -/
def Obligations.Advances : Prop :=
  (∀ (s : State),
     (∀ e r, s.atHead 5 e r → s.isSafe = false → (s.popped r).running = true → (s.popped r).regime = 2 →
       s.mot.stopping = none → (s.axis 0).restore = none → (s.axis 1).restore = none → s.mot.held = none →
         exec (.advance e) s = .next
           (let t := (s.popped r).cmdAccept 5 e
            let t : State := { t with mot := { t.mot with held := some (advPass e, advDistance e), heldCmd := some e } }
            ((t.fput Reg.motStat_adv_held 1).advanceTry).cmdNext)) ∧
     (∀ n d e, s.controlled → s.mot.held = some (n, d) → s.mot.heldCmd = some e → s.running = true → s.mot.adv = none →
       s.moving 0 = false → s.moving 1 = false → (s.axis 0).restore = none → (s.axis 1).restore = none →
       s.flag Reg.lffStat_above = false →
         exec .advanceAccept s = .next
           (let t := s.acceptAdvance n d
            State.cmdDone { t with mot := { t.mot with heldCmd := none } } 5 e 0)) ∧
     (∀ x, s.controlled → s.mot.adv = some x → x.settling = true → s.owed 0 = 0 → s.owed 1 = 0 →
       let t := ((s.setF (x.f0 + x.a * 2 ^ 32)).boundary .pb 0).reclaim
       let t := t.mapCommit (t.flag Reg.sysCommitHold_pb)
       let t := (t.bandPb).trackPb x.pass
       let t := ({ t with mot := { t.mot with adv := none } } : State).fput Reg.motStat_adv_run 0
       (t.mot.stopping = none → exec .passBoundary s = .next t.advanceTry) ∧
       (t.mot.stopping ≠ none → exec .passBoundary s = .next t.jobEnd))) ∧
  (∀ (s : State) (c : Couch), s.controlled → s.mot.couch = some c →
     (s.couchStep = 3 → exec .couchDwellEnd s = .next
       ((s.setCouchStep 4).moveStart 0 .couchBack ((s.axis 0).p.fdiv one48 - c.back))) ∧
     (s.couchStep = 4 → c.backDone = true → exec .couchDwellEnd s = .next (s.setCouchStep 5)) ∧
     (s.couchStep = 5 → s.flag Reg.lffStat_above = false → s.vfe.toVolt = [] → exec .couchRestart s = .next
       (let k : CouchCheck := { line := c.n + 1, ended := 0, queued := false, out := 0, dys := [], verdict := none }
        let t : State := { s with mot := { s.mot with check := some k } }
        (t.setCouchStep 6).moveStart 0 .forward beyondReach)))

/-- R257, R258, R260, R261, R262: a trigger of an absolute port that is enabled, for the frame that runs where one does (R268), starts a frame on a free port, is held on a busy one, and is an
overrun where one is held already, with one event for a run of them. A period and a REQ lead to it; the end of the
recovery starts the frame of a held trigger, on a port that is still enabled (the model's choice for one that is not, log entry 64);
CLRUNC clears JUNC.
R234, R257, R258, R260: a frame that ends with its samples is evaluated, and an axis that waits takes a valid word; one that found
SLO low fails with error 1. Of an SSI frame LEAD samples are discarded and the next DLEN are its word, and a high sample in the
monoflop time is error 2. A BiSS frame fails with error 5 without an acknowledge, 4 without a start, 8 when busy too long, the last two
with the line delay in LD. -/
def Obligations.AbsTriggers : Prop :=
  (∀ (s : State) (n : Fin 4),
     (∀ t : State, t.absRuns n = true →
       (t.flag (Reg.posAbsStat_busy n) = false →
         t.absTrigger n = (t.setAbs n { t.absPort n with overrun := false }).absStart n) ∧
       (t.flag (Reg.posAbsStat_busy n) = true → t.flag (Reg.posAbsStat_pend n) = false →
         t.absTrigger n = (t.setAbs n { t.absPort n with overrun := false }).fput (Reg.posAbsStat_pend n) 1) ∧
       (t.flag (Reg.posAbsStat_busy n) = true → t.flag (Reg.posAbsStat_pend n) = true →
         let u := t.bump (Reg.posAbsOvr_val n) 1
         t.absTrigger n = if (u.absPort n).overrun then u
           else (u.setAbs n { u.absPort n with overrun := true }).raise 0xD005 .warn n 0)) ∧
     (∀ p v, s.accepts p (Reg.posAbsCtrl n) v →
       (fld v.toNat (Reg.posAbsCtrl_clrunc n) = 0 → fld v.toNat (Reg.posAbsCtrl_req n) = 1 →
         exec (.absReq p n v) s = .next ((s.stored (Reg.posAbsCtrl n) v).absTrigger n)) ∧
       (fld v.toNat (Reg.posAbsCtrl_clrunc n) = 1 → fld v.toNat (Reg.posAbsCtrl_req n) = 0 →
         exec (.absClrunc p n v) s =
           .next (((s.stored (Reg.posAbsCtrl n) v).fput (Reg.posAbsStat_junc n) 0).absUnc n))) ∧
     (s.up → s.fget (Reg.posAbsTrig_per n) ≠ 0 → s.absRuns n = true →
       exec (.absPeriodicTrigger n true) s = .next (s.absTrigger n) ∧
       (s.flag (Reg.posAbsStat_busy n) = false →
         exec (.absPeriodicTrigger n false) s = .next ((s.absTrigger n).absNotReady n))) ∧
     (s.up → s.flag (Reg.posAbsStat_busy n) = true → (s.absPort n).frame = false →
       let u := s.fput (Reg.posAbsStat_busy n) 0
       (u.flag (Reg.posAbsStat_pend n) = false → ∀ ready, exec (.absRecoveryEnd n ready) s = .next u) ∧
       (u.flag (Reg.posAbsStat_pend n) = true →
         let w := u.fput (Reg.posAbsStat_pend n) 0
         (w.flag (Reg.posAbsCfg_en n) = false → ∀ ready, exec (.absRecoveryEnd n ready) s = .next w) ∧
         (w.flag (Reg.posAbsCfg_en n) = true →
           exec (.absRecoveryEnd n true) s = .next (w.absStart n) ∧
           exec (.absRecoveryEnd n false) s = .next ((w.absStart n).absNotReady n))))) ∧
  (∀ (s : State) (n : Fin 4), s.up → (s.absPort n).frame = true →
     (∀ f : AbsFrame,
       (f.ready = false → exec (.absFrameDone n f) s = .next (s.absNotReady n)) ∧
       (f.ready = true → (s.absFrame n f).flag (Reg.posAbsStat_valid n) = true →
         exec (.absFrameDone n f) s = .next ((s.absFrame n f).posRestore n)) ∧
       (f.ready = true → (s.absFrame n f).flag (Reg.posAbsStat_valid n) = false →
         exec (.absFrameDone n f) s = .next (s.absFrame n f)) ∧
       (cfgBiss (s.absPort n).cfg = false →
         let lead := cfgLead (s.absPort n).cfg
         let dlen := cfgDlen (s.absPort n).cfg
         (f.samples.getD (lead + dlen) false = true → s.absFrame n f = s.absFail n 2) ∧
         (f.samples.getD (lead + dlen) false = false → lead + dlen ≤ f.samples.length →
           s.absFrame n f = s.absJump n (cfgWord (s.absPort n).cfg ((f.samples.drop lead).take dlen))))) ∧
     (cfgBiss (s.absPort n).cfg = true →
       exec (.absAckTimeout n) s = .next (s.absFail n 5) ∧
       (∀ ld, exec (.absNoStart n ld) s = .next ((s.fput (Reg.posAbsStat_ld n) ld.toNat).absFail n 4)) ∧
       (∀ ld, exec (.absBusyTimeout n ld) s = .next ((s.fput (Reg.posAbsStat_ld n) ld.toNat).absFail n 8))))

/-- R263 to R266: of an enabled incremental port one changed level counts up or down by its place in the order, two are illegal, and the
index edge follows; Z alone changes no count. The speed window and the time-out give the speed; CLRUNC clears the fault, REIDX arms the
next index edge. -/
def Obligations.QeiPorts : Prop :=
  ∀ (s : State) (n : Fin 4),
    (s.up → s.flag (Reg.posQeiCfg_en n) = true →
      let a0 := bitAt (s.fget (Reg.posQeiStat_lvl n)) 0
      let b0 := bitAt (s.fget (Reg.posQeiStat_lvl n)) 1
      (∀ z, exec (.qeiCountEdge n (!a0) (!b0) z) s = .next ((s.qeiIllegal n).qeiLevels n (!a0) (!b0) z)) ∧
      (∀ z, exec (.qeiCountEdge n (!a0) b0 z) s = .next
        (let neg := (a0 == b0) == s.flag (Reg.posQeiCfg_dirinv n)
         ((s.qeiCount n neg).feedCount n neg).qeiLevels n (!a0) b0 z)) ∧
      (∀ z, exec (.qeiCountEdge n a0 (!b0) z) s = .next
        (let neg := (a0 != b0) == s.flag (Reg.posQeiCfg_dirinv n)
         ((s.qeiCount n neg).feedCount n neg).qeiLevels n a0 (!b0) z)) ∧
      (∀ z, exec (.qeiIndexEdge n z) s = .next (s.qeiLevels n a0 b0 z)) ∧
      exec (.qeiSpeedWindow n) s = .next (s.qeiWindow n) ∧
      (let u := s.setQei n { s.qeiPort n with spdp := 0 }
       exec (.qeiSpeedTimeout n) s = .next (if u.flag (Reg.posQeiStat_smode n) then u.setSpd n 0 else u))) ∧
    (∀ p v, s.accepts p (Reg.posQeiCtrl n) v →
      let t := s.stored (Reg.posQeiCtrl n) v
      (fld v.toNat (Reg.posQeiCtrl_clrunc n) = 1 → fld v.toNat (Reg.posQeiCtrl_reidx n) = 0 →
        exec (.qeiClrunc p n v) s = .next (((t.setQeiUnc n false).fput (Reg.posQeiStat_iflt n) 0).setQei n
          { ((t.setQeiUnc n false).fput (Reg.posQeiStat_iflt n) 0).qeiPort n with ill := false })) ∧
      (fld v.toNat (Reg.posQeiCtrl_clrunc n) = 0 → fld v.toNat (Reg.posQeiCtrl_reidx n) = 1 →
        exec (.qeiReidx p n v) s =
          .next ((t.setQei n { t.qeiPort n with reidx := true }).fput (Reg.posQeiStat_iflt n) 0)))

/-- R76, R77, R271 to R288: a chop period of the enabled monitor, whose group is not in its start-up calibration, exchanges the
sources of the 3-wire channels, checks errors and windows, follows the roles served, advances the conversion and takes the next work;
during a pause it shows BLANKED, takes no sample, and still takes settings and work. The timers of die entries, of age, of
calibrations and of the sequence do their work.
R285: BLANK at its active level pauses an enabled input's sampling, its return sets the time at which sampling resumes and obeys the
pin again, and a level that stays too long is ignored and raises BLANK_STUCK. -/
def Obligations.MonitorPeriodsAndTimers : Prop :=
  (∀ (s : State), s.up →
     (∀ c, s.flag Reg.monCtrl_en = true → (s.grp 64).startup = [] →
       let t : State := { s with mon := { s.mon with swap := !s.mon.swap } }
       (s.flag Reg.monStat_blanked = false →
         (s.flag Reg.monBlank_en = false ∨ s.flag Reg.monStat_blank_ign = true ∨ s.blankActive = false) →
           exec (.chopPeriodBoundary c) s =
             .next ((((((t.monErrCheck c.err0 c.err1).windowChecks c.cm).monRate.newPeriod).convPeriod c).boundaryWork))) ∧
       (s.flag Reg.monBlank_en = true → s.flag Reg.monStat_blank_ign = false → s.blankActive = true →
         exec (.chopPeriodBoundary c) s = .next (((t.fputB Reg.monStat_blanked true).newPeriod).convPause.boundaryWork)) ∧
       (s.flag Reg.monStat_blanked = true → s.blankActive = false → s.mon.resumeAt ≤ s.sys.now →
         exec (.chopPeriodBoundary c) s = .next (((t.fputB Reg.monStat_blanked false).newPeriod).convPause.boundaryWork))) ∧
     (s.flag Reg.monCtrl_en = true →
       exec .dieEntryTimer s = .next { s with mon := { s.mon with dieDue := true } } ∧
       (s.fget Reg.monCtrl_cal_per ≠ 0 → s.flag Reg.monStat_cal_busy = false →
         exec .monCalPeriodic s = .next { s with mon := { s.mon with calReq := true } })) ∧
     (∀ n : Fin 16, s.fget Reg.monCtrl_age ≠ 0 → s.flag (Reg.monChRes_valid n) = true →
       exec (.monAgeStale n) s = .next ((s.setChan n { s.chan n with aged := true }).showStale n)) ∧
     (bitsAt s.seqCtl 28 2 = 3 → exec .monSeqPeriodic s = .next s.monTrigger) ∧
     (bitsAt s.seqCtl 28 2 ≠ 3 → exec .monSeqPeriodic s = .next s) ∧
     (bitAt s.seqCtl 30 = true → s.mon.inPass = false → s.monTrigger = { s with mon := { s.mon with trig := true } })) ∧
  (∀ (s : State), s.up →
     (let u : State := { s with mon := { s.mon with blank := !s.flag Reg.monBlank_pol } }
      exec .blankAssert s = .next (if s.flag Reg.monBlank_en then u.fput Reg.monStat_blanked 1 else u)) ∧
     exec .blankRelease s = .next
       (({ s with mon := { s.mon with blank := s.flag Reg.monBlank_pol, resumeAt := s.sys.now + 1000 * s.fget Reg.monBlank_hold } } :
         State).fput Reg.monStat_blank_ign 0) ∧
     (s.blankActive = true → s.flag Reg.monBlank_en = true → s.fget Reg.monBlank_max ≠ 0 → s.flag Reg.monStat_blank_ign = false →
       exec .blankStuck s = .next ((s.fput Reg.monStat_blank_ign 1).raise 0xE00B .warn 17 0)))

/-- R275, R277, R281, R282, R284, R288: CAL asks for a calibration, REQ triggers the sequence where the host does, GO puts an injected
conversion in its queue, LOAD loads a channel's polynomial at its next conversion; a changed setting makes the channel's result stale
and restarts its conversion. -/
def Obligations.MonitorWrites : Prop :=
  ∀ (s : State) (p : Path) (v : Word),
    (s.accepts p Reg.monCtrl v → fld v.toNat Reg.monCtrl_cal = 1 →
      exec (.monCalWrite p v) s = .next
        (let t := (s.stored Reg.monCtrl v).ageChanged (s.fget Reg.monCtrl_age)
         { t with mon := { t.mon with calReq := true } })) ∧
    (s.accepts p Reg.monSeqCtrl v → fld v.toNat Reg.monSeqCtrl_req = 1 →
      bitsAt (s.stored Reg.monSeqCtrl v).seqCtl 28 2 = 0 →
        exec (.monSeqReq p v) s = .next (((s.stored Reg.monSeqCtrl v).monTrigger).reclaim)) ∧
    (s.accepts p Reg.monInj v → fld v.toNat Reg.monInj_go = 1 →
      let t := s.stored Reg.monInj v
      exec (.monInject p v) s = .next
        (({ t with mon := { t.mon with
          inj := t.mon.inj ++ [(fld v.toNat Reg.monInj_ch, fld v.toNat Reg.monInj_notify == 1)] } } : State).fput
            Reg.monStat_inj_pend (t.mon.inj.length + 1))) ∧
    (∀ n : Fin 16, s.accepts p (Reg.monChCtrl n) v → fld v.toNat (Reg.monChCtrl_load n) = 1 →
      let t := s.stored (Reg.monChCtrl n) v
      exec (.monLoad p n v) s = .next (t.setChan n { t.chan n with load := true })) ∧
    (∀ n : Fin 16, s.accepts p (Reg.monChCfg n) v →
      let t := s.stored (Reg.monChCfg n) v
      (chanKey n (s.rget (Reg.monChCfg n)).toNat = chanKey n (t.rget (Reg.monChCfg n)).toNat →
        exec (.monConfigWrite p n false v) s = .next t) ∧
      (chanKey n (s.rget (Reg.monChCfg n)).toNat ≠ chanKey n (t.rget (Reg.monChCfg n)).toNat →
        exec (.monConfigWrite p n false v) s = .next
          (let u := t.monChanged n (s.monHeld n)
           if u.mon.calFirst || u.flag Reg.monStat_cal_busy then u else u.faultUpdate))) ∧
    (∀ n : Fin 16, s.accepts p (Reg.monChCmwin n) v →
      let t := s.stored (Reg.monChCmwin n) v
      s.rget (Reg.monChCmwin n) ≠ t.rget (Reg.monChCmwin n) →
        exec (.monConfigWrite p n true v) s = .next (t.monChanged n (s.monHeld n)))

/-- R295, R301, R305, R308, R338: the gap left open at a job's end closes with its watermark; the exporter takes the packet at ISSUE past
it and hands it to the port and queue pair that are due; with SINK set a read of LFF_SVC_DATA_0 takes the next word of a packet
at ISSUE, all ones with POISON where it is poisoned, the idle item where nothing is committed, and answers its low word. That the parity
failures come with the command (`flips`) is the model's choice (log entry 74). -/
def Obligations.FifoRows : Prop :=
  ∀ (s : State),
    (∀ g, s.up → s.lff.gap = some g → s.lff.closeDue = true → 4 ≤ s.freeItems →
      exec .gapCloseAfterJob s = .next
        (let u := ((s.gapClose g s.alloc).fput Reg.lffPtrAlloc_val (fAdv s.alloc 4)).fillGrew
         u.commitMarks u.lff.resv)) ∧
    (∀ flips p q kind len, s.up → s.flag Reg.lffCtrl_sink = false → s.issuePtr ≠ s.commitPtr → s.lff.ring.length < 4096 →
      s.wget Reg.hstLineIssue0 - s.wget Reg.hstLineCi0 < s.fget Reg.hstLineCount_lcount →
      s.issuePort (s.wget Reg.hstLineIssue0) = some p → s.linesSlot p = some q →
      (s.flip flips).kindLen s.issuePtr = some (kind, len) → (s.flip flips).headerPoisoned s.issuePtr = false →
        exec (.packetIssue flips) s = .next
          (let s := s.flip flips
           let h := s.fLoad s.issuePtr 64
           let line := leAt h 8 6
           let last := if kind = 0x57 then leAt h 48 6 else line
           let n := s.poisonedWords s.issuePtr (4 * len)
           let u := (s.reportPoison line n false).fput Reg.lffPtrIssue_val (fAdv s.issuePtr (4 * len))
           u.deliver p q { pos := s.issuePtr, items := 4 * len, line := line, port := p, released := false
                           idx := s.wget Reg.hstLineIssue0, wm := none, ord := 0, told := n != 0 } (nextLine (bitAt (leAt h 1 1) 1) last))) ∧
    (∀ p, s.reaches p → s.bare = false →
      (∀ flips, exec (.svcRead p flips) s = .next
        (let u := (s.flip flips).svcRead.latchAll p (Reg.lffSvcData 0) 4
         u.out (.value p (Reg.lffSvcData 0) (u.seen p (Reg.lffSvcData 0))))) ∧
      (s.flag Reg.lffCtrl_sink = false → s.svcRead = s) ∧
      (s.flag Reg.lffCtrl_sink = true → s.lff.svc = [] →
        let left := s.fget Reg.lffSvcStat_left
        let at' := s.issuePtr
        let latch (s : State) (b : List Byte) (stat : Nat) : State :=
          (s.each [0, 1, 2, 3] (fun k u => u.rput (Reg.lffSvcData k) (BitVec.ofNat 32 (leAt b (4 * k) 4)))).rput Reg.lffSvcStat
            (BitVec.ofNat 32 stat)
        let moves (s : State) : State :=
          let s := s.fput Reg.lffPtrIssue_val (fAdv at' 1)
          (if left = 1 then s.svcEnd else s).advanceFree
        (s.issuePtr = s.commitPtr → s.svcRead =
          (s.each [0, 1, 2, 3] (fun k u => u.rput (Reg.lffSvcData k) 0x454C4449)).rput Reg.lffSvcStat
            (BitVec.ofNat 32 (2 ^ 31 + left))) ∧
        (s.issuePtr ≠ s.commitPtr → left ≠ 0 →
          (s.poisonedItem s.issuePtr = false → s.svcRead = moves (latch s (s.fLoad s.issuePtr 16) (left - 1))) ∧
          (s.poisonedItem s.issuePtr = true → s.svcRead =
            moves (latch ({ s.bump Reg.lffCntPoison_val 1 with lff := { s.lff with svcBad := s.lff.svcBad + 1 } }) (List.replicate 16 0xFF) (2 ^ 30 + (left - 1))))))) ∧
    (∀ p v, s.accepts p Reg.lffCtrl v → exec (.sinkWrite p v) s = .next (s.stored Reg.lffCtrl v))

/-- R315, R319, R378: START arms a channel, claiming it for the host where nobody owns it, STOP ends a chain at once without a descriptor
in progress or held at its start and else at its next boundary; a timer's expiry triggers the channels that follow it; an EVO pulse ends.
R312 to R314, R317, R319 to R321: a descriptor that is owned, within the chain's limit, well formed and allowed becomes the channel's
current one, one not owned ends the chain, and a fetch comes with its grant; the arbiter grants the channel first in its order a burst; a descriptor that has moved all
its bytes, or met a poisoned word of its source, is reported, and the chain goes on, rests or halts. That a READ is answered with the
row that needs it and completion waits for outstanding WRITEs (log entry 84), that the report and the count come before a halt (log
entry 85), and that a poisoned burst writes nothing (log entry 74), are the model's choices. -/
def Obligations.DmaStartStopTrigger : Prop :=
  (∀ (s : State),
     (∀ p (c : Fin 32) v, s.accepts p (Reg.dmaChCtrl c) v →
       let t := (s.claimChannel c).stored (Reg.dmaChCtrl c) v
       (fld v.toNat (Reg.dmaChCtrl_start c) = 1 → fld v.toNat (Reg.dmaChCtrl_stop c) = 0 →
         exec (.dmaStart p c v) s = .next (t.dmaArm c .none)) ∧
       (fld v.toNat (Reg.dmaChCtrl_start c) = 0 → fld v.toNat (Reg.dmaChCtrl_stop c) = 1 →
         (t.chState c = 0 ∨ t.chState c = 5 → exec (.dmaStop p c v) s = .next t) ∧
         (t.chState c ≠ 0 → t.chState c ≠ 5 → (t.ch c).cur = none → (t.ch c).wait = none →
           exec (.dmaStop p c v) s = .next (t.dmaRest c true)) ∧
         (t.chState c ≠ 0 → t.chState c ≠ 5 → ((t.ch c).cur ≠ none ∨ (t.ch c).wait ≠ none) →
           exec (.dmaStop p c v) s = .next (t.setChState c 4)))) ∧
     (∀ t : Fin 8, s.up → s.flag (Reg.dmaTmr_en t) = true →
       exec (.dmaTimerExpiry t) s = .next (s.each (List.range 32) (fun c u =>
         if u.fget (Reg.dmaChCfg_trig c) = 1 ∧ u.fget (Reg.dmaChCfg_tmr c) = t.val then u.dmaTrigger c else u))) ∧
     (∀ k : Fin 4, s.up → exec (.evoPulseEnd k) s = .next
       { s with dma := { s.dma with evo := tput (fun _ => false) s.dma.evo k.val false } })) ∧
  (∀ (s : State), s.up →
     (∀ (c : Fin 32) (fetched : List Byte) at', (s.ch c).nextAt = some at' → isHost at' = true → (s.ch c).go = true →
       (s.ch c).cur = none → (s.ch c).wait = none →
       (s.dmaGrant ≠ some c.val → exec (.dmaDescStart c fetched) s = .next s) ∧
       (s.dmaGrant = some c.val → (memDesc (padTo 64 fetched)).own = false →
         exec (.dmaDescStart c fetched) s = .next (((s.dmaServed c).dmaRead c at' 64).dmaRest c false))) ∧
     (∀ (c : Fin 32) (fetched : List Byte), (s.ch c).nextAt = some 0 → (s.ch c).go = true → (s.ch c).cur = none →
       (s.ch c).wait = none →
       ((s.regDesc c).own = true → s.fget (Reg.dmaChCfg_clim c) ≠ 0 →
         s.fget (Reg.dmaChCfg_clim c) < (s.ch c).ndesc + 1 →
           exec (.dmaDescStart c fetched) s = .next (s.dmaHalt c 7)) ∧
       (let d := s.regDesc c
        let u := (s.fput (Reg.dmaChStat_ndesc c) (min ((s.ch c).ndesc + 1) 65535)).wput (Reg.dmaChCur0 c) 0
        let u := u.setCh c { s.ch c with ndesc := (s.ch c).ndesc + 1, moved := 0, dropped := 0, miss := none, discard := false, poison := false,
                                                wait := none }
        let w := u.useBanks c d.banks
        d.own = true → (s.ch c).ndesc + 1 ≤ s.fget (Reg.dmaChCfg_clim c) →
          (u.descOk d = false →
            exec (.dmaDescStart c fetched) s = .next ((u.fput (Reg.dmaChDone_val c) 0).dmaHalt c 2)) ∧
          (u.descOk d = true → isHost d.dst = true → w.chState c ≠ 4 → exec (.dmaDescStart c fetched) s = .next
            ((w.setCh c { w.ch c with cur := some (0, d) }).setChState c 2)) ∧
          (u.descOk d = true → isHost d.dst = false → d.op ≠ 2 → u.dstRule d.dst d.count = .wait →
            w.chState c ≠ 4 → exec (.dmaDescStart c fetched) s = .next ((w.setCh c { w.ch c with wait := some d }).setChState c 3)))) ∧
     (∀ c hostData poison, s.dmaGrant = some c →
       exec (.dmaBurstGrant hostData poison) s = .next (s.dmaBurst c hostData poison)) ∧
     (∀ (c : Fin 32) a d, (s.ch c).cur = some (a, d) → d.count ≤ (s.ch c).moved ∨ (s.ch c).poison = true →
       s.outstanding d = 0 →
       let r := (s.ch c).result d
       let t := (((s.dropUsers c).fput (Reg.dmaChDone_val c) ((s.ch c).moved - (s.ch c).dropped)).fput (Reg.dmaChResult_result c) r).bump
         (Reg.dmaChCnt_val c) 1
       let t := (t.dmaReport c a r d (s.ch c)).dmaFollow c
       let halts : Prop := r = 3 ∨ r = 6 ∨ (r = 1 ∧ d.som = true)
       (halts → exec (.dmaDescDone c) s = .next (t.dmaHalt c r)) ∧
       (¬ halts → t.chState c = 4 → exec (.dmaDescDone c) s = .next (t.dmaRest c true)) ∧
       (¬ halts → t.chState c ≠ 4 → d.next = 0 → exec (.dmaDescDone c) s = .next (t.dmaRest c false)) ∧
       (¬ halts → t.chState c ≠ 4 → d.next ≠ 0 → exec (.dmaDescDone c) s = .next (t.dmaNext c d.next))))

/-- R327, R351: a lost link starts LINK_HOLD, and a loss that lasts takes a port that is up down with cause LINK; one that ends earlier
realigns and sends again. Training gives the link back, 10 ms of it let the port try to come up; DOWN forces a port down, and the ports
follow MODE and PRIMARY. That LFAULT and RFAULT follow the loss of link (log entry 27) and the order of a port's STATE values (log entry 28) are
the model's choices.
R329, R330, R354: a received frame adds FEC's counts; a request for a port's own address is answered on its link with the VLAN tag,
a frame that the port does not accept and any other one are discarded and counted; a PFC frame of the port's priority pauses it and one
with time 0, or the time's end, lets the waiting frames go; a pause that lasts PFC_WD takes the port down with cause PFC. -/
def Obligations.LinksAndPorts : Prop :=
  (∀ (s : State) (p : Fin 2),
     (s.up →
       (s.flag (Reg.hstPortStat_link p) = true → ∀ remote, exec (.linkFault p remote) s = .next
         (let u := (s.fput (Reg.hstPortStat_link p) 0).fput
            (if remote then Reg.hstPortStat_rfault p else Reg.hstPortStat_lfault p) 1
          u.setPort p { u.port p with holding := true })) ∧
       ((s.port p).holding = true → s.flag (Reg.hstPortStat_link p) = false →
         (s.portState p = 2 → exec (.portLinkHoldExpiry p) s = .next (s.portDown p 1 0)) ∧
         (s.portState p = 1 → exec (.portLinkHoldExpiry p) s = .next
           ((s.setPort p { s.port p with holding := false, train := true }).fput (Reg.hstPortStat_state p) 0))) ∧
       ((s.port p).holding = true → exec (.pcsRealign p) s = .next
         (let u := ((s.fput (Reg.hstPortStat_link p) 1).fput (Reg.hstPortStat_lfault p) 0).fput (Reg.hstPortStat_rfault p) 0
          let u := u.setPort p { u.port p with holding := false }
          if u.portUp p then u.each ((portSlots p).filter (fun q => u.qpRts q && !u.qpMoved q)) (fun q u => u.resend q)
          else u)) ∧
       ((s.port p).train = true → s.portState p ≠ 3 → s.flag Reg.sysState_loaded = true →
         exec (.linkTrained p) s = .next
           (let u := ((s.fput (Reg.hstPortStat_link p) 1).fput (Reg.hstPortStat_lfault p) 0).fput (Reg.hstPortStat_rfault p) 0
            u.setPort p { u.port p with train := false, holding := false })) ∧
       (s.portState p < 2 → s.flag (Reg.hstPortStat_link p) = true →
         exec (.portSteady p) s = .next ((s.fput (Reg.hstPortStat_state p) 1).portTry p))) ∧
     (∀ (f : Path) v, s.accepts f (Reg.hstPortCtrl p) v →
       let t := s.stored (Reg.hstPortCtrl p) v
       (fld v.toNat (Reg.hstPortCtrl_down p) = 1 → s.flag (Reg.hstPortCtrl_down p) = false → t.portUp p = true →
         exec (.portForceDown f p v) s = .next (t.portDown p 4 0)) ∧
       (fld v.toNat (Reg.hstPortCtrl_down p) = 0 → exec (.portForceDown f p v) s = .next (t.portTry p))) ∧
     (∀ (f : Path) v, s.accepts f Reg.hstCtrl v →
       let t := s.stored Reg.hstCtrl v
       ((t.portMode ≠ s.portMode ∨ t.primary ≠ s.primary) →
         exec (.hstCtrlWrite f v) s = .next (t.portModes (t.portMode != s.portMode))) ∧
       (t.portMode = s.portMode → t.primary = s.primary → exec (.hstCtrlWrite f v) s = .next t))) ∧
  (∀ (s : State) (p : Fin 2), s.up →
     (s.flag (Reg.hstPortStat_link p) = true → exec (.frameDiscard p) s = .next (s.bump (Reg.hstPortRxdisc_val p) 1)) ∧
     (∀ f, s.flag (Reg.hstPortStat_link p) = true →
       let u := s.received p f
       u.flag (Reg.hstPortStat_link p) = true → u.rxAccepts p f = false →
         let d : Host.Outcome State Fault Refusal := .next (u.bump (Reg.hstPortRxdisc_val p) 1)
         (∀ target mac ip, exec (.arpRequest p f target mac ip) s = d) ∧
         (∀ target mac ip, exec (.neighbourSolicit p f target mac ip) s = d) ∧
         (∀ prio quanta, exec (.pfcFrame p f prio quanta) s = d)) ∧
     (∀ f, s.takesFrame p f →
       let u := s.received p f
       (∀ (target : Word) (mac : BitVec 48) (ip : Word),
         (target.toNat = u.portIp4 p → exec (.arpRequest p f target mac ip) s =
           .next (u.emit p (.arp p u.vlanTag true mac.toNat (u.portMac p) (u.portIp4 p) mac.toNat ip.toNat))) ∧
         (target.toNat ≠ u.portIp4 p →
           exec (.arpRequest p f target mac ip) s = .next (u.bump (Reg.hstPortRxdisc_val p) 1))) ∧
       (∀ (target : BitVec 128) (mac : BitVec 48) (ip : BitVec 128),
         (target.toNat = u.portIp6 p → exec (.neighbourSolicit p f target mac ip) s =
           .next (u.emit p (.nadv p u.vlanTag mac.toNat ip.toNat (u.portMac p) target.toNat true))) ∧
         (target.toNat ≠ u.portIp6 p →
           exec (.neighbourSolicit p f target mac ip) s = .next (u.bump (Reg.hstPortRxdisc_val p) 1))) ∧
       (∀ (prio : BitVec 3) (quanta : BitVec 16), prio.toNat = u.fget Reg.hstNet_pcp →
         (quanta ≠ 0 → u.flag (Reg.hstPortStat_paused p) = false → exec (.pfcFrame p f prio quanta) s =
           .next ((u.setPort p { u.port p with pausedAt := u.sys.now }).fput (Reg.hstPortStat_paused p) 1)) ∧
         (quanta = 0 → exec (.pfcFrame p f prio quanta) s = .next (u.pauseEnd p)))) ∧
     (s.flag (Reg.hstPortStat_paused p) = true →
       exec (.pfcPauseExpiry p) s = .next
         ((s.port p).held.foldl State.out
           ((s.setPort p { s.port p with held := [], pausedNs := s.pauseTime p }).fput (Reg.hstPortStat_paused p) 0)) ∧
       (s.portUp p = true → s.fget Reg.hstNet_pfc_wd ≠ 0 → exec (.pfcStall p) s = .next
         ((s.raise 0x2005 .warn p (pf 24 4 ((s.sys.now - (s.port p).pausedAt) / 1000))).portDown p 3 0))))

/-- R329, R332, R333, R334, R352: of the packets that a port accepts for an enabled slot, an acknowledgement frees what it covers; a NAK of sequence and a time-out are failed attempts, the eighth
of which in a row is an error, any other NAK is an error, and a packet for a slot that is not enabled is discarded and counted; RESET brings a slot back; CNP and the two timers move the rate by the rule of
R334. -/
def Obligations.QueuePairs : Prop :=
  ∀ (s : State) (q : Fin 16),
    (s.up → ∀ f, s.takesFrame (slotPort q) f → (s.received (slotPort q) f).qpOn q = false →
      let d : Host.Outcome State Fault Refusal :=
        .next ((s.received (slotPort q) f).bump (Reg.hstPortRxdisc_val (slotPort q)) 1)
      (∀ psn, exec (.ackReceive q f psn) s = d) ∧ (∀ c psn, exec (.nakReceive q f c psn) s = d) ∧
      (∀ x, exec (.readResponse q f x) s = d) ∧ exec (.cnpReceive q f) s = d) ∧
    (s.up → ∀ (f : RxFrame) (psn : BitVec 24), s.takesFrame (slotPort q) f →
      let s' := s.received (slotPort q) f
      s'.qpOn q = true → (s'.qp q).acked = none →
      psnGe psn.toNat (((s'.qp q).msgs.map (·.psn)).headD (s'.fget (Reg.qptQpPsn_psn q))) = true →
      psnGe psn.toNat (s'.fget (Reg.qptQpPsn_psn q)) = false →
      exec (.ackReceive q f psn) s = .next
        (let x := s'.qp q
         let u := (s'.fput (Reg.qptQpAckpsn_psn q) psn.toNat).fput (Reg.qptQpStat_run q) 0
         let u := (x.msgs.filter (fun m => psnGe psn.toNat m.last)).foldl (fun u m =>
           match m.body with
           | .header i => u.release (slotPort q) i
           | .ev0 e _ _ => { u with evq := { u.evq with flying := u.evq.flying.filter (· != e) } }
           | _ => u) u
         let u := u.setQp q { u.qp q with
           acked := some psn.toNat
           msgs := x.msgs.filter (fun m => !psnGe psn.toNat m.last || u.keepsMsg m) }
         u.statusWaiters.advanceFree)) ∧
    (s.up → ∀ f psn, s.takesFrame (slotPort q) f →
      let s' := s.received (slotPort q) f
      s'.qpOn q = true → s'.qpRts q = true →
      (let u := s'.bump (Reg.qptQpRetry_seqnaks q) 1
       let r := u.fget (Reg.qptQpStat_run q)
       (r = 7 → exec (.nakReceive q f .seqErr psn) s = .next (u.qpError q 1)) ∧
       (r ≠ 7 → exec (.nakReceive q f .seqErr psn) s = .next ((u.fput (Reg.qptQpStat_run q) (r + 1)).resend q))) ∧
      exec (.nakReceive q f .remoteAccess psn) s = .next (s'.qpError q 2) ∧
      exec (.nakReceive q f .remoteOperational psn) s = .next (s'.qpError q 3) ∧
      exec (.nakReceive q f .invalidRequest psn) s = .next (s'.qpError q 4) ∧
      exec (.nakReceive q f .rnr psn) s = .next (s'.qpError q 5)) ∧
    (s.up →
      let v := if s.sends q then s.readsShow q else s
      v.qpRts q = true → v.portUp (slotPort q) = true → (v.qp q).reads ≠ [] →
        exec (.qpAckTimeout q) s = .next ((v.bump (Reg.qptQpRetry_timeouts q) 1).qpFailed q)) ∧
    (∀ (f : Path) v, s.accepts f (Reg.qptQpCtrl q) v → fld v.toNat (Reg.qptQpCtrl_reset q) = 1 →
      exec (.qpReset f q v) s = .next ((s.stored (Reg.qptQpCtrl q) v).slotReset q)) ∧
    (s.up → s.qpOn q = true → s.flag Reg.qptEcn1_en = true →
      (∀ f, s.takesFrame (slotPort q) f →
       let u := (s.received (slotPort q) f).bump (Reg.qptQpCnp_val q) 1
       let x := u.qp q
       let r := u.fget (Reg.qptQpRate_r q)
       (s.received (slotPort q) f).qpOn q = true → u.flag Reg.qptEcn1_en = true → x.react = none →
       exec (.cnpReceive q f) s = .next
         (((u.fput (Reg.qptQpRate_rt q) r).fput (Reg.qptQpRate_r q)
           (max (r - r * x.alpha / 2 ^ 17) (u.fget Reg.qptEcn1_rmin))).setQp q
             { x with alpha := x.alpha + (65536 - x.alpha) / 2 ^
                 ((u.fput (Reg.qptQpRate_rt q) r).fput (Reg.qptQpRate_r q)
                   (max (r - r * x.alpha / 2 ^ 17) (u.fget Reg.qptEcn1_rmin))).fget Reg.qptEcn0_g
                      n := 0, react := some u.sys.now })) ∧
      exec (.ecnAlphaTimer q) s = .next (s.setQp q { s.qp q with
        alpha := (s.qp q).alpha - (s.qp q).alpha / 2 ^ s.fget Reg.qptEcn0_g }) ∧
      (let x := s.qp q
       let rt := if 5 < x.n + 1 then min (s.fget (Reg.qptQpRate_rt q) + s.fget Reg.qptEcn0_rai) s.rateMax
         else s.fget (Reg.qptQpRate_rt q)
       exec (.ecnRateTimer q) s = .next
         (((s.setQp q { x with n := x.n + 1 }).fput (Reg.qptQpRate_rt q) rt).fput (Reg.qptQpRate_r q)
           (min ((s.fget (Reg.qptQpRate_r q) + rt + 1) / 2) s.rateMax))))

/-- R327, R335, R339, R341, R344: a poll reads the credits and, with entries to come, up to 8 command entries to the ring's end; an
unanswered one is counted; the standby port reads the credits; the status block is written to the control region; an event is written
when the ring has room and waits otherwise, and one written with LOST brings EVQ_LOST into the queue where a WARN record still has room
and is one more lost event where not; the credits that a READ brings are taken. The command entries that a READ brings are taken in
order while their phase is that of their index: one whose CHECK fails ends the batch the first and the second time and is taken as bad
the third; with entries taken the status block is written, and the ring goes on. -/
def Obligations.PollsAndEvents : Prop :=
  ∀ (s : State),
    (∀ q, s.controlled → s.ctrlQp = some q →
      (s.pollOpen = true → exec .poll s = .next (s.bump Reg.hstPollSkip_val 1)) ∧
      (s.pollOpen = false →
        let u := s.postRead q .credits
        let n := u.fget Reg.cmdCount_ccount
        ((u.flag Reg.cmdCtrl_pause = true ∨ n = 0) → exec .poll s = .next u) ∧
        (u.flag Reg.cmdCtrl_pause = false → n ≠ 0 → exec .poll s = .next
          ((u.postRead q (.cmds (u.wget Reg.cmdCi0) (min 8 (n - u.wget Reg.cmdCi0 % n)))).fput Reg.cmdStat_fetch 1)))) ∧
    (∀ q, s.controlled → s.portMode = 1 → s.portUp (1 - s.hst.active) = true → s.ctrlSlot (1 - s.hst.active) = some q →
      (s.qp q).reads.length < 8 → exec .standbyPoll s = .next (s.postRead q .standby)) ∧
    (s.controlled → exec .statusBlockTimer s = .next (s.ctlWrite 0x40 (padTo 64
      (leBytes 8 (s.wget Reg.cmdCi0) ++ leBytes 8 s.sys.now ++ leBytes 6 (s.wget Reg.lffLastCommit0) ++
        leBytes 2 (s.rget Reg.sysState).toNat ++ leBytes 4 (s.rget Reg.sysSafeCause).toNat)))) ∧
    (∀ e rest, s.controlled → s.evq.head = some (e, rest) →
      (s.ctrlQp = none → exec .eventWrite s = .next (s.fput Reg.evqStat_wait 1)) ∧
      (∀ q, s.ctrlQp = some q → s.fget Reg.evqCount_ecount ≤ s.wget Reg.evqPi0 - s.wget Reg.evqCi0 →
        exec .eventWrite s = .next (s.fput Reg.evqStat_wait 1)) ∧
      (∀ q, s.ctrlQp = some q → s.wget Reg.evqPi0 - s.wget Reg.evqCi0 < s.fget Reg.evqCount_ecount →
        exec .eventWrite s = .next
          (let i := s.wget Reg.evqPi0
           let n := s.fget Reg.evqCount_ecount
           let b := e.bytes (i / n % 2 == 0) (s.flag Reg.evqStat_lost) (s.fget Reg.evqStat_seq)
           let off := s.regionKey (slotPort q) 48 4 + 32 * (i % n)
           let fits := s.flag Reg.evqStat_lost && decide (s.evq.taken < Sev.warn.room)
           let u : State := { s with evq := { s.evq with
             staged := if fits then s.lostRecord :: rest else rest
             flying := s.evq.flying ++ [i], lost := if fits then 0 else s.evq.lost } }
           let u := (if s.flag Reg.evqStat_lost = true ∧ fits = false then u.loseEvent else u.fput Reg.evqStat_lost 0).fput
             Reg.evqStat_seq (s.fget Reg.evqStat_seq + 1)
           let u := (u.wput Reg.evqPi0 (i + 1)).post q (.ctl (off + 1) (b.drop 1))
           let u := u.post q (.ev0 i off (b.headD 0))
           u.fputB Reg.evqStat_wait u.evqFull))) ∧
    (∀ (q : Fin 16) f d, s.up → s.takesFrame (slotPort q) f →
      let s' := s.received (slotPort q) f
      s'.qpOn q = true → (s'.qp q).reads.find? (fun d => d.kind.polls) = some d →
      let u := (s'.readsLeft q ((s'.qp q).reads.erase d)).fput (Reg.qptQpStat_run q) 0
      (∀ x y : BitVec 64, d.kind = .credits →
        exec (.readResponse q f (.credits x y)) s = .next ((u.creditLine x.toNat).creditEvent y.toNat)) ∧
      (∀ es, d.kind = .standby → exec (.readResponse q f es) s = .next u) ∧
      (∀ first es, d.kind = .cmds first es.length → (∀ e ∈ es, e.length = 64) →
        let w := u.fput Reg.cmdStat_fetch 0
        let t := w.takeEntries es
        (first ≠ w.wget Reg.cmdCi0 → exec (.readResponse q f (.entries es)) s = .next w) ∧
        (first = w.wget Reg.cmdCi0 → t.wget Reg.cmdCi0 = first →
          exec (.readResponse q f (.entries es)) s = .next t.cmdNext) ∧
        (first = w.wget Reg.cmdCi0 → t.wget Reg.cmdCi0 ≠ first →
          exec (.readResponse q f (.entries es)) s = .next t.statusBlock.cmdNext))) ∧
    (∀ (t : State) b r,
      let phase := bitAt (leAt b 0 1) 7 = cmdPhase (t.fget Reg.cmdCount_ccount) (t.wget Reg.cmdCi0)
      let u := t.bump Reg.cmdCntCheck_val 1
      (¬ phase → t.takeEntries (b :: r) = t) ∧
      (phase → crc32c (b.take 60) = leAt b 60 4 → t.takeEntries (b :: r) = (t.takeEntry b false).takeEntries r) ∧
      (phase → crc32c (b.take 60) ≠ leAt b 60 4 →
        (u.fget Reg.cmdStat_retry < 2 → t.takeEntries (b :: r) = u.fput Reg.cmdStat_retry (u.fget Reg.cmdStat_retry + 1)) ∧
        (2 ≤ u.fget Reg.cmdStat_retry → t.takeEntries (b :: r) = (u.takeEntry b true).takeEntries r)))

/-- R345, R346, R347: a command at the head of the ring is carried out: NOP is done at once, REG_WRITE carries its writes out in order and
answers which were refused, REG_READ answers its values in the control region or an event, TABLE_LOAD arms the lowest idle channel that
it owns, INDICATE sets a pattern engine; an unknown opcode is refused with reason 7. That a reserved FLAGS bit is refused with reason 7
(log entry 17), and a REG_WRITE with n outside 1 to 6 with reason 1 (log entry 18), are the model's choices. -/
def Obligations.RingCommands : Prop :=
  ∀ (s : State) (e : CmdEntry) (r : List Taken),
    (s.atHead 0 e r → exec (.nop e) s = .next (((s.popped r).cmdFinish 0 e 0).cmdNext)) ∧
    (s.atHead 1 e r →
      ((writeCount e = 0 ∨ 6 < writeCount e) → exec (.regWrite e) s = .next (((s.popped r).cmdRefuse 1 e 1 0).cmdNext)) ∧
      (writeCount e ≠ 0 → writeCount e ≤ 6 →
        let x := ((s.popped r).cmdAccept 1 e).ringWrites 0 0 (writeList e)
        (x.1.cmd.stopped = true → exec (.regWrite e) s = .next x.1.cmdNext) ∧
        (x.1.cmd.stopped = false → exec (.regWrite e) s = .next ((x.1.cmdDone 1 e (pf 23 1 x.2)).cmdNext)))) ∧
    (s.atHead 2 e r → readCount e ≠ 0 → readCount e ≤ 8 →
      let x := ((s.popped r).cmdAccept 2 e).ringReads (readList e)
      (readOffset e = 0xFFFFFFFF → readCount e = 1 → exec (.regRead e) s = .next
        ((x.2.cmdDoneEvent 2 e.tag.toNat (pf 24 4 ((x.1.map (·.toNat)).headD 0))).cmdNext)) ∧
      (readOffset e % 64 = 0 → readOffset e + 64 ≤ (s.popped r).ctlSize → exec (.regRead e) s = .next
        (((x.2.ctlPost (readOffset e) (padTo 60 (x.1.flatMap (fun w => leBytes 4 w.toNat)) ++ leBytes 2 e.tag.toNat ++
          zeros 2)).cmdDone 2 e 0).cmdNext))) ∧
    (s.atHead 7 e r →
      ((s.popped r).loadOk e = false → exec (.tableLoad e) s = .next (((s.popped r).cmdRefuse 7 e 1 0).cmdNext)) ∧
      ((s.popped r).loadOk e = true → (s.popped r).loadChannel = none →
        exec (.tableLoad e) s = .next (((s.popped r).cmdRefuse 7 e 3 0).cmdNext)) ∧
      (∀ c, (s.popped r).loadOk e = true → (s.popped r).loadChannel = some c → exec (.tableLoad e) s = .next
        (let u := (s.popped r).cmdAccept 7 e
         let u := ((u.wput (Reg.dmaChSrc0 c) (loadSrc e)).wput (Reg.dmaChDst0 c) (loadDst e)).wput (Reg.dmaChNext0 c) 0
         let u := u.rput (Reg.dmaChCount c) (BitVec.ofNat 32 (loadCount e))
         let u := ((u.fput (Reg.dmaChCtrl_op c) 0).fput (Reg.dmaChCtrl_som c) 0).fput (Reg.dmaChCtrl_notify c) 0
         let u := u.dmaArm c (.tableLoad e.tag.toNat e.flags.toNat)
         ((u.setCh c { u.ch c with go := true }).useBanks c (u.regDesc c).banks).cmdNext))) ∧
    (s.atHead 0x0B e r → s.isSafe = false → cmdArg e 0 &&& 0x00FF1313 = cmdArg e 0 → cmdArg e 6 &&& 0x007F017F = cmdArg e 6 →
      (bitsAt (cmdArg e 0) 8 2 = 2 ∨ bitsAt (cmdArg e 1) 16 16 ≠ 0) → exec (.indicate e) s = .next
        (let x := bitsAt (cmdArg e 0) 0 2
         let u := (((s.popped r).fput (Reg.indEngCfg_en x) (bitsAt (cmdArg e 0) 4 1)).fput (Reg.indEngCfg_type x)
           (bitsAt (cmdArg e 0) 8 2)).fput (Reg.indEngCfg_src x) (bitsAt (cmdArg e 0) 12 1)
         let u := (u.fput (Reg.indEngCfg_level x) (bitsAt (cmdArg e 0) 16 8)).rput (Reg.indEngTime x)
           (BitVec.ofNat 32 (cmdArg e 1))
         let u := ((u.fput (Reg.indEngArg_len x) (bitsAt (cmdArg e 6) 16 7)).fput (Reg.indEngArg_dir x)
           (bitsAt (cmdArg e 6) 8 1)).fput (Reg.indEngArg_p x) (bitsAt (cmdArg e 6) 0 7)
         let u := u.each (List.range 4) (fun k u => u.rput (Reg.indEngMask x k) (BitVec.ofNat 32 (cmdArg e (2 + k))))
         ((u.engRestart x).cmdFinish 11 e 0).cmdNext)) ∧
    (∀ op : Byte, 0x0E ≤ op.toNat → s.atHead op.toNat e r →
      exec (.unknownOpcode op e) s = .next (((s.popped r).cmdRefuse op.toNat e 7 0).cmdNext)) ∧
    (s.controlled → s.ringOpen = true → s.cmd.taken = { op := 0, entry := e, bad := false } :: r → cmdFlagsBad e = true →
      exec (.nop e) s = .next (((s.popped r).cmdRefuse 0 e 7 0).cmdNext))

/-- R358, R360, R383, R386, R390, R416: RST_N, power and the reset code cause a reset, which takes effect later: everything but the fuses,
the levels at pins and what has been sent is at its reset value, and the device is held; a device reset keeps cause DEBUG, the key cut
and the open debug port. CFG_RESET takes its code alone. A power-on reset lasts until no brownout holds, every rail is in its window and
REFCLK has run for 100 µs (R418); the release starts device time, samples the straps, senses the fuses and evaluates the levels that
cause SAFE. A brownout holds the device in power-on reset until its rails are back. -/
def Obligations.Resets : Prop :=
  ∀ (s : State),
    exec .powerOnReset s = .next { s with cfg := { s.cfg with due := some true } } ∧
    (s.cfg.due = none → exec .resetPin s = .next { s with cfg := { s.cfg with due := some false } }) ∧
    (∀ p v, s.accepts p Reg.cfgReset v → exec (.cfgReset p v) s = .next
      (if v = 0xA5A55A5A then (s.stored Reg.cfgReset v).deviceReset p else s.stored Reg.cfgReset v)) ∧
    ((s.cfg.due = some true ∨ (s.cfg.due = some false ∧ bitAt (s.fget Reg.sysSafeCause_val) 2 = false)) → ∃ t,
      exec .resetApply s = .next t ∧ t.regs = State.reset.regs ∧ t.mem = State.reset.mem ∧ t.pend = State.reset.pend ∧
      t.cfg.held = true ∧ t.cfg.due = none ∧ t.sec.fuses = s.sec.fuses ∧ t.sec.keys = none ∧ t.evq = State.reset.evq) ∧
    (s.cfg.due = some false → bitAt (s.fget Reg.sysSafeCause_val) 2 = true → ∃ t,
      exec .resetApply s = .next t ∧ t.isSafe = true ∧ bitAt (t.fget Reg.sysSafeCause_val) 2 = true ∧
      t.fget Reg.secStat_keycut = s.fget Reg.secStat_keycut ∧ t.fget Reg.dbgStat_open = s.fget Reg.dbgStat_open) ∧
    (∀ vsel (addr : BitVec 3) refUs, s.cfg.held = true → s.cfg.brownout = false →
      (s.cfg.powerOn = true → s.sys.railsOut = [] ∧ s.sys.refOut = false ∧ 100 ≤ refUs) →
      exec (.resetRelease vsel addr refUs) s = .next
        (((({ s with
          cfg := { s.cfg with held := false }, sys := { s.sys with now := 0 }
          sec := { s.sec with pkhNow := s.sec.pkh } } : State).fputB Reg.cfgNor_vsel vsel).fput Reg.twbStat_addr
            (0x58 + addr.toNat % 8)).fput Reg.cfgStat_step 1 |>.levelCauses)) ∧
    (∀ vsel (addr : BitVec 3) refUs, s.cfg.brownout = true ∨ (s.cfg.powerOn = true ∧
      (s.sys.railsOut ≠ [] ∨ s.sys.refOut = true ∨ refUs < 100)) → exec (.resetRelease vsel addr refUs) s = .next s) ∧
    (∀ io, ∃ t, exec (.brownoutHold io) s = .next t ∧ t.cfg.held = true ∧ t.cfg.brownout = true ∧ t.cfg.powerOn = true ∧
      t.sec.fuses = s.sec.fuses ∧ t.regs = State.reset.regs ∧ (if io then Rail.io33 else Rail.core) ∈ t.sys.railsLow) ∧
    exec .brownoutRelease s = .next { s with
      cfg := { s.cfg with brownout := false }
      sys := { s.sys with railsLow := s.sys.railsLow.filter (fun r => r != .io33 && r != .core) } }

/-- R360, R361, R363, R377, R379, R380: the flash is reset and brought to its read mode; plausible copies are read by SEQ, A before B,
the others fail; a copy is read in bursts of at most 4,096 bytes; one that fails is asked for again 3 times, then the clock halves down
to 25 MHz and reading goes on from that burst, then the copy fails; a copy that passes
leaves its tables stored and takes effect, one with conflicting claims gives the host link alone, one that fails after checks 1 to 3
leaves its tables zeroed and leads to the next; READY ends the start-up. That a header under 128 bytes fails with cause 9, the stop at a
cut key and the failure of a burst before step 4 (log entry 20), and the tables that stay stored (log entry 70), are the model's
choices. -/
def Obligations.ImageLoading : Prop :=
  ∀ (s : State), s.controlled →
    (s.fget Reg.cfgStat_step = 1 →
      (s.cfg.asked = 0 → s.askTo 1 =
        (let u := ((s.out .xspiReset).out (.xspi [0x66, 0x99])).out (.xspi [0x5A])
         { u with cfg := { u.cfg with asked := 1 } })) ∧
      (∀ dens (x : XspiProfile), exec (.flashReady dens (some x)) s = .next
        (let u := s.askTo 1
         let u := ({ u with cfg := { u.cfg with asked := 0 } } : State).fput Reg.cfgNor_dens dens
         let u := x.enter.foldl (fun u w => u.out (.xspi (w.map (fun b => b.toNat)))) u
         let u : State := { u with cfg := { u.cfg with readBy := (x.read.map (fun b => b.toNat), x.dummy) } }
         ((u.fput Reg.cfgNor_mhz (min 200 x.mhz)).fput Reg.cfgNor_mode 2).fput Reg.cfgStat_step 4)) ∧
      (∀ dens, exec (.flashReady dens none) s = .next
        (let u := s.askTo 1
         let u := ({ u with cfg := { u.cfg with asked := 0 } } : State).fput Reg.cfgNor_dens dens
         let u : State := { u with cfg := { u.cfg with readBy := ([0x13], 0) } }
         ((u.fput Reg.cfgNor_mhz 25).fput Reg.cfgNor_mode 1).fput Reg.cfgStat_step 4))) ∧
    (∀ x y, s.fget Reg.cfgStat_step = 4 →
      let u := s.askTo 2
      let len (h : List Byte) : Nat := if s.headerCause h = 0 ∧ s.keyOk h = true then imgLen h else 0
      let seq (h : List Byte) : Nat := if h.length < 128 then 0 else imgSeq h
      let u : State := { u with cfg := { u.cfg with seqs := [seq x, seq y], lens := [len x, len y] } }
      (s.headerCause x = 0 → s.headerCause y = 0 →
        exec (.imageHeadersRead x y) s = .next (u.nextCopy (if imgSeq x < imgSeq y then [1, 0] else [0, 1]))) ∧
      (s.headerCause x = 0 → s.headerCause y ≠ 0 → exec (.imageHeadersRead x y) s = .next
        ((u.copyBad 1 (s.headerCause y) 255).nextCopy [0])) ∧
      (s.headerCause x ≠ 0 → s.headerCause y = 0 → exec (.imageHeadersRead x y) s = .next
        ((u.copyBad 0 (s.headerCause x) 255).nextCopy [1])) ∧
      (s.headerCause x ≠ 0 → s.headerCause y ≠ 0 → exec (.imageHeadersRead x y) s = .next
        (((u.copyBad 0 (s.headerCause x) 255).copyBad 1 (s.headerCause y) 255).nextCopy []))) ∧
    (∀ burst : BitVec 32, s.fget Reg.cfgStat_step ≠ 0 → s.fget Reg.cfgStat_step ≤ 6 → s.flag Reg.sysState_loaded = false →
      let done := if s.cfg.failAt = some burst.toNat then s.cfg.repeats else 0
      let i := s.burstAt burst.toNat
      let u := s.askTo (i + 1)
      let fails (r : Nat) : State := { u with cfg := { u.cfg with failAt := some burst.toNat, repeats := r } }
      (done < 3 → exec (.flashBurstFail burst) s = .next ((fails (done + 1)).askBurst i)) ∧
      (3 ≤ done → 25 < s.fget Reg.cfgNor_mhz → exec (.flashBurstFail burst) s = .next
        (((fails 0).fput Reg.cfgNor_mhz (max 25 (s.fget Reg.cfgNor_mhz / 2))).askBurst i)) ∧
      (3 ≤ done → s.fget Reg.cfgNor_mhz ≤ 25 → 4 ≤ s.fget Reg.cfgStat_step →
        exec (.flashBurstFail burst) s = .next (u.copyFails 9 255)) ∧
      (3 ≤ done → s.fget Reg.cfgNor_mhz ≤ 25 → s.fget Reg.cfgStat_step < 4 →
        exec (.flashBurstFail burst) s = .next (((u.copyBad 0 9 255).copyBad 1 9 255).nextCopy []))) ∧
    (∀ c l i, s.cfg.order = c :: l → 4 < s.fget Reg.cfgStat_step → s.askBurst i =
      s.out (.xspiRead s.cfg.readBy.1 s.cfg.readBy.2 (s.copyBase c + 4096 * i) (min 4096 (s.cfg.lens.getD c 0 - 4096 * i)))) ∧
    (∀ image readOk c l, s.cfg.order = c :: l →
      let u := s.askTo s.burstCount
      exec (.imageCopyVerified image readOk) s = .next
        (match s.copyCheck image readOk with
         | .inl (cause, i) => ((if 4 ≤ cause then u.tablesZeroed image else u).copyBad c cause i).nextCopy l
         | .inr none => (u.tablesStored image).loadStops.safeOutputs
         | .inr (some b) =>
           match imageClaims (claimEntries (bodyOf b 2)) (regGet b) with
           | (_, some k) => (u.tablesStored image).applyConflict c image b k
           | (claims, none) => (u.tablesStored image).applyImage c image b claims)) ∧
    (s.flag Reg.sysState_loaded = true → s.flag Reg.cfgStat_ready = false → s.flag Reg.adcStat_start_done = true →
      s.cfg.segsDone = true → (∀ z < 64, s.zoneEn z = true → s.zoneState z ≠ 0) → s.shd.check.contains 1 = false →
        exec .startupComplete s = .next
          (let u := (s.fput Reg.cfgStat_ready 1).fput Reg.cfgStat_step 10
           if u.isSafe then u else { u with sys := { u.sys with faultNLow := false } }))

/-- R384: a write of SEC_FUSE_CTRL with its key and an operation starts it with the data words as they stand; without, it starts
nothing. Read back well it sets FDONE and burns the fuses of its kind and no others: with 1 the bits of PKH, with 2 the SVN floor,
with 3 DBGLOCK; read back ill it sets FERR. R385: GO zeroes IV, tag and the buffer from P on; sealing ends with a fresh IV, the
ciphertext in place, the tag and DONE, under the device-unique key, or with the key cut under one that nothing states (log entry 11).
R386: ZEROISE takes its code alone; it enters SAFE with cause FORCE, and once the record is known the key store is zeroised. -/
def Obligations.FusesSealZeroise : Prop :=
  ∀ (s : State),
    (∀ p v, s.accepts p Reg.secFuseCtrl v → exec (.fuseOperation p v) s = .next
      (let t := s.stored Reg.secFuseCtrl v
       if fld v.toNat Reg.secFuseCtrl_key = 0xF05E ∧ fld v.toNat Reg.secFuseCtrl_op ≠ 0 then
         { t with sec := { t.sec with burning := some (fld v.toNat Reg.secFuseCtrl_op,
           (List.range 8).map (tget (fun _ => 0) t.sec.fuseData)) } }
       else t)) ∧
    (s.controlled → s.sec.burning = none → ∀ ok, exec (.fuseDone ok) s = .next s) ∧
    (∀ op data, s.controlled → s.sec.burning = some (op, data) →
      let u : State := { s with sec := { s.sec with burning := none } }
      exec (.fuseDone false) s = .next (u.fput Reg.secStat_ferr 1) ∧
      (op = 1 → exec (.fuseDone true) s =
        .next (({ u with sec := { u.sec with
          pkh := List.zipWith (· ||| ·) u.sec.pkh (data.flatMap (fun w => leBytes 4 w.toNat)) } } : State).fput
            Reg.secStat_fdone 1)) ∧
      (op = 2 → exec (.fuseDone true) s =
        .next (({ u with sec := { u.sec with
          svn := u.sec.svn ||| (2 ^ ((data.headD 0).toNat % 64) - 1) % 2 ^ 32 } } : State).fput Reg.secStat_fdone 1)) ∧
      (op = 3 → exec (.fuseDone true) s =
        .next (({ u with sec := { u.sec with dbglock := true } } : State).fput Reg.secStat_fdone 1))) ∧
    (∀ p v, s.accepts p Reg.secSealCtrl v → exec (.seal p v) s = .next
      (if fld v.toNat Reg.secSealCtrl_go = 1
        then ((s.stored Reg.secSealCtrl v).sealClear (fld v.toNat Reg.secSealCtrl_p)).fput Reg.secSealCtrl_busy 1
        else s.stored Reg.secSealCtrl v)) ∧
    (s.controlled → s.flag Reg.secSealCtrl_busy = true → exec .sealDone s = .next
      (let n := s.fget Reg.secSealCtrl_p
       let iv := leBytes 12 (Config.sealRandom s.fresh).toNat
       let key := if s.flag Reg.secStat_keycut then (List.range 32).map Config.cutKey else s.sec.duk
       let r := gcmSeal key iv (leBytes 1 (s.fget Reg.secSealCtrl_type) ++ zeros 3 ++ leBytes 4 n) (s.sealBuf n)
       let u : State := { s with fresh := s.fresh + 1 }
       let u := u.each (List.range 3) (fun i u => u.rput (Reg.secSealIv i) (BitVec.ofNat 32 (leAt iv (4 * i) 4)))
       let u := u.each (List.range 4) (fun i u => u.rput (Reg.secSealTag i) (BitVec.ofNat 32 (leAt r.2 (4 * i) 4)))
       let u := u.each (List.range (n / 4)) (fun w u => u.rput (Reg.secSealBuf w) (BitVec.ofNat 32 (leAt r.1 (4 * w) 4)))
       (u.fput Reg.secSealCtrl_busy 0).fput Reg.secSealCtrl_done 1)) ∧
    (s.controlled → s.flag Reg.secSealCtrl_busy = false → exec .sealDone s = .next s) ∧
    (∀ p v, s.accepts p Reg.secZeroise v → exec (.zeroise p v) s = .next
      (let t := s.stored Reg.secZeroise v
       if v = 0x5EC00001 then { t.enterSafe .force with sec := { (t.enterSafe .force).sec with zeroDue := true } } else t)) ∧
    (s.controlled → exec .zeroiseKeys s = .next (if s.sec.zeroDue then s.zeroise else s))

/-- R391 to R397: the bytes of a two-wire write go into the buffer from the pointer on, up to 32 of them within the page of the first, and
STOP, over all the phases that repeated STARTs separate, applies the whole groups in turn, to WIN or to the register that the window shows, and counts the bytes of the others and the
groups refused, with the result in LSTAT; an abort and a stuck bus discard the buffer and apply nothing, the latter with TWB_STUCK. A
read answers, from the pointer on, the bytes of its word, from the local space or the window, and moves the pointer; a transfer that
ends with bytes in the buffer applies them as STOP does. That unacknowledged bytes count as discarded and that aborts and stuck lines
show in LSTAT (log entry 21), and that the page is that of the first buffered byte over repeated STARTs (log entry 86), are the model's
choices. -/
def Obligations.TwoWire : Prop :=
  ∀ (s : State), s.controlled →
    (∀ phases, exec (.twbWriteTransaction phases) s = .next
      (let t := s.twbPhases phases
       let gs := twbGroups t.twb.buf
       let whole := gs.filter (fun g => (twbGroup t.twb.buf g).length == 4)
       let part := gs.filter (fun g => (twbGroup t.twb.buf g).length != 4)
       let lost := (part.map (fun g => (twbGroup t.twb.buf g).length)).sum + t.twb.drop
       let u : State := { t with twb := { t.twb with buf := [], drop := 0, state := 0 } }
       let r := whole.foldl (fun (x : Nat × State) g =>
         let v := BitVec.ofNat 32 (leNat (twbGroup t.twb.buf g))
         if 0x2000 ≤ g then
           (x.1, if g = 0x2000 then { x.2 with twb := { x.2.twb with win := v.toNat % 2 ^ 17 } } else x.2)
         else
           let w := x.2.serviceWrite .twb (x.2.twb.win * 0x8000 + 4 * g) v
           (x.1 + b2n w.1, w.2)) (0, u)
       let u := (r.2.bump Reg.twbCntDisc_bytes lost).bump Reg.twbCntDisc_groups r.1
       { u with twb := { u.twb with lstat := (whole.length - r.1) * 2 ^ 24 + r.1 * 2 ^ 16 + min lost 65535 } })) ∧
    (∀ (hi lo : Byte) (data : List Byte), (256 * hi.toNat + lo.toNat) % 32 + data.length ≤ 32 →
      s.twb.buf.length + data.length ≤ 32 →
      (∀ e, s.twb.buf.head? = some e → e.1 / 32 = (256 * hi.toNat + lo.toNat) / 32) →
      (∃ p l, s.twbBytes (hi :: lo :: data) = ({ s with twb := { s.twb with ptr := p, buf := l } } : State).out
        (.twbAcks (List.replicate (3 + data.length) true))) ∧
      ((s.twbBytes (hi :: lo :: data)).twb.drop = s.twb.drop ∧
       (s.twbBytes (hi :: lo :: data)).twb.buf.length = s.twb.buf.length + data.length)) ∧
    (∀ phases, exec (.twbAbort phases) s = .next
      (let u := s.twbPhases phases
       let n := u.twb.buf.length + u.twb.drop
       let u := u.bump Reg.twbCntDisc_bytes n
       { u with twb := { u.twb with
           buf := [], drop := 0, state := 0
           lstat := if phases.isEmpty && n == 0 then u.twb.lstat else min n 65535 } })) ∧
    (∀ ack phases, exec (.twbStuck ack phases) s = .next
      (if s.fget Reg.twbCtrl_tstuck = 0 then s
       else
         let u := (s.twbDrop phases).bump Reg.twbCntStuck_val 1
         u.raise 0xF001 .warn 0 (pf 22 1 (if ack then 2 else 1) + pf 24 2 u.twb.ptr + pf 28 4 u.twb.win))) ∧
    (∀ head last stop, exec (.twbReadWord head last stop) s = .next
      (let t := s.twbPhases head
       let t : State := { t with twb := { t.twb with state := 2 } }
       let p := t.twb.ptr
       let r := if 0x8000 ≤ p then (t.twbLocal (p / 4), t) else t.serviceRead .twb (t.twb.win * 0x8000 + p / 4 * 4)
       let e := max last.val (p % 4)
       let sent := ((leBytes 4 r.1.toNat).take (e + 1)).drop (p % 4)
       let u := r.2.out (.twb sent)
       let u : State := { u with twb := { u.twb with
         ptr := sent.foldl (fun p _ => twbNext p) p, state := if stop = true ∨ e < 3 then 0 else 2 } }
       if (stop = true ∨ e < 3) ∧ (u.twb.buf ≠ [] ∨ u.twb.drop ≠ 0) then u.twbStop else u))

/-- R394: a START or a STOP in the middle of a byte ends a two-wire transaction. The buffer is discarded: nothing of it is applied. Its
bytes are counted in TWB_CNT_DISC, which saturates, and the pointer keeps its last value. That the bytes not acknowledged are counted
with them is the model's choice (log entry 21). -/
def Obligations.TwoWireAbort : Prop :=
  ∀ (s : State) (phases : List (List Byte)), s.Sound → s.controlled →
    ∃ t, exec (.twbAbort phases) s = .next t ∧ t.twb.buf = [] ∧ t.twb.drop = 0 ∧ t.twb.ptr = (s.twbPhases phases).twb.ptr ∧
      t.fget Reg.twbCntDisc_bytes =
        min (s.fget Reg.twbCntDisc_bytes + ((s.twbPhases phases).twb.buf.length + (s.twbPhases phases).twb.drop)) (2 ^ 16 - 1) ∧
      t.fget Reg.twbCntDisc_groups = s.fget Reg.twbCntDisc_groups ∧ s.regsKept t [Reg.twbCntDisc] ∧ t.mem = s.mem ∧
      t.pend = s.pend

/-- R398 to R401: the debug port's instruction shows in IR, and an instruction scan shifts out what was captured; DBG_REG opens the port where the lock fuse is blank, which zeroises the keys,
cuts the key and enters SAFE with cause DEBUG, and is refused and counted, and acts as BYPASS, where it is not; a data scan shifts out
IDCODE or DONE, REFUSED and the data read; an access through the open port starts with
GO and finishes with its read value or its write. -/
def Obligations.DebugPort : Prop :=
  ∀ (s : State), s.controlled →
    exec .tapReset s = .next (s.fput Reg.dbgStat_ir 2) ∧
    (∀ cells,
     let u := (s.out (.tdo 8 1)).fput Reg.dbgStat_ir 0x10
     let u : State := { u with dbg := { u.dbg with cells := cells } }
     (u.sec.dbglock = true → exec (.tapIrUpdate 0x10 cells) s = .next (u.bump Reg.dbgCntRefused_val 1)) ∧
     (u.sec.dbglock = false → u.flag Reg.dbgStat_open = false → exec (.tapIrUpdate 0x10 cells) s = .next
       ((((u.zeroise.fput Reg.secStat_keycut 1).enterSafe .debug).fput Reg.dbgStat_open 1).raise 0xF002 .fault 0
         (pf 22 1 0x10)))) ∧
    (∀ dr, let u := s.drScan
      (u.flag Reg.dbgStat_open = true → u.irActs = 0x10 → dbgGo dr = true → u.dbg.acc = none →
        exec (.dbgAccess dr) s = .next { u with dbg := { u.dbg with
          acc := some (dbgAddr dr, dbgData dr, dbgWrite dr), done := false } }) ∧
      (u.flag Reg.dbgStat_open = false ∨ u.irActs ≠ 0x10 → exec (.dbgAccess dr) s = .next u)) ∧
    (s.flag Reg.dbgStat_open = true → s.irActs = 0x10 → ∃ n, s.drScan =
      ({ s with fresh := s.fresh + 1 } : State).out (.tdo 72 n) ∧ bitAt n 69 = s.dbg.done ∧ bitAt n 68 = s.dbg.refused ∧
        n % 2 ^ 32 = s.dbg.data.toNat) ∧
    (s.irActs = 2 → s.drScan = ({ s with fresh := s.fresh + 1 } : State).out (.tdo 32 s.idcode)) ∧
    (s.fget Reg.dbgStat_ir = 0x10 → s.sec.dbglock = true → ∀ x, s.drCapture = some x → x = (1, 0)) ∧
    (∀ a v w, s.dbg.acc = some (a, v, w) →
      let u : State := { s with dbg := { s.dbg with acc := none, done := true, refused := false } }
      (w = true → exec .dbgAccessDone s = .next (u.serviceWrite .dbg a v).2) ∧
      (w = false → exec .dbgAccessDone s = .next
        (let r := u.serviceRead .dbg a
         { r.2 with dbg := { r.2.dbg with data := r.1 } })))

/-- R359, R404, R405, R408: a frame takes the strip's settings and evaluates every level, with the SAFE pattern over and each engine's
phase restarted where SAFE has been left; each row slot then drives the row that follows, modulo 8; a Pointer whose T1 has passed is
disabled, but in SAFE; the SAFE pattern toggles while it shows. -/
def Obligations.IndicatorStrip : Prop :=
  ∀ (s : State), s.controlled →
    (let leave := s.flag Reg.indStat_safepat && !s.isSafe
     let u := if leave then (s.fput Reg.indStat_safepat 0).each (List.range 4) (fun e u =>
       { u with ind := { u.ind with start := tput (fun _ => 0) u.ind.start e u.sys.now } }) else s
     exec .indFrame s = .next { u with ind := { u.ind with
       ctrl := (u.rget Reg.indCtrl).toNat, cur := u.fget Reg.indCur_icol, row := 0
       level := (List.range 128).foldl (fun t l => tput (fun _ => 0) t l (u.ledLevel l)) [] } }) ∧
    (s.Sound → ∃ t, exec .indRowSlot s = .next t ∧ t.fget Reg.indStat_row = s.ind.row % 8 ∧ t.ind.row = s.ind.row % 8 + 1) ∧
    (∀ e : Fin 4, s.isSafe = false → s.engEn e = true → s.fget (Reg.indEngCfg_type e) = 2 → s.fget (Reg.indEngTime_t1 e) ≠ 0 →
      exec (.indPointerExpire e) s = .next (s.fput (Reg.indEngCfg_en e) 0)) ∧
    (∀ e : Fin 4, s.isSafe = true → exec (.indPointerExpire e) s = .next s) ∧
    (s.flag Reg.indStat_safepat = true → exec .safeBlinkToggle s = .next { s with ind := { s.ind with lit := !s.ind.lit } })
end

