-- ==== Sys2Proof/Laws/Keeps.lean ====
section
/-!
SUPPORT. Tables keep their canonical form, and what it takes for an update of the state to keep it sound, the queue
and the fuses as they are. One lemma `State.X_keeps` per function of the machine follows in the files beside this one.
-/

namespace Sys2Proof.Machine

/-- The state is sound, its queue is `q.1` and its fuses are `q.2`. -/
structure State.Keeps (q : List Instr × Fuses) (s : State) : Prop where
  sound : s.Sound
  rest : s.pending = q.1 ∧ s.sec.fuses = q.2

section
variable {α : Type} {d : Nat → α}

theorem tput_mem [DecidableEq α] {t : Table α} {k : Nat} {v : α} {e : Nat × α} (h : e ∈ tput d t k v) :
    e ∈ t ∨ e = (k, v) ∧ v ≠ d k := by
  induction t with
  | nil =>
    unfold tput at h
    split at h
    · cases h
    · exact .inr ⟨by simpa using h, ‹_›⟩
  | cons a r ih =>
    unfold tput at h
    split at h
    · split at h
      · exact .inl h
      · rcases List.mem_cons.1 h with h | h
        · exact .inr ⟨h, ‹_›⟩
        · exact .inl h
    · split at h
      · split at h
        · exact .inl (List.mem_cons_of_mem _ h)
        · rcases List.mem_cons.1 h with h | h
          · exact .inr ⟨h, ‹_›⟩
          · exact .inl (List.mem_cons_of_mem _ h)
      · rcases List.mem_cons.1 h with h | h
        · exact .inl (h ▸ List.mem_cons_self ..)
        · rcases ih h with h | h
          · exact .inl (List.mem_cons_of_mem _ h)
          · exact .inr h

theorem tput_wf [DecidableEq α] {t : Table α} (k : Nat) (v : α) (h : Table.Wf d t) : Table.Wf d (tput d t k v) := by
  induction t with
  | nil =>
    unfold tput
    split
    · exact h
    · exact ⟨List.pairwise_singleton _ _, by simpa using ‹_›⟩
  | cons a r ih =>
    obtain ⟨⟨h1, h2⟩, h3⟩ := (⟨List.pairwise_cons.1 h.1, h.2⟩ : _ ∧ _)
    have hr : Table.Wf d r := ⟨h2, fun e he => h3 e (List.mem_cons_of_mem _ he)⟩
    unfold tput
    split
    · split
      · exact h
      · refine ⟨List.pairwise_cons.2 ⟨fun e he => ?_, h.1⟩, fun e he => ?_⟩
        · rcases List.mem_cons.1 he with rfl | he
          · assumption
          · exact Nat.lt_trans ‹_› (h1 e he)
        · rcases List.mem_cons.1 he with rfl | he
          · assumption
          · exact h3 e he
    · split
      · split
        · exact hr
        · subst k
          refine ⟨List.pairwise_cons.2 ⟨h1, h2⟩, fun e he => ?_⟩
          rcases List.mem_cons.1 he with rfl | he
          · assumption
          · exact hr.2 e he
      · have hi := ih hr
        refine ⟨List.pairwise_cons.2 ⟨fun e he => ?_, hi.1⟩, fun e he => ?_⟩
        · rcases tput_mem he with he | ⟨rfl, -⟩
          · exact h1 e he
          · show a.1 < k; omega
        · rcases List.mem_cons.1 he with rfl | he
          · exact h3 _ (List.mem_cons_self ..)
          · exact hi.2 e he

theorem tputs_wf [DecidableEq α] {t : Table α} (k : Nat) (vs : List α) (h : Table.Wf d t) :
    Table.Wf d (tputs d t k vs) := by
  induction vs generalizing t k with
  | nil => exact h
  | cons v r ih => exact ih _ (tput_wf k v h)

theorem filter_wf {t : Table α} (p : Nat × α → Bool) (h : Table.Wf d t) : Table.Wf d (t.filter p) :=
  ⟨h.1.filter p, fun e he => h.2 e (List.mem_of_mem_filter he)⟩

theorem tget_absent {t : Table α} {k : Nat} (h : ∀ e ∈ t, k < e.1) : tget d t k = d k := by
  induction t with
  | nil => rfl
  | cons a r ih =>
    have h1 := h a (List.mem_cons_self ..)
    unfold tget
    rw [if_neg (by omega), ih fun e he => h e (List.mem_cons_of_mem _ he)]

/-- Reading after a write (R7): the key written reads as the value, every other key as before. -/
theorem tget_tput [DecidableEq α] {t : Table α} (k : Nat) (v : α) (j : Nat) (h : Table.Wf d t) :
    tget d (tput d t k v) j = if j = k then v else tget d t j := by
  induction t with
  | nil =>
    unfold tput
    split <;> simp only [tget] <;> split <;> simp_all
  | cons a r ih =>
    obtain ⟨h1, h2⟩ := List.pairwise_cons.1 h.1
    unfold tput
    split
    · have hk : tget d (a :: r) k = d k := tget_absent fun e he => by
        rcases List.mem_cons.1 he with rfl | he
        · assumption
        · exact Nat.lt_trans ‹_› (h1 e he)
      split
      · split
        · subst_vars; exact hk
        · rfl
      · rfl
    · split
      · subst k
        have hk : tget d r a.1 = d a.1 := tget_absent h1
        split
        · by_cases hj : j = a.1
          · subst hj; simp_all
          · simp [tget, hj]
        · by_cases hj : j = a.1 <;> simp [tget, hj]
      · have hi := ih ⟨h2, fun e he => h.2 e (List.mem_cons_of_mem _ he)⟩
        by_cases hj : j = a.1
        · rw [if_neg (by omega)]; simp [tget, hj]
        · simp [tget, hj, hi]
end

variable {q : List Instr × Fuses} {s : State}

theorem keeps_mk {p sys seq vfe adc lmp pxe eng shd nzl trk fed mot pos mon lff dma hst cmd cfg twb dbg ind sent fresh}
    (h : s.Keeps q) :
    State.Keeps q ⟨s.regs, s.mem, p, sys, s.evq, seq, vfe, adc, lmp, pxe, eng, shd, nzl, trk, fed, mot, pos, mon, lff, dma,
      hst, cmd, cfg, s.sec, twb, dbg, ind, sent, fresh, s.pending⟩ :=
  ⟨⟨h.sound.mem, h.sound.regs, h.sound.staging⟩, h.rest⟩

theorem keeps_sec {x : SecSt} (h : s.Keeps q) (hx : x.fuses = s.sec.fuses) : State.Keeps q { s with sec := x } :=
  ⟨⟨h.sound.mem, h.sound.regs, h.sound.staging⟩, h.rest.1, hx.trans h.rest.2⟩

theorem ite_keeps {c : Prop} [Decidable c] {a b : State} (ha : a.Keeps q) (hb : b.Keeps q) :
    State.Keeps q (if c then a else b) := by split <;> assumption

theorem ite_keeps2 {β : Type} {c : Prop} [Decidable c] {a b : β × State} (ha : a.2.Keeps q) (hb : b.2.Keeps q) :
    State.Keeps q (if c then a else b).2 := by split <;> assumption

theorem foldl_keeps {α : Type} {f : State → α → State} {l : List α} (h : s.Keeps q)
    (hf : ∀ t x, State.Keeps q t → State.Keeps q (f t x)) : State.Keeps q (l.foldl f s) := by
  induction l generalizing s with
  | nil => exact h
  | cons x r ih => exact ih (hf s x h)

theorem foldl_keeps1 {α β : Type} {f : State × β → α → State × β} {l : List α} {i : State × β} (h : i.1.Keeps q)
    (hf : ∀ t x, State.Keeps q t.1 → State.Keeps q (f t x).1) : State.Keeps q (l.foldl f i).1 := by
  induction l generalizing i with
  | nil => exact h
  | cons x r ih => exact ih (hf i x h)

theorem foldl_keeps2 {α β : Type} {f : β × State → α → β × State} {l : List α} {i : β × State} (h : i.2.Keeps q)
    (hf : ∀ t x, State.Keeps q t.2 → State.Keeps q (f t x).2) : State.Keeps q (l.foldl f i).2 := by
  induction l generalizing i with
  | nil => exact h
  | cons x r ih => exact ih (hf i x h)

theorem State.rput_keeps {a w} (h : s.Keeps q) : State.Keeps q (State.rput s a w) :=
  ⟨⟨h.sound.mem, tput_wf _ _ h.sound.regs, h.sound.staging⟩, h.rest⟩

theorem State.store_keeps {a bs} (h : s.Keeps q) : State.Keeps q (State.store s a bs) :=
  ⟨⟨tputs_wf _ _ h.sound.mem, h.sound.regs, h.sound.staging⟩, h.rest⟩

theorem State.clear_keeps {a n} (h : s.Keeps q) : State.Keeps q (State.clear s a n) :=
  ⟨⟨filter_wf _ h.sound.mem, h.sound.regs, h.sound.staging⟩, h.rest⟩


end Sys2Proof.Machine
end

