-- ==== Sys2Proof/Laws/KeepsUnits.lean ====
section
/-!
SUPPORT. Every function of `Ops`, `Flags`, `VfeOps`, `AdcOps`, `LmpOps`, `FifoOps`, `CouchOps` keeps the state sound, the queue and the fuses.
-/

namespace Sys2Proof.Machine

variable {q : List Instr × Fuses} {s : State}

theorem State.fput_keeps {f v} (h : s.Keeps q) :
    State.Keeps q (State.fput s f v) := by
  unfold State.fput
  exact State.rput_keeps h

theorem State.fputI_keeps {f v} (h : s.Keeps q) :
    State.Keeps q (State.fputI s f v) := by
  unfold State.fputI
  exact State.fput_keeps h

theorem State.fputB_keeps {f b} (h : s.Keeps q) :
    State.Keeps q (State.fputB s f b) := by
  unfold State.fputB
  exact State.fput_keeps h

theorem State.bump_keeps {f k} (h : s.Keeps q) :
    State.Keeps q (State.bump s f k) := by
  unfold State.bump
  exact State.fput_keeps h

theorem State.wput_keeps {a v} (h : s.Keeps q) :
    State.Keeps q (State.wput s a v) := by
  unfold State.wput
  exact State.rput_keeps (State.rput_keeps h)

theorem State.wput48_keeps {a v} (h : s.Keeps q) :
    State.Keeps q (State.wput48 s a v) := by
  unfold State.wput48
  exact State.wput_keeps h

theorem State.st_keeps {a n v} (h : s.Keeps q) :
    State.Keeps q (State.st s a n v) := by
  unfold State.st
  exact State.store_keeps h

theorem State.stamp_keeps (h : s.Keeps q) :
    State.Keeps q (State.stamp s).2 := by
  unfold State.stamp
  exact keeps_mk h

theorem State.out_keeps {o} (h : s.Keeps q) :
    State.Keeps q (State.out s o) := by
  unfold State.out
  exact keeps_mk h

theorem State.setAlive_keeps {i b} (h : s.Keeps q) :
    State.Keeps q (State.setAlive s i b) := by
  unfold State.setAlive
  extract_lets
  exact State.rput_keeps h

theorem State.shadow_keeps {cls axis a mask v} (h : s.Keeps q) :
    State.Keeps q (State.shadow s cls axis a mask v) := by
  unfold State.shadow
  exact ite_keeps (keeps_mk h) (keeps_mk h)

theorem State.commit_keeps {c axis} (h : s.Keeps q) :
    State.Keeps q (State.commit s c axis) := by
  unfold State.commit
  extract_lets _ s2
  have h2 : s2.Keeps q := keeps_mk h
  exact foldl_keeps h2 (fun _ _ h3 => State.rput_keeps h3)

theorem State.boundary_keeps {c axis} (h : s.Keeps q) :
    State.Keeps q (State.boundary s c axis) := by
  unfold State.boundary
  exact ite_keeps h (State.commit_keeps h)

theorem State.each_keeps {l f} (h : s.Keeps q) (hf : ∀ y0 t, State.Keeps q t → State.Keeps q (f y0 t)) :
    State.Keeps q (State.each s l f) := by
  unfold State.each
  exact foldl_keeps h (fun _ _ h1 => hf _ _ h1)

theorem State.loseEvent_keeps (h : s.Keeps q) : State.Keeps q (State.loseEvent s) := by
  unfold State.loseEvent
  exact State.fput_keeps (State.bump_keeps ⟨⟨h.sound.mem, h.sound.regs, h.sound.staging⟩, h.rest⟩)

theorem State.stage_keeps {e} (h : s.Keeps q) : State.Keeps q (State.stage s e) := by
  unfold State.stage
  split
  · exact h
  · split
    · exact h
    · split
      · rename_i hr
        have hr' : e.sev.room ≤ 16384 := by cases e.sev <;> decide
        refine ⟨⟨h.sound.mem, h.sound.regs, ?_⟩, h.rest⟩
        simp only [EvqSt.taken, List.length_append, List.length_singleton] at hr ⊢
        omega
      · exact State.loseEvent_keeps h

theorem State.raiseAt_keeps {code sev src line pay} (h : s.Keeps q) :
    State.Keeps q (State.raiseAt s code sev src line pay) := by
  unfold State.raiseAt
  exact State.stage_keeps (State.stamp_keeps h)

theorem State.raise_keeps {code sev src pay} (h : s.Keeps q) :
    State.Keeps q (State.raise s code sev src pay) := by
  unfold State.raise
  exact State.raiseAt_keeps h

theorem State.raiseLb_keeps {code sev src pay} (h : s.Keeps q) :
    State.Keeps q (State.raiseLb s code sev src pay) := by
  unfold State.raiseLb
  exact State.raiseAt_keeps h

theorem State.regRefused_keeps {p a v reason} (h : s.Keeps q) :
    State.Keeps q (State.regRefused s p a v reason) := by
  unfold State.regRefused
  extract_lets _ s2
  have h2 : s2.Keeps q := State.raise_keeps h
  exact ite_keeps (keeps_mk h) (ite_keeps (State.raise_keeps h2) h2)

theorem State.latchCause_keeps {c} (h : s.Keeps q) :
    State.Keeps q (State.latchCause s c) := by
  unfold State.latchCause
  extract_lets s1
  have h1 : s1.Keeps q := State.fput_keeps h
  exact State.fput_keeps h1

theorem State.clearActive_keeps {c} (h : s.Keeps q) :
    State.Keeps q (State.clearActive s c) := by
  unfold State.clearActive
  exact State.fput_keeps h

theorem State.scbStart_keeps {b f} (h : s.Keeps q) :
    State.Keeps q (State.scbStart s b f) := by
  unfold State.scbStart
  extract_lets s1
  have h1 : s1.Keeps q := State.out_keeps h
  exact ite_keeps (ite_keeps (State.fput_keeps h1) h1) (State.fput_keeps (keeps_mk h1))

theorem State.scbNext_keeps {b a} (h : s.Keeps q) : State.Keeps q (State.scbNext s b a) := by
  induction a generalizing s with
  | nil => exact State.fput_keeps (keeps_mk h)
  | cons f r ih =>
    unfold State.scbNext
    exact ite_keeps (ih (State.scbStart_keeps (keeps_mk h))) (State.scbStart_keeps (keeps_mk h))

theorem State.scbOwn_keeps {b f} (h : s.Keeps q) :
    State.Keeps q (State.scbOwn s b f) := by
  unfold State.scbOwn
  extract_lets
  exact ite_keeps (keeps_mk h) (State.scbStart_keeps h)

theorem State.segMode_keeps {k test bin vm} (h : s.Keeps q) :
    State.Keeps q (State.segMode s k test bin vm) := by
  unfold State.segMode
  extract_lets
  exact State.scbOwn_keeps (keeps_mk h)

theorem State.segAbsent_keeps {k} (h : s.Keeps q) :
    State.Keeps q (State.segAbsent s k) := by
  unfold State.segAbsent
  extract_lets s1
  have h1 : s1.Keeps q := State.wput_keeps h
  exact ite_keeps (State.fput_keeps h1) h1

theorem State.scbGiveUp_keeps {b f status} (h : s.Keeps q) :
    State.Keeps q (State.scbGiveUp s b f status) := by
  unfold State.scbGiveUp
  extract_lets _ s2
  have h2 : s2.Keeps q := State.fput_keeps h
  exact State.segAbsent_keeps (State.raise_keeps h2)

theorem State.scbEnd_keeps {b f err rest} (h : s.Keeps q) :
    State.Keeps q (State.scbEnd s b f err rest) := by
  unfold State.scbEnd
  extract_lets s1 s2
  have h1 : s1.Keeps q := ite_keeps (State.fput_keeps h) h
  have h2 : s2.Keeps q := ite_keeps (State.fput_keeps h1) h1
  exact State.scbNext_keeps h2

theorem State.scbRepeat_keeps {b bus f status} (h : s.Keeps q) :
    State.Keeps q (State.scbRepeat s b bus f status) := by
  unfold State.scbRepeat
  extract_lets _ s2
  have h2 : s2.Keeps q := keeps_mk h
  exact ite_keeps (State.scbStart_keeps (State.fput_keeps h2)) (State.scbEnd_keeps (State.scbGiveUp_keeps h))

theorem State.scbReply_keeps {b status data good} (h : s.Keeps q) :
    State.Keeps q (State.scbReply s b status data good) := by
  unfold State.scbReply
  extract_lets _ s2
  have h2 : s2.Keeps q := State.fput_keeps (State.fput_keeps h)
  split
  · exact h
  · extract_lets s4 s5 s6
    have h4 : s4.Keeps q := ite_keeps (State.fput_keeps h2) h2
    have h5 : s5.Keeps q := State.raise_keeps h2
    have h6 : s6.Keeps q := ite_keeps (State.segAbsent_keeps h5) h5
    exact ite_keeps h (ite_keeps (State.scbEnd_keeps h4) (ite_keeps (State.scbEnd_keeps h6) (ite_keeps (ite_keeps (keeps_mk h2) (State.scbEnd_keeps (State.scbGiveUp_keeps h2))) (State.scbRepeat_keeps h2))))

theorem State.showLoop_keeps {k t ua} (h : s.Keeps q) :
    State.Keeps q (State.showLoop s k t ua) := by
  unfold State.showLoop
  exact State.fput_keeps h

theorem State.showLoops_keeps {k l} (h : s.Keeps q) :
    State.Keeps q (State.showLoops s k l) := by
  unfold State.showLoops
  exact State.each_keeps h (fun _ _ h1 => State.showLoop_keeps h1)

theorem State.setTrained_keeps {t} (h : s.Keeps q) :
    State.Keeps q (State.setTrained s t) := by
  unfold State.setTrained
  extract_lets _ _ _ s4 s5 s6
  have h4 : s4.Keeps q := State.fput_keeps (State.showLoop_keeps h)
  have h5 : s5.Keeps q := by
    unfold s5
    split
    · exact State.fput_keeps (State.fput_keeps h4)
    · exact h4
  have h6 : s6.Keeps q := State.fput_keeps (State.fput_keeps h5)
  exact ite_keeps (State.fput_keeps h6) (State.raise_keeps (State.fput_keeps h6))

theorem State.trainBegin_keeps (h : s.Keeps q) :
    State.Keeps q (State.trainBegin s) := by
  unfold State.trainBegin
  extract_lets s1 _ s3
  have h1 : s1.Keeps q := State.fput_keeps h
  have h3 : s3.Keeps q := keeps_mk h1
  refine State.each_keeps h3 (fun _ _ h4 => ?_)
  · extract_lets s5 _ s7
    have h5 : s5.Keeps q := by
      unfold s5
      split
      · exact h4
      · exact State.fput_keeps h4
    have h7 : s7.Keeps q := keeps_mk h5
    exact State.segMode_keeps (State.fput_keeps (State.fput_keeps h7))

theorem State.trainEnd_keeps {taps} (h : s.Keeps q) :
    State.Keeps q (State.trainEnd s taps) := by
  unfold State.trainEnd
  extract_lets _ s2 _ s5
  have h2 : s2.Keeps q := foldl_keeps h (fun _ _ h3 => State.setTrained_keeps h3)
  have h5 : s5.Keeps q := State.each_keeps h2 (fun _ _ h6 => State.segMode_keeps h6)
  exact State.raise_keeps (State.fput_keeps (State.fput_keeps h5))

theorem State.startPulse_keeps {next} (h : s.Keeps q) :
    State.Keeps q (State.startPulse s next) := by
  unfold State.startPulse
  extract_lets s1
  have h1 : s1.Keeps q := by
    refine ite_keeps (State.each_keeps h (fun _ _ h2 => ?_)) h
    · extract_lets
      exact keeps_mk h2
  exact keeps_mk h1

theorem State.abandonPulses_keeps (h : s.Keeps q) :
    State.Keeps q (State.abandonPulses s) := by
  unfold State.abandonPulses
  refine State.each_keeps h (fun _ _ h1 => ?_)
  · extract_lets
    exact ite_keeps (keeps_mk h1) h1

theorem State.stopClocks_keeps (h : s.Keeps q) :
    State.Keeps q (State.stopClocks s) := by
  unfold State.stopClocks
  extract_lets
  exact ite_keeps (keeps_mk h) (keeps_mk h)

theorem State.readEnded_keeps (h : s.Keeps q) :
    State.Keeps q (State.readEnded s) := by
  unfold State.readEnded
  extract_lets
  exact ite_keeps (keeps_mk h) h

theorem State.markBroken_keeps {k t leg ua sample} (h : s.Keeps q) :
    State.Keeps q (State.markBroken s k t leg ua sample) := by
  unfold State.markBroken
  extract_lets _ s2 s3 s4 s5
  have h2 : s2.Keeps q := keeps_mk h
  have h3 : s3.Keeps q := State.fput_keeps h2
  have h4 : s4.Keeps q := State.bump_keeps h3
  have h5 : s5.Keeps q := State.fput_keeps h4
  exact State.raise_keeps h5

theorem State.setGrp_keeps {g x} (h : s.Keeps q) :
    State.Keeps q (State.setGrp s g x) := by
  unfold State.setGrp
  extract_lets
  exact keeps_mk h

theorem State.setRole_keeps {g l r} (h : s.Keeps q) :
    State.Keeps q (State.setRole s g l r) := by
  unfold State.setRole
  exact State.fput_keeps h

theorem State.showMode_keeps {g} (h : s.Keeps q) :
    State.Keeps q (State.showMode s g) := by
  unfold State.showMode
  exact ite_keeps h (State.fput_keeps h)

theorem State.updateSpur_keeps {g t} (h : s.Keeps q) :
    State.Keeps q (State.updateSpur s g t) := by
  unfold State.updateSpur
  split
  · extract_lets _ _ _ _ _ _ _ _ s9 s10 s11 _ _ _ s15 s16
    have h9 : s9.Keeps q := State.fputI_keeps h
    have h10 : s10.Keeps q := State.fputI_keeps h9
    have h11 : s11.Keeps q := State.fputI_keeps h10
    have h15 : s15.Keeps q := keeps_mk h11
    have h16 : s16.Keeps q := keeps_mk h11
    exact ite_keeps h11 (ite_keeps (State.raise_keeps h15) (ite_keeps (State.raise_keeps h16) h11))
  · exact h

theorem State.updateSpurs_keeps {g before} (h : s.Keeps q) :
    State.Keeps q (State.updateSpurs s g before) := by
  unfold State.updateSpurs
  exact State.each_keeps h (fun _ _ h1 => State.updateSpur_keeps h1)

theorem State.declare_keeps {g l cause first} (h : s.Keeps q) :
    State.Keeps q (State.declare s g l cause first) := by
  unfold State.declare
  extract_lets _ _ _ _ _ _ s7 s8 _ _ s11 s12
  have h7 : s7.Keeps q := State.fput_keeps h
  have h8 : s8.Keeps q := State.raiseAt_keeps h7
  have h11 : s11.Keeps q := State.setGrp_keeps h8
  have h12 : s12.Keeps q := ite_keeps (State.fput_keeps h11) h11
  exact ite_keeps (State.showMode_keeps h12) (State.setGrp_keeps h8)

theorem State.handFault_keeps {g l} (h : s.Keeps q) :
    State.Keeps q (State.handFault s g l) := by
  unfold State.handFault
  extract_lets _ _ _ f4 s7 s8 s9 s10
  have h4 : ∀ t, State.Keeps q t → State.Keeps q (f4 t) := by
    intro t h5
    unfold f4
    extract_lets
    exact State.setGrp_keeps h5
  have h7 : s7.Keeps q := State.fput_keeps (State.setRole_keeps h)
  have h8 : s8.Keeps q := ite_keeps h (ite_keeps (State.raise_keeps h) (State.setRole_keeps h))
  have h9 : s9.Keeps q := State.fput_keeps (State.setRole_keeps (State.setRole_keeps h8))
  have h10 : s10.Keeps q := State.setRole_keeps h
  exact ite_keeps (ite_keeps (State.showMode_keeps h7) (ite_keeps (State.showMode_keeps (State.raise_keeps (State.fput_keeps h7))) (State.showMode_keeps (h4 _ (State.setRole_keeps h7))))) (ite_keeps (State.showMode_keeps (h4 _ h9)) (State.showMode_keeps (State.raise_keeps h10)))

theorem State.handBack_keeps {g l} (h : s.Keeps q) :
    State.Keeps q (State.handBack s g l) := by
  unfold State.handBack
  extract_lets _ s2 s3
  have h2 : s2.Keeps q := ite_keeps h (ite_keeps (State.fput_keeps (State.setRole_keeps (State.setRole_keeps h))) (State.setRole_keeps h))
  have h3 : s3.Keeps q := State.showMode_keeps h2
  exact ite_keeps h3 (State.setGrp_keeps (State.fput_keeps h3))

theorem State.toHome_keeps {g} (h : s.Keeps q) :
    State.Keeps q (State.toHome s g) := by
  unfold State.toHome
  extract_lets _ _ s3
  have h3 : s3.Keeps q := ite_keeps h (State.setRole_keeps (State.setRole_keeps h))
  exact State.fput_keeps h3

theorem State.toState_keeps {g k} (h : s.Keeps q) :
    State.Keeps q (State.toState s g k) := by
  unfold State.toState
  extract_lets _ s2 s3 s4
  have h2 : s2.Keeps q := State.toHome_keeps h
  have h3 : s3.Keeps q := ite_keeps h2 (State.fput_keeps (State.setRole_keeps (State.setRole_keeps h2)))
  have h4 : s4.Keeps q := State.bump_keeps h3
  exact State.setGrp_keeps h4

theorem State.handOver_keeps {g due} (h : s.Keeps q) :
    State.Keeps q (State.handOver s g due) := by
  unfold State.handOver
  extract_lets _ _ _ _ s5 s6 s8 _ s11
  have h5 : s5.Keeps q := State.setGrp_keeps h
  have h6 : s6.Keeps q := State.each_keeps h5 (fun _ _ h7 => State.handFault_keeps h7)
  have h8 : s8.Keeps q := State.each_keeps h6 (fun _ _ h9 => State.handBack_keeps h9)
  have h11 : s11.Keeps q := ite_keeps (ite_keeps (State.setGrp_keeps (State.toHome_keeps h8)) h8) (ite_keeps (ite_keeps (State.setGrp_keeps h8) (State.toState_keeps h8)) (ite_keeps (State.setGrp_keeps h8) h8))
  exact ite_keeps h (State.updateSpurs_keeps h11)

theorem State.handOverSegs_keeps {phase} (h : s.Keeps q) :
    State.Keeps q (State.handOverSegs s phase) := by
  unfold State.handOverSegs
  refine State.each_keeps h (fun _ _ h1 => ?_)
  · extract_lets _ s3
    have h3 : s3.Keeps q := ite_keeps (State.setGrp_keeps h1) h1
    exact State.handOver_keeps h3

theorem State.groupStartup_keeps {g} (h : s.Keeps q) :
    State.Keeps q (State.groupStartup s g) := by
  unfold State.groupStartup
  extract_lets _ s2 s7 s8
  have h2 : s2.Keeps q := by
    refine State.each_keeps h (fun _ _ h3 => ?_)
    · extract_lets _ s5 s6
      have h5 : s5.Keeps q := State.fput_keeps (State.fput_keeps (State.fput_keeps h3))
      have h6 : s6.Keeps q := State.fput_keeps (State.fput_keeps h5)
      exact State.setRole_keeps h6
  have h7 : s7.Keeps q := State.fput_keeps (State.fput_keeps h2)
  have h8 : s8.Keeps q := State.fput_keeps h7
  exact State.setGrp_keeps h8

theorem State.groupDown_keeps {g} (h : s.Keeps q) :
    State.Keeps q (State.groupDown s g) := by
  unfold State.groupDown
  extract_lets s1 s2
  have h1 : s1.Keeps q := State.fput_keeps h
  have h2 : s2.Keeps q := State.each_keeps h1 (fun _ _ h3 => State.fput_keeps h3)
  exact State.setGrp_keeps h2

theorem State.startupLeave_keeps {g l} (h : s.Keeps q) :
    State.Keeps q (State.startupLeave s g l) := by
  unfold State.startupLeave
  extract_lets _ _ s3
  have h3 : s3.Keeps q := State.setGrp_keeps h
  exact ite_keeps (State.fput_keeps h3) h3

theorem State.calAccept_keeps {g l r} (h : s.Keeps q) :
    State.Keeps q (State.calAccept s g l r) := by
  unfold State.calAccept
  extract_lets _ s2 s3 s4 s5 s6 s7 s8 _ s10 s11 s12
  have h2 : s2.Keeps q := State.fputI_keeps h
  have h3 : s3.Keeps q := State.fputI_keeps h2
  have h4 : s4.Keeps q := State.fputI_keeps h3
  have h5 : s5.Keeps q := State.fputI_keeps h4
  have h6 : s6.Keeps q := State.fputI_keeps h5
  have h7 : s7.Keeps q := State.fputI_keeps h6
  have h8 : s8.Keeps q := State.fput_keeps (State.fput_keeps h7)
  have h10 : s10.Keeps q := State.fput_keeps h8
  have h11 : s11.Keeps q := State.setGrp_keeps h10
  have h12 : s12.Keeps q := ite_keeps (State.startupLeave_keeps h8) (ite_keeps (State.raise_keeps h11) (State.setGrp_keeps h8))
  exact ite_keeps h12 (State.updateSpur_keeps h12)

theorem State.calReject_keeps {g l r mask} (h : s.Keeps q) :
    State.Keeps q (State.calReject s g l r mask) := by
  unfold State.calReject
  extract_lets _ _ _ _ s5 s6 _ _ s9 s10
  have h5 : s5.Keeps q := State.bump_keeps (State.fput_keeps (State.fput_keeps h))
  have h6 : s6.Keeps q := State.raise_keeps h5
  have h9 : s9.Keeps q := State.declare_keeps h6
  have h10 : s10.Keeps q := State.each_keeps h9 (fun _ _ h11 => State.handFault_keeps h11)
  exact ite_keeps h6 (ite_keeps (State.setGrp_keeps h6) (ite_keeps (State.updateSpurs_keeps (State.startupLeave_keeps (State.setGrp_keeps h10))) (State.declare_keeps h6)))

theorem State.readPass_keeps {g l key sum} (h : s.Keeps q) :
    State.Keeps q (State.readPass s g l key sum) := by
  unfold State.readPass
  extract_lets _ s2
  have h2 : s2.Keeps q := State.fput_keeps h
  exact keeps_mk h2

theorem State.readFail_keeps {g l cause line} (h : s.Keeps q) :
    State.Keeps q (State.readFail s g l cause line) := by
  unfold State.readFail
  extract_lets _ s2 _ s4 _ _ s7
  have h2 : s2.Keeps q := State.bump_keeps h
  have h4 : s4.Keeps q := State.fput_keeps h2
  have h7 : s7.Keeps q := keeps_mk h4
  exact ite_keeps (State.declare_keeps h7) h7

theorem State.roleCount_keeps {g line x v} (h : s.Keeps q) :
    State.Keeps q (State.roleCount s g line x v) := by
  unfold State.roleCount
  split
  · exact h
  · exact ite_keeps (State.readPass_keeps h) (State.readFail_keeps h)

theorem State.countRoles_keeps {g line l} (h : s.Keeps q) :
    State.Keeps q (State.countRoles s g line l) := by
  unfold State.countRoles
  extract_lets
  exact foldl_keeps h (fun _ _ h2 => State.roleCount_keeps h2)

theorem State.setStr_keeps {z c x} (h : s.Keeps q) :
    State.Keeps q (State.setStr s z c x) := by
  unfold State.setStr
  extract_lets
  exact keeps_mk h

theorem State.setZone_keeps {z x} (h : s.Keeps q) :
    State.Keeps q (State.setZone s z x) := by
  unfold State.setZone
  extract_lets
  exact keeps_mk h

theorem State.setLbus_keeps {b x} (h : s.Keeps q) :
    State.Keeps q (State.setLbus s b x) := by
  unfold State.setLbus
  extract_lets
  exact keeps_mk h

theorem State.derateZone_keeps {z} (h : s.Keeps q) :
    State.Keeps q (State.derateZone s z) := by
  unfold State.derateZone
  extract_lets _ _ _ s4
  have h4 : s4.Keeps q := State.fput_keeps (State.fputI_keeps h)
  exact ite_keeps h4 (State.raise_keeps (State.setZone_keeps h4))

theorem State.zoneLevels_keeps {z} (h : s.Keeps q) :
    State.Keeps q (State.zoneLevels s z) := by
  unfold State.zoneLevels
  extract_lets _ _ _ s4
  have h4 : s4.Keeps q := by
    refine State.each_keeps h (fun _ _ h5 => ?_)
    · split
      · extract_lets
        exact State.setStr_keeps h5
      · extract_lets _ _ _ _ s11
        have h11 : s11.Keeps q := State.setStr_keeps h5
        exact ite_keeps (State.raise_keeps h11) h11
  exact State.setZone_keeps h4

theorem State.lampForce_keeps (h : s.Keeps q) :
    State.Keeps q (State.lampForce s) := by
  unfold State.lampForce
  extract_lets _ s2 _ s7
  have h2 : s2.Keeps q := by
    refine State.each_keeps h (fun _ _ h3 => State.each_keeps h3 (fun _ _ h4 => ?_))
    · extract_lets
      exact State.setStr_keeps h4
  have h7 : s7.Keeps q := keeps_mk h2
  exact ite_keeps (ite_keeps (State.fput_keeps h7) h7) h

theorem State.tintZone_keeps {z} (h : s.Keeps q) :
    State.Keeps q (State.tintZone s z) := by
  unfold State.tintZone
  refine ite_keeps h (State.each_keeps h (fun _ _ h1 => ?_))
  · extract_lets _ _ s4
    have h4 : s4.Keeps q := State.fput_keeps h1
    exact State.fput_keeps h4

theorem State.lampLb_keeps (h : s.Keeps q) :
    State.Keeps q (State.lampLb s) := by
  unfold State.lampLb
  refine State.each_keeps (State.lampForce_keeps h) (fun _ _ h1 => ?_)
  · extract_lets s2
    have h2 : s2.Keeps q := State.derateZone_keeps h1
    exact State.tintZone_keeps (ite_keeps (State.zoneLevels_keeps h2) h2)

theorem State.lbBroadcast_keeps {b op} (h : s.Keeps q) :
    State.Keeps q (State.lbBroadcast s b op) := by
  unfold State.lbBroadcast
  exact State.out_keeps h

theorem State.lbStart_keeps {b q'} (h : s.Keeps q) :
    State.Keeps q (State.lbStart s b q') := by
  unfold State.lbStart
  extract_lets _ s2 s3
  have h2 : s2.Keeps q := State.out_keeps h
  have h3 : s3.Keeps q := State.fput_keeps h2
  exact State.setLbus_keeps h3

theorem State.lbValues_keeps {b z} (h : s.Keeps q) :
    State.Keeps q (State.lbValues s b z) := by
  unfold State.lbValues
  extract_lets _ s2 s3
  have h2 : s2.Keeps q := State.setZone_keeps h
  have h3 : s3.Keeps q := by
    refine State.each_keeps h2 (fun _ _ h4 => ?_)
    · extract_lets
      exact State.setStr_keeps h4
  exact State.lbStart_keeps h3

theorem State.allOffOn_keeps {b} (h : s.Keeps q) :
    State.Keeps q (State.allOffOn s b) := by
  unfold State.allOffOn
  exact State.lbBroadcast_keeps h

theorem State.allOffDone_keeps (h : s.Keeps q) :
    State.Keeps q (State.allOffDone s) := by
  unfold State.allOffDone
  extract_lets
  exact keeps_mk h

theorem State.lbService_keeps {b} (h : s.Keeps q) :
    State.Keeps q (State.lbService s b) := by
  unfold State.lbService
  extract_lets
  refine ite_keeps h ?_
  · split
    · exact State.lbStart_keeps (State.setLbus_keeps h)
    · split
      · extract_lets
        exact State.lbStart_keeps (State.setZone_keeps h)
      · extract_lets
        exact State.lbStart_keeps (State.setZone_keeps h)
      · exact h

theorem orElse_mem {α : Type} {a b : Option α} {t : α} (h : t ∈ (a <|> b)) : t ∈ a ∨ t ∈ b := by
  cases a with
  | none => exact .inr h
  | some x => exact .inl h

theorem map_mem {α β : Type} {f : α → β} {a : Option α} {t : β} (h : t ∈ a.map f) : ∃ z, t = f z := by
  cases a with
  | none => cases h
  | some x => exact ⟨x, (Option.some.inj h).symm⟩

theorem State.lbRegular_keeps {b} (h : s.Keeps q) : ∀ t ∈ State.lbRegular s b, t.Keeps q := by
  intro t ht
  unfold State.lbRegular at ht
  split at ht
  · cases ht
  · rcases orElse_mem ht with ht | ht
    · obtain ⟨z, rfl⟩ := map_mem ht
      exact State.lbStart_keeps (keeps_mk h)
    · rcases orElse_mem ht with ht | ht
      · obtain ⟨z, rfl⟩ := map_mem ht
        exact State.lbValues_keeps (keeps_mk h)
      · obtain ⟨z, rfl⟩ := map_mem ht
        exact State.lbStart_keeps (keeps_mk h)

theorem State.lbNext_keeps {b} (h : s.Keeps q) : State.Keeps q (State.lbNext s b) := by
  unfold State.lbNext
  extract_lets B
  refine ite_keeps h (ite_keeps (State.setLbus_keeps (State.lbBroadcast_keeps h)) ?_)
  split
  · exact State.lbStart_keeps (keeps_mk h)
  · cases e : s.lbRegular b with
    | none => exact State.lbService_keeps h
    | some t => exact State.lbRegular_keeps h t e

theorem State.lampCommit_keeps (h : s.Keeps q) :
    State.Keeps q (State.lampCommit s) := by
  unfold State.lampCommit
  extract_lets s1 s3
  have h1 : s1.Keeps q := State.each_keeps h (fun _ _ h2 => State.lbBroadcast_keeps h2)
  have h3 : s3.Keeps q := by
    refine State.each_keeps h1 (fun _ _ h4 => State.each_keeps h4 (fun _ _ h5 => ?_))
    · extract_lets
      exact State.setStr_keeps h5
  exact keeps_mk h3

theorem State.deliveryCheck_keeps (h : s.Keeps q) :
    State.Keeps q (State.deliveryCheck s) := by
  unfold State.deliveryCheck
  extract_lets
  exact ite_keeps (State.lampCommit_keeps (keeps_mk h)) h

theorem State.lampDeliver_keeps (h : s.Keeps q) :
    State.Keeps q (State.lampDeliver s) := by
  unfold State.lampDeliver
  extract_lets _ s2 s3 s5
  have h2 : s2.Keeps q := keeps_mk h
  have h3 : s3.Keeps q := State.each_keeps h2 (fun _ _ h4 => State.zoneLevels_keeps (State.derateZone_keeps h4))
  have h5 : s5.Keeps q := by
    refine State.each_keeps h3 (fun _ _ h6 => ?_)
    · extract_lets
      exact State.setZone_keeps h6
  exact State.deliveryCheck_keeps h5

theorem State.setLampEn_keeps {b} (h : s.Keeps q) :
    State.Keeps q (State.setLampEn s b) := by
  unfold State.setLampEn
  exact State.fputB_keeps h

theorem State.lbSuccess_keeps {b z} (h : s.Keeps q) :
    State.Keeps q (State.lbSuccess s b z) := by
  unfold State.lbSuccess
  extract_lets _ s2 _ s4 s5 s6 _ _ s9 _ s11 s12
  have h2 : s2.Keeps q := State.setLbus_keeps h
  have h4 : s4.Keeps q := ite_keeps (State.setLbus_keeps h2) h2
  have h5 : s5.Keeps q := ite_keeps (State.raise_keeps (State.fput_keeps h4)) h4
  have h6 : s6.Keeps q := State.clearActive_keeps h5
  have h9 : s9.Keeps q := State.setZone_keeps h6
  have h11 : s11.Keeps q := State.setZone_keeps h9
  have h12 : s12.Keeps q := State.raise_keeps (State.fput_keeps h11)
  exact ite_keeps (ite_keeps (State.lampDeliver_keeps h12) h12) (State.fput_keeps h9)

theorem State.moveRetries_keeps {b} (h : s.Keeps q) :
    State.Keeps q (State.moveRetries s b) := by
  unfold State.moveRetries
  extract_lets
  exact ite_keeps (State.setLbus_keeps (State.setLbus_keeps h)) h

theorem State.lbFail_keeps {b q'} (h : s.Keeps q) :
    State.Keeps q (State.lbFail s b q') := by
  unfold State.lbFail
  extract_lets _ _ s3 s4 _ _ _ s8 _ _ _ s12
  have h3 : s3.Keeps q := State.setLbus_keeps h
  have h4 : s4.Keeps q := ite_keeps (State.moveRetries_keeps (State.raise_keeps (State.fput_keeps h3))) h3
  have h8 : s8.Keeps q := State.setZone_keeps h4
  have h12 : s12.Keeps q := State.setZone_keeps h8
  exact ite_keeps h4 (ite_keeps (State.setLbus_keeps h8) (ite_keeps h12 (ite_keeps (State.raise_keeps (State.fput_keeps h12)) (State.raise_keeps (State.fput_keeps h12)))))

theorem State.lbStatus_keeps {z st} (h : s.Keeps q) :
    State.Keeps q (State.lbStatus s z st) := by
  unfold State.lbStatus
  extract_lets _ s2 s3 _ s5 s6
  have h2 : s2.Keeps q := ite_keeps (State.raise_keeps h) h
  have h3 : s3.Keeps q := State.fputB_keeps h2
  have h5 : s5.Keeps q := State.fput_keeps h3
  have h6 : s6.Keeps q := by
    refine State.each_keeps h5 (fun _ _ h7 => ?_)
    · extract_lets
      exact ite_keeps h7 (ite_keeps (State.raise_keeps h7) (ite_keeps (State.raise_keeps h7) h7))
  exact ite_keeps (State.setZone_keeps h6) h6

theorem State.tintInside_keeps {reset} (h : s.Keeps q) :
    State.Keeps q (State.tintInside s reset) := by
  unfold State.tintInside
  extract_lets
  refine State.each_keeps h (fun _ _ h3 => ?_)
  · extract_lets
    exact ite_keeps (State.setStr_keeps h3) h3

theorem State.tintUpdate_keeps {z c q' n} (h : s.Keeps q) :
    State.Keeps q (State.tintUpdate s z c q' n) := by
  unfold State.tintUpdate
  extract_lets s1 _ _ _ s5 _ _ _ _ _ _ _ s13 _ s15
  have h1 : s1.Keeps q := State.fput_keeps h
  have h5 : s5.Keeps q := State.setStr_keeps h1
  have h13 : s13.Keeps q := State.fputI_keeps h5
  have h15 : s15.Keeps q := State.setStr_keeps h13
  exact ite_keeps h1 (ite_keeps (State.bump_keeps h1) (ite_keeps h5 (ite_keeps (State.raise_keeps h15) h15)))

theorem State.lampMap_keeps {z m} (h : s.Keeps q) :
    State.Keeps q (State.lampMap s z m) := by
  unfold State.lampMap
  extract_lets _ s2
  have h2 : s2.Keeps q := State.wput_keeps h
  exact State.each_keeps h2 (fun _ _ h3 => State.raise_keeps h3)

theorem State.lbReports_keeps {z fr} (h : s.Keeps q) :
    State.Keeps q (State.lbReports s z fr) := by
  unfold State.lbReports
  exact State.each_keeps h (fun _ _ h1 => State.tintUpdate_keeps h1)

theorem State.lbDelivered_keeps {z vals} (h : s.Keeps q) :
    State.Keeps q (State.lbDelivered s z vals) := by
  unfold State.lbDelivered
  extract_lets _ _ s3 s4
  have h3 : s3.Keeps q := keeps_mk h
  have h4 : s4.Keeps q := by
    refine State.each_keeps h3 (fun _ _ h5 => ?_)
    · extract_lets
      exact State.setStr_keeps h5
  exact State.setZone_keeps h4

theorem State.lbReply_keeps {b fr} (h : s.Keeps q) :
    State.Keeps q (State.lbReply s b fr) := by
  unfold State.lbReply
  split
  · exact h
  · extract_lets _ _ _ _ _ s6 s7
    have h6 : s6.Keeps q := State.lbSuccess_keeps h
    have h7 : s7.Keeps q := by
      unfold s7
      split
      · exact State.lbReports_keeps (State.lbDelivered_keeps h6)
      · exact State.lbReports_keeps h6
      · exact State.lampMap_keeps h6
      · exact h6
    exact ite_keeps (State.deliveryCheck_keeps (State.lbFail_keeps (State.bump_keeps h))) (ite_keeps (State.deliveryCheck_keeps (State.lbFail_keeps h)) (State.deliveryCheck_keeps (State.lbStatus_keeps h7)))

theorem State.lbNoReply_keeps {b} (h : s.Keeps q) :
    State.Keeps q (State.lbNoReply s b) := by
  unfold State.lbNoReply
  split
  · exact h
  · exact State.deliveryCheck_keeps (State.lbFail_keeps (State.bump_keeps h))

theorem State.lampSafe_keeps (h : s.Keeps q) :
    State.Keeps q (State.lampSafe s) := by
  unfold State.lampSafe
  extract_lets s1 _ s3 s4
  have h1 : s1.Keeps q := State.setLampEn_keeps h
  have h3 : s3.Keeps q := keeps_mk h1
  have h4 : s4.Keeps q := by
    refine State.each_keeps h3 (fun _ _ h5 => ?_)
    · extract_lets
      exact State.allOffOn_keeps (State.allOffOn_keeps (State.setLbus_keeps h5))
  exact State.allOffDone_keeps h4

theorem State.flip_keeps {l} (h : s.Keeps q) :
    State.Keeps q (State.flip s l) := by
  unfold State.flip
  extract_lets
  exact keeps_mk h

theorem State.fClean_keeps {p n} (h : s.Keeps q) :
    State.Keeps q (State.fClean s p n) := by
  unfold State.fClean
  extract_lets
  exact keeps_mk h

theorem State.fStore_keeps {p bs} (h : s.Keeps q) :
    State.Keeps q (State.fStore s p bs) := by
  unfold State.fStore
  extract_lets s1 _ _ s4
  have h1 : s1.Keeps q := State.fClean_keeps h
  have h4 : s4.Keeps q := State.store_keeps h1
  exact State.store_keeps h4

theorem State.fillShrank_keeps (h : s.Keeps q) :
    State.Keeps q (State.fillShrank s) := by
  unfold State.fillShrank
  exact ite_keeps (State.fput_keeps h) h

theorem State.fillGrew_keeps (h : s.Keeps q) :
    State.Keeps q (State.fillGrew s) := by
  unfold State.fillGrew
  extract_lets s1
  have h1 : s1.Keeps q := State.fput_keeps h
  exact ite_keeps (State.fput_keeps h1) (State.fillShrank_keeps h1)

theorem State.gapDrop_keeps {n time feed cause} (h : s.Keeps q) :
    State.Keeps q (State.gapDrop s n time feed cause) := by
  unfold State.gapDrop
  extract_lets _ s2 _ s4
  have h2 : s2.Keeps q := ite_keeps (State.bump_keeps h) h
  have h4 : s4.Keeps q := keeps_mk h2
  split
  · exact keeps_mk h2
  · exact ite_keeps (State.raiseAt_keeps h4) h4

theorem State.gapClose_keeps {g p} (h : s.Keeps q) :
    State.Keeps q (State.gapClose s g p) := by
  unfold State.gapClose
  extract_lets s1 s2 s3
  have h1 : s1.Keeps q := State.fStore_keeps h
  have h2 : s2.Keeps q := State.bump_keeps h1
  have h3 : s3.Keeps q := ite_keeps (State.raiseAt_keeps h2) h2
  exact keeps_mk h3

theorem State.commitMarks_keeps {a} (h : s.Keeps q) : State.Keeps q (State.commitMarks s a) := by
  induction a generalizing s with
  | nil => exact h
  | cons r rest ih =>
    unfold State.commitMarks
    split
    · exact ih (keeps_mk (State.wput_keeps (State.fput_keeps h)))
    · exact h

theorem State.reserve_keeps {n items cfg} (h : s.Keeps q) :
    State.Keeps q (State.reserve s n items cfg).2 := by
  unfold State.reserve
  extract_lets _ _ s3 _ s5 _ s7
  have h3 : s3.Keeps q := by
    unfold s3
    split
    · exact State.gapClose_keeps h
    · exact h
  have h5 : s5.Keeps q := State.fput_keeps h3
  have h7 : s7.Keeps q := keeps_mk h5
  split
  · exact State.commitMarks_keeps (State.fillGrew_keeps h7)
  · exact State.gapDrop_keeps h

theorem State.rewindLine_keeps {n cause} (h : s.Keeps q) :
    State.Keeps q (State.rewindLine s n cause) := by
  unfold State.rewindLine
  split
  · exact h
  · extract_lets _ _ s3 s4 s5 s6
    have h3 : s3.Keeps q := State.fStore_keeps h
    have h4 : s4.Keeps q := State.bump_keeps h3
    have h5 : s5.Keeps q := ite_keeps (State.fput_keeps h4) h4
    have h6 : s6.Keeps q := ite_keeps (State.bump_keeps h5) h5
    exact State.commitMarks_keeps (keeps_mk h6)

theorem State.commitLine_keeps {n r} (h : s.Keeps q) :
    State.Keeps q (State.commitLine s n r) := by
  unfold State.commitLine
  extract_lets s1 s2 s3
  have h1 : s1.Keeps q := State.fStore_keeps h
  have h2 : s2.Keeps q := State.fput_keeps h1
  have h3 : s3.Keeps q := State.wput_keeps h2
  exact State.commitMarks_keeps (keeps_mk h3)

theorem State.advanceFree_keeps (h : s.Keeps q) :
    State.Keeps q (State.advanceFree s) := by
  unfold State.advanceFree
  extract_lets _ s2
  have h2 : s2.Keeps q := keeps_mk h
  exact State.fillShrank_keeps (State.fput_keeps h2)

theorem State.openBytes_keeps {a n} (h : s.Keeps q) :
    State.Keeps q (State.openBytes s a n).2 := by
  unfold State.openBytes
  exact keeps_mk h

theorem State.record_keeps {a line dx dy status b10 ext} (h : s.Keeps q) :
    State.Keeps q (State.record s a line dx dy status b10 ext) := by
  unfold State.record
  extract_lets x1 _ _ s4
  clear_value (eh1 : x1 = _)
  have h1 : x1.2.Keeps q := by rw [eh1]; exact State.openBytes_keeps h
  have h4 : s4.Keeps q := ite_keeps h1 h
  exact State.store_keeps h4

theorem State.putStrips_keeps {re img} (h : s.Keeps q) :
    State.Keeps q (State.putStrips s re img) := by
  unfold State.putStrips
  extract_lets
  refine State.each_keeps h (fun _ _ h3 => ?_)
  · extract_lets _ _ s6
    have h6 : s6.Keeps q := State.store_keeps h3
    exact keeps_mk h6

theorem State.couchVerdict_keeps {c} (h : s.Keeps q) :
    State.Keeps q (State.couchVerdict s c) := by
  unfold State.couchVerdict
  extract_lets _ _ _ _ s5 s6 s7
  have h5 : s5.Keeps q := State.rput_keeps h
  have h6 : s6.Keeps q := ite_keeps (State.bump_keeps h5) h5
  have h7 : s7.Keeps q := State.raiseAt_keeps h6
  exact ite_keeps (keeps_mk h7) (keeps_mk h7)

theorem State.stripRecord_keeps {i k dx dy status q' t} (h : s.Keeps q) :
    State.Keeps q (State.stripRecord s i k dx dy status q' t) := by
  unfold State.stripRecord
  exact State.record_keeps h

theorem State.couchQueue_keeps {k} (h : s.Keeps q) :
    State.Keeps q (State.couchQueue s k) := by
  unfold State.couchQueue
  extract_lets _ _ _ _ s5 _ _ s9
  have h5 : s5.Keeps q := State.each_keeps h (fun _ _ h6 => State.stripRecord_keeps h6)
  have h9 : s9.Keeps q := keeps_mk h5
  exact ite_keeps (State.couchVerdict_keeps h9) (keeps_mk h9)

theorem State.overlapEnded_keeps (h : s.Keeps q) :
    State.Keeps q (State.overlapEnded s) := by
  unfold State.overlapEnded
  split
  · exact h
  · extract_lets _ _ s3
    have h3 : s3.Keeps q := keeps_mk h
    exact ite_keeps (State.couchQueue_keeps h3) h3

end Sys2Proof.Machine
end

