-- ==== Sys2Proof/Laws/KeepsLine.lean ====
section
/-!
SUPPORT. Every function of `PosOps`, `TrkOps`, `PxeOps`, `ShdOps`, `IndOps`, `NzlOps` keeps the state sound, the queue and the fuses.
-/

namespace Sys2Proof.Machine

variable {q : List Instr × Fuses} {s : State}

theorem State.setAbs_keeps {n x} (h : s.Keeps q) :
    State.Keeps q (State.setAbs s n x) := by
  unfold State.setAbs
  extract_lets
  exact keeps_mk h

theorem State.setQei_keeps {n x} (h : s.Keeps q) :
    State.Keeps q (State.setQei s n x) := by
  unfold State.setQei
  extract_lets
  exact keeps_mk h

theorem State.absUnc_keeps {n} (h : s.Keeps q) :
    State.Keeps q (State.absUnc s n) := by
  unfold State.absUnc
  extract_lets _ s2
  have h2 : s2.Keeps q := State.fputB_keeps h
  exact State.fput_keeps h2

theorem State.setQeiUnc_keeps {n u} (h : s.Keeps q) :
    State.Keeps q (State.setQeiUnc s n u) := by
  unfold State.setQeiUnc
  exact State.fput_keeps (State.fputB_keeps h)

theorem State.absFail_keeps {n err} (h : s.Keeps q) :
    State.Keeps q (State.absFail s n err) := by
  unfold State.absFail
  extract_lets _ _ s3 s4 s5
  have h3 : s3.Keeps q := State.setAbs_keeps h
  have h4 : s4.Keeps q := State.fput_keeps (State.bump_keeps h3)
  have h5 : s5.Keeps q := State.fput_keeps h4
  exact ite_keeps (State.raise_keeps (State.absUnc_keeps (State.fput_keeps h5))) h5

theorem State.absValid_keeps {n w} (h : s.Keeps q) :
    State.Keeps q (State.absValid s n w) := by
  unfold State.absValid
  extract_lets _ x2 _ s4 s5 s6
  clear_value (eh2 : x2 = _)
  have h2 : x2.2.Keeps q := by rw [eh2]; exact State.stamp_keeps h
  have h4 : s4.Keeps q := State.setAbs_keeps h2
  have h5 : s5.Keeps q := State.rput_keeps (State.rput_keeps (State.rput_keeps h4))
  have h6 : s6.Keeps q := State.fput_keeps h5
  exact ite_keeps (State.raise_keeps (State.absUnc_keeps (State.fput_keeps h6))) h6

theorem State.absJump_keeps {n w} (h : s.Keeps q) :
    State.Keeps q (State.absJump s n w) := by
  unfold State.absJump
  extract_lets _ _ _ s4 s5
  have h4 : s4.Keeps q := State.fput_keeps (State.bump_keeps (State.bump_keeps h))
  have h5 : s5.Keeps q := State.absValid_keeps h4
  split
  · exact State.absValid_keeps h
  · refine ite_keeps (State.absValid_keeps h) ?_
    · split
      · exact ite_keeps (State.raise_keeps (State.absUnc_keeps (State.fput_keeps h5))) (State.absFail_keeps (State.bump_keeps (State.setAbs_keeps h)))
      · exact State.absFail_keeps (State.bump_keeps (State.setAbs_keeps h))

theorem State.ssiFrame_keeps {n f} (h : s.Keeps q) :
    State.Keeps q (State.ssiFrame s n f) := by
  unfold State.ssiFrame
  extract_lets
  exact ite_keeps (State.absFail_keeps h) (State.absJump_keeps h)

theorem State.bissWarn_keeps {n w low good} (h : s.Keeps q) :
    State.Keeps q (State.bissWarn s n w low good) := by
  unfold State.bissWarn
  extract_lets s1
  have h1 : s1.Keeps q := State.fputB_keeps h
  exact ite_keeps (State.setAbs_keeps h1) (ite_keeps (State.raise_keeps (State.setAbs_keeps h1)) h1)

theorem State.bissFrame_keeps {n f} (h : s.Keeps q) :
    State.Keeps q (State.bissFrame s n f) := by
  unfold State.bissFrame
  extract_lets _ _ _ s4 _ _ _ _ _ _ s11
  have h4 : s4.Keeps q := State.fput_keeps h
  have h11 : s11.Keeps q := ite_keeps (State.bissWarn_keeps h4) (State.fput_keeps h4)
  exact ite_keeps (State.absFail_keeps h4) (ite_keeps (State.absFail_keeps h4) (ite_keeps (State.absJump_keeps h11) (State.absFail_keeps h11)))

theorem State.absFrame_keeps {n f} (h : s.Keeps q) :
    State.Keeps q (State.absFrame s n f) := by
  unfold State.absFrame
  exact ite_keeps (State.bissFrame_keeps h) (State.ssiFrame_keeps h)

theorem State.absStart_keeps {n} (h : s.Keeps q) :
    State.Keeps q (State.absStart s n) := by
  unfold State.absStart
  extract_lets
  exact State.fput_keeps (State.setAbs_keeps h)

theorem State.absTrigger_keeps {n} (h : s.Keeps q) :
    State.Keeps q (State.absTrigger s n) := by
  unfold State.absTrigger
  extract_lets _ s2
  have h2 : s2.Keeps q := State.bump_keeps h
  exact ite_keeps h (ite_keeps (State.absStart_keeps (State.setAbs_keeps h)) (ite_keeps (State.fput_keeps (State.setAbs_keeps h)) (ite_keeps h2 (State.raise_keeps (State.setAbs_keeps h2)))))

theorem State.absHeld_keeps {n} (h : s.Keeps q) :
    State.Keeps q (State.absHeld s n) := by
  unfold State.absHeld
  extract_lets s1
  have h1 : s1.Keeps q := State.fput_keeps h
  exact ite_keeps (ite_keeps (State.absStart_keeps h1) h1) h

theorem State.absNotReady_keeps {n} (h : s.Keeps q) :
    State.Keeps q (State.absNotReady s n) := by
  unfold State.absNotReady
  exact State.absHeld_keeps (State.fput_keeps (State.absFail_keeps h))

theorem State.absLb_keeps (h : s.Keeps q) :
    State.Keeps q (State.absLb s) := by
  unfold State.absLb
  exact State.each_keeps h (fun _ _ h1 => State.absTrigger_keeps h1)

theorem State.flagResv_keeps {n bits} (h : s.Keeps q) :
    State.Keeps q (State.flagResv s n bits) := by
  unfold State.flagResv
  extract_lets
  exact keeps_mk h

theorem State.feedUnc_keeps (h : s.Keeps q) :
    State.Keeps q (State.feedUnc s) := by
  unfold State.feedUnc
  split
  · extract_lets s1
    have h1 : s1.Keeps q := State.fput_keeps h
    refine ite_keeps ?_ h
    · split
      · exact State.flagResv_keeps h1
      · exact h1
  · exact h

theorem State.setSpd_keeps {n v} (h : s.Keeps q) :
    State.Keeps q (State.setSpd s n v) := by
  unfold State.setSpd
  exact ite_keeps (State.rput_keeps h) h

theorem State.qeiIndex_keeps {n} (h : s.Keeps q) :
    State.Keeps q (State.qeiIndex s n) := by
  unfold State.qeiIndex
  extract_lets _ _ x3 s4 s5 s6 _ _ _ _ s11 s12 _ _ s15 s16
  clear_value (eh3 : x3 = _)
  have h3 : x3.2.Keeps q := by rw [eh3]; exact State.stamp_keeps h
  have h4 : s4.Keeps q := State.rput_keeps h3
  have h5 : s5.Keeps q := State.rput_keeps (State.rput_keeps h4)
  have h6 : s6.Keeps q := State.setQei_keeps h5
  have h11 : s11.Keeps q := State.setQei_keeps h5
  have h12 : s12.Keeps q := State.rput_keeps h11
  have h15 : s15.Keeps q := State.bump_keeps (State.fput_keeps (State.setQeiUnc_keeps h12))
  have h16 : s16.Keeps q := State.feedUnc_keeps h15
  exact ite_keeps (State.fput_keeps (State.rput_keeps (State.rput_keeps h6))) (ite_keeps (State.setQei_keeps h5) (ite_keeps (ite_keeps h12 (State.raise_keeps h12)) (ite_keeps h16 (State.raise_keeps h16))))

theorem State.qeiLevels_keeps {n a b z} (h : s.Keeps q) :
    State.Keeps q (State.qeiLevels s n a b z) := by
  unfold State.qeiLevels
  extract_lets _ _ s3 _ s5
  have h3 : s3.Keeps q := State.fput_keeps h
  have h5 : s5.Keeps q := State.setQei_keeps h3
  exact ite_keeps (State.qeiIndex_keeps h5) h5

theorem State.qeiCount_keeps {n neg} (h : s.Keeps q) :
    State.Keeps q (State.qeiCount s n neg) := by
  unfold State.qeiCount
  extract_lets s1 s2 _ _ _ _ _ s8 s9
  have h1 : s1.Keeps q := State.rput_keeps h
  have h2 : s2.Keeps q := State.fputB_keeps h1
  have h8 : s8.Keeps q := State.setQei_keeps h2
  have h9 : s9.Keeps q := ite_keeps (State.fput_keeps h8) h8
  exact ite_keeps (State.setSpd_keeps h9) h8

theorem State.qeiIllegal_keeps {n} (h : s.Keeps q) :
    State.Keeps q (State.qeiIllegal s n) := by
  unfold State.qeiIllegal
  extract_lets s1 s2 _ s4 s5
  have h1 : s1.Keeps q := State.setQeiUnc_keeps (State.bump_keeps h)
  have h2 : s2.Keeps q := State.fput_keeps (State.rput_keeps h1)
  have h4 : s4.Keeps q := State.setQei_keeps h2
  have h5 : s5.Keeps q := State.feedUnc_keeps h4
  exact ite_keeps h5 (State.raise_keeps h5)

theorem State.qeiWindow_keeps {n} (h : s.Keeps q) :
    State.Keeps q (State.qeiWindow s n) := by
  unfold State.qeiWindow
  extract_lets _ _ _ _ s5 s6
  have h5 : s5.Keeps q := State.setQei_keeps (State.fputB_keeps h)
  have h6 : s6.Keeps q := ite_keeps h5 (State.fput_keeps h5)
  exact ite_keeps (State.setSpd_keeps h5) (State.setSpd_keeps h6)

theorem State.setWin_keeps {w x} (h : s.Keeps q) :
    State.Keeps q (State.setWin s w x) := by
  unfold State.setWin
  extract_lets
  exact keeps_mk h

theorem State.learn_keeps {e theta arc} (h : s.Keeps q) :
    State.Keeps q (State.learn s e theta arc) := by
  unfold State.learn
  extract_lets _ f2 s4
  have h2 : ∀ t y1 y2, State.Keeps q t → State.Keeps q (f2 t y1 y2) := by
    intro t y1 y2 h3
    unfold f2
    exact State.st_keeps h3
  have h4 : s4.Keeps q := foldl_keeps h (fun _ _ h5 => h2 _ _ _ h5)
  exact State.each_keeps h4 (fun _ _ h7 => h2 _ _ _ h7)

theorem State.mapCommit_keeps {held} (h : s.Keeps q) :
    State.Keeps q (State.mapCommit s held) := by
  unfold State.mapCommit
  refine ite_keeps h ?_
  · split
    · extract_lets s1 s2
      have h1 : s1.Keeps q := State.store_keeps h
      have h2 : s2.Keeps q := State.fput_keeps h1
      exact ite_keeps h (State.fput_keeps h2)
    · exact State.raiseLb_keeps (State.store_keeps h)

theorem State.feedCorrect_keeps {pass a} (h : s.Keeps q) :
    State.Keeps q (State.feedCorrect s pass a).2.2 := by
  unfold State.feedCorrect
  extract_lets _ _ _ _ _ _ _ _ _ _ _ _ _ _ s15 _ s17 s18 s19 s20 s21
  have h15 : s15.Keeps q := State.store_keeps h
  have h17 : s17.Keeps q := keeps_mk h15
  have h18 : s18.Keeps q := State.fput_keeps h17
  have h19 : s19.Keeps q := ite_keeps (State.raiseLb_keeps h18) h18
  have h20 : s20.Keeps q := ite_keeps (State.raiseLb_keeps h19) h19
  have h21 : s21.Keeps q := State.fputB_keeps (State.fputB_keeps h20)
  split
  · exact h21
  · exact h21

theorem State.quality_keeps {e} (h : s.Keeps q) :
    State.Keeps q (State.quality s e) := by
  unfold State.quality
  extract_lets _ _ _ _ _ _ s7 s8 s9
  have h7 : s7.Keeps q := keeps_mk h
  have h8 : s8.Keeps q := State.rput_keeps (State.fput_keeps h7)
  have h9 : s9.Keeps q := State.fput_keeps h8
  exact ite_keeps h9 (ite_keeps (State.raiseLb_keeps (keeps_mk h9)) (ite_keeps (State.raiseLb_keeps (keeps_mk h9)) h9))

theorem State.seamClose_keeps {m} (h : s.Keeps q) :
    State.Keeps q (State.seamClose s m) := by
  unfold State.seamClose
  extract_lets
  refine ite_keeps h (ite_keeps (State.raiseLb_keeps h) ?_)
  · split
    · exact State.raiseLb_keeps h
    · extract_lets s9 s10 s11 s12 _ s14
      have h9 : s9.Keeps q := State.st_keeps h
      have h10 : s10.Keeps q := State.st_keeps (State.st_keeps h)
      have h11 : s11.Keeps q := State.rput_keeps h10
      have h12 : s12.Keeps q := ite_keeps (State.rput_keeps h11) h11
      have h14 : s14.Keeps q := ite_keeps (State.learn_keeps h12) h12
      exact ite_keeps (State.raiseLb_keeps (State.bump_keeps h9)) (State.quality_keeps h14)

theorem State.seamCheck_keeps (h : s.Keeps q) :
    State.Keeps q (State.seamCheck s) := by
  unfold State.seamCheck
  extract_lets _ _ s3
  have h3 : s3.Keeps q := keeps_mk h
  exact foldl_keeps h3 (fun _ _ h4 => State.seamClose_keeps h4)

theorem State.geoClose_keeps {m} (h : s.Keeps q) :
    State.Keeps q (State.geoClose s m) := by
  unfold State.geoClose
  extract_lets
  split
  · extract_lets _ _ s4
    have h4 : s4.Keeps q := ite_keeps (keeps_mk h) h
    exact keeps_mk h4
  · exact h

theorem State.geoCheck_keeps (h : s.Keeps q) :
    State.Keeps q (State.geoCheck s) := by
  unfold State.geoCheck
  extract_lets _ _ s3
  have h3 : s3.Keeps q := keeps_mk h
  exact foldl_keeps h3 (fun _ _ h4 => State.geoClose_keeps h4)

theorem State.tickOver_keeps {w en trig first e} (h : s.Keeps q) :
    State.Keeps q (State.tickOver s w en trig first e) := by
  unfold State.tickOver
  extract_lets
  exact State.geoCheck_keeps (State.seamCheck_keeps (keeps_mk h))

theorem State.winInvalid_keeps {w line status b10 ext} (h : s.Keeps q) :
    State.Keeps q (State.winInvalid s w line status b10 ext) := by
  unfold State.winInvalid
  extract_lets s1
  have h1 : s1.Keeps q := State.record_keeps h
  exact ite_keeps h1 (State.bump_keeps h1)

theorem State.itemSkip_keeps {w p} (h : s.Keeps q) :
    State.Keeps q (State.itemSkip s w p) := by
  unfold State.itemSkip
  extract_lets s1 s2 _ s4
  have h1 : s1.Keeps q := State.raiseLb_keeps (State.bump_keeps h)
  have h2 : s2.Keeps q := State.winInvalid_keeps h1
  have h4 : s4.Keeps q := State.setWin_keeps h2
  exact State.tickOver_keeps h4

theorem State.couchOne_keeps {dy} (h : s.Keeps q) :
    State.Keeps q (State.couchOne s dy) := by
  unfold State.couchOne
  split
  · exact h
  · extract_lets _ _ s3
    have h3 : s3.Keeps q := keeps_mk h
    exact ite_keeps (State.couchVerdict_keeps h3) h3

theorem State.corrSkip_keeps {i} (h : s.Keeps q) :
    State.Keeps q (State.corrSkip s i) := by
  unfold State.corrSkip
  split
  · exact State.itemSkip_keeps h
  · exact State.itemSkip_keeps h
  · exact ite_keeps h (State.couchOne_keeps h)

theorem State.corrReady_keeps {k} (h : s.Keeps q) :
    State.Keeps q (State.corrReady s k) := by
  unfold State.corrReady
  extract_lets
  exact ite_keeps (State.corrSkip_keeps h) (keeps_mk h)

theorem State.patchDone_keeps {w p} (h : s.Keeps q) :
    State.Keeps q (State.patchDone s w p) := by
  unfold State.patchDone
  extract_lets _ _ s3 _ s5
  have h3 : s3.Keeps q := State.setWin_keeps h
  have h5 : s5.Keeps q := State.setWin_keeps h3
  refine ite_keeps (ite_keeps (State.corrReady_keeps h3) (State.tickOver_keeps (State.winInvalid_keeps h3))) (ite_keeps (State.winInvalid_keeps h5) ?_)
  · split
    · exact ite_keeps (State.winInvalid_keeps h5) (State.corrReady_keeps h5)
    · exact State.winInvalid_keeps h5

theorem State.slotTaken_keeps {w k} (h : s.Keeps q) :
    State.Keeps q (State.slotTaken s w k) := by
  unfold State.slotTaken
  extract_lets _ _ _ s4
  have h4 : s4.Keeps q := keeps_mk h
  exact foldl_keeps h4 (fun _ _ h5 => State.corrSkip_keeps h5)

theorem State.patchLine_keeps {w img} (h : s.Keeps q) :
    State.Keeps q (State.patchLine s w img) := by
  unfold State.patchLine
  extract_lets
  refine foldl_keeps h (fun _ _ h2 => ?_)
  · extract_lets s3 _ s5
    have h3 : s3.Keeps q := ite_keeps (State.slotTaken_keeps h2) h2
    have h5 : s5.Keeps q := State.store_keeps h3
    exact ite_keeps (State.setWin_keeps h5) h2

theorem State.patchesDone_keeps {w upto} (h : s.Keeps q) :
    State.Keeps q (State.patchesDone s w upto) := by
  unfold State.patchesDone
  refine foldl_keeps h (fun _ _ h1 => ?_)
  · split
    · exact ite_keeps (State.patchDone_keeps h1) h1
    · exact h1

theorem State.trackLine_keeps {img} (h : s.Keeps q) :
    State.Keeps q (State.trackLine s img) := by
  unfold State.trackLine
  extract_lets
  exact State.each_keeps h (fun _ _ h2 => State.patchesDone_keeps (State.patchLine_keeps h2))

theorem State.trigIgnored_keeps {w t} (h : s.Keeps q) :
    State.Keeps q (State.trigIgnored s w t) := by
  unfold State.trigIgnored
  extract_lets s1
  have h1 : s1.Keeps q := State.raiseLb_keeps (State.bump_keeps h)
  exact State.tickOver_keeps (State.setWin_keeps h1)

theorem State.winTrigger_keeps {w t} (h : s.Keeps q) :
    State.Keeps q (State.winTrigger s w t) := by
  unfold State.winTrigger
  extract_lets
  exact ite_keeps (State.trigIgnored_keeps h) (State.setWin_keeps h)

theorem State.trigGroup_keeps {t ws first} (h : s.Keeps q) :
    State.Keeps q (State.trigGroup s t ws first) := by
  unfold State.trigGroup
  extract_lets _ _ _ s4
  have h4 : s4.Keeps q := ite_keeps h (keeps_mk h)
  split
  · exact ite_keeps (ite_keeps h (keeps_mk h)) (keeps_mk (ite_keeps h (keeps_mk h)))
  · exact h4

theorem State.trackPb_keeps {pass} (h : s.Keeps q) :
    State.Keeps q (State.trackPb s pass) := by
  unfold State.trackPb
  extract_lets
  exact ite_keeps h (State.each_keeps (State.trigGroup_keeps h) (fun _ _ h3 => State.winTrigger_keeps h3))

theorem State.trackEvi_keeps {g} (h : s.Keeps q) :
    State.Keeps q (State.trackEvi s g) := by
  unfold State.trackEvi
  extract_lets _ _ _ s4
  have h4 : s4.Keeps q := keeps_mk h
  exact ite_keeps h (State.each_keeps (State.trigGroup_keeps h4) (fun _ _ h6 => State.winTrigger_keeps h6))

theorem State.patchBegin_keeps {w first t} (h : s.Keeps q) :
    State.Keeps q (State.patchBegin s w first t) := by
  unfold State.patchBegin
  extract_lets
  exact State.setWin_keeps h

theorem State.winCopy_keeps (h : s.Keeps q) :
    State.Keeps q (State.winCopy s) := by
  unfold State.winCopy
  extract_lets s1
  have h1 : s1.Keeps q := State.store_keeps h
  exact State.fput_keeps (keeps_mk h1)

theorem State.winChange_keeps {l w} (h : s.Keeps q) :
    State.Keeps q (State.winChange s l w) := by
  unfold State.winChange
  extract_lets _ _ _ _ _ s6 s7
  have h6 : s6.Keeps q := State.setWin_keeps h
  have h7 : s7.Keeps q := foldl_keeps h6 (fun _ _ h8 => State.tickOver_keeps h8)
  split
  · exact ite_keeps h7 (State.tickOver_keeps h7)
  · exact h7

theorem State.winCommit_keeps {l} (h : s.Keeps q) :
    State.Keeps q (State.winCommit s l) := by
  unfold State.winCommit
  extract_lets
  exact State.winCopy_keeps (State.each_keeps h (fun _ _ h2 => State.winChange_keeps h2))

theorem State.winJb_keeps (h : s.Keeps q) :
    State.Keeps q (State.winJb s) := by
  unfold State.winJb
  extract_lets _ s2
  have h2 : s2.Keeps q := ite_keeps (keeps_mk h) (State.winCopy_keeps h)
  exact keeps_mk h2

theorem State.trackSafe_keeps (h : s.Keeps q) :
    State.Keeps q (State.trackSafe s) := by
  unfold State.trackSafe
  extract_lets
  exact keeps_mk h

theorem State.winPeriodic_keeps {l w} (h : s.Keeps q) :
    State.Keeps q (State.winPeriodic s l w) := by
  unfold State.winPeriodic
  extract_lets _ _ _ _ s5
  have h5 : s5.Keeps q := State.setWin_keeps h
  exact ite_keeps (State.setWin_keeps h) (ite_keeps (State.trigIgnored_keeps h5) (State.patchBegin_keeps h5))

theorem State.trackLb_keeps {n} (h : s.Keeps q) :
    State.Keeps q (State.trackLb s n) := by
  unfold State.trackLb
  extract_lets _ _ s3 _ s5 _ s8
  have h3 : s3.Keeps q := ite_keeps (State.winCommit_keeps h) h
  have h5 : s5.Keeps q := State.each_keeps h3 (fun _ _ h6 => State.winPeriodic_keeps h6)
  have h8 : s8.Keeps q := State.trigGroup_keeps h5
  refine ite_keeps h3 (State.each_keeps h8 (fun _ _ h9 => ?_))
  · split
    · exact State.patchBegin_keeps h9
    · exact h9

theorem State.geomLb_keeps (h : s.Keeps q) :
    State.Keeps q (State.geomLb s) := by
  unfold State.geomLb
  extract_lets s1 s2
  have h1 : s1.Keeps q := State.fputI_keeps h
  have h2 : s2.Keeps q := State.fputI_keeps (State.fputI_keeps h1)
  exact keeps_mk h2

theorem State.webScale_keeps {scw} (h : s.Keeps q) :
    State.Keeps q (State.webScale s scw) := by
  unfold State.webScale
  extract_lets _ _ _ _ s5 _ _ s8
  have h5 : s5.Keeps q := State.rput_keeps h
  have h8 : s8.Keeps q := keeps_mk h5
  exact ite_keeps h (ite_keeps (State.raiseLb_keeps h8) h8)

theorem State.chainDone_keeps {w ref cur h'} (h : s.Keeps q) :
    State.Keeps q (State.chainDone s w ref cur h') := by
  unfold State.chainDone
  extract_lets e b v3 r t
  clear_value v3 t r e b
  refine ite_keeps (State.winInvalid_keeps h) ?_
  split
  · exact State.winInvalid_keeps h
  · refine ite_keeps (State.winInvalid_keeps h) (ite_keeps (State.record_keeps h) (ite_keeps ?_ ?_))
    · exact keeps_mk (State.record_keeps h)
    · exact State.webScale_keeps (keeps_mk (keeps_mk (State.record_keeps h)))

theorem State.tickDone_keeps {w cur h'} (h : s.Keeps q) :
    State.Keeps q (State.tickDone s w cur h') := by
  unfold State.tickDone
  extract_lets
  split
  · exact State.tickOver_keeps (State.winInvalid_keeps h)
  · extract_lets _ _ _ s8
    have h8 : s8.Keeps q := State.record_keeps h
    exact State.tickOver_keeps h8

theorem State.couchDone_keeps {n h'} (h : s.Keeps q) :
    State.Keeps q (State.couchDone s n h') := by
  unfold State.couchDone
  extract_lets
  split
  · exact h
  · extract_lets s4
    have h4 : s4.Keeps q := State.stripRecord_keeps h
    exact ite_keeps h (State.couchOne_keeps h4)

theorem State.setQueue_keeps {q' l} (h : s.Keeps q) :
    State.Keeps q (State.setQueue s q' l) := by
  unfold State.setQueue
  extract_lets
  exact keeps_mk h

theorem State.ready_keeps {b} (h : s.Keeps q) :
    State.Keeps q (State.ready s b) := by
  unfold State.ready
  exact State.setQueue_keeps h

theorem State.setPline_keeps {p} (h : s.Keeps q) :
    State.Keeps q (State.setPline s p) := by
  unfold State.setPline
  extract_lets
  exact keeps_mk h

theorem State.offer_keeps {n k b} (h : s.Keeps q) :
    State.Keeps q (State.offer s n k b) := by
  unfold State.offer
  split
  · exact h
  · extract_lets
    exact ite_keeps h (ite_keeps (State.setPline_keeps h) (State.ready_keeps h))

theorem State.offerJoint_keeps {n k j} (h : s.Keeps q) :
    State.Keeps q (State.offerJoint s n k j) := by
  unfold State.offerJoint
  split
  · exact h
  · exact ite_keeps h (ite_keeps h (ite_keeps h (State.offer_keeps h)))

theorem State.handLines_keeps {a} (h : s.Keeps q) : State.Keeps q (State.handLines s a) := by
  induction a generalizing s with
  | nil => exact h
  | cons p rest ih =>
    unfold State.handLines
    refine ite_keeps (ih h) (ite_keeps h (ite_keeps (ite_keeps h (ih (keeps_mk
      (ite_keeps (State.overlapEnded_keeps (State.putStrips_keeps h)) h)))) (ite_keeps ?_ ?_)))
    · split
      · exact ite_keeps (ih (keeps_mk (State.fput_keeps h))) h
      · exact h
    · exact ih (keeps_mk (State.fput_keeps h))

theorem State.handOverLines_keeps (h : s.Keeps q) :
    State.Keeps q (State.handOverLines s) := by
  unfold State.handOverLines
  exact State.handLines_keeps h

theorem State.discardLine_keeps {n} (h : s.Keeps q) :
    State.Keeps q (State.discardLine s n) := by
  unfold State.discardLine
  extract_lets
  exact keeps_mk h

theorem State.poolDropped_keeps {n cause} (h : s.Keeps q) :
    State.Keeps q (State.poolDropped s n cause) := by
  unfold State.poolDropped
  exact State.raiseAt_keeps (State.bump_keeps h)

theorem State.dropLine_keeps {n cause} (h : s.Keeps q) :
    State.Keeps q (State.dropLine s n cause) := by
  unfold State.dropLine
  split
  · exact h
  · extract_lets s1 s2 _ _ _ s6 s7
    have h1 : s1.Keeps q := State.discardLine_keeps h
    have h2 : s2.Keeps q := State.poolDropped_keeps h1
    have h6 : s6.Keeps q := by
      unfold s6
      split
      · exact State.poolDropped_keeps (State.discardLine_keeps h2)
      · exact ite_keeps (keeps_mk h2) h2
    have h7 : s7.Keeps q := ite_keeps (ite_keeps (State.overlapEnded_keeps h6) (State.rewindLine_keeps h6)) (ite_keeps (State.overlapEnded_keeps h2) (State.rewindLine_keeps h2))
    exact State.handOverLines_keeps h7

theorem State.clampUpdate_keeps {seg t k m} (h : s.Keeps q) :
    State.Keeps q (State.clampUpdate s seg t k m).2 := by
  unfold State.clampUpdate
  extract_lets _ _ _ _ _ _ s7
  have h7 : s7.Keeps q := keeps_mk h
  exact State.fputI_keeps h7

theorem State.stageReadout_keeps {seg n k taps} (h : s.Keeps q) :
    State.Keeps q (State.stageReadout s seg n k taps) := by
  unfold State.stageReadout
  extract_lets x1 s4
  have h1 : x1.2.Keeps q := by
    refine foldl_keeps2 h (fun _ _ h2 => ?_)
    · extract_lets x3
      clear_value (eh3 : x3 = _)
      have h3 : x3.2.Keeps q := by rw [eh3]; exact State.clampUpdate_keeps h2
      exact h3
  have h4 : s4.Keeps q := h1
  split
  · exact h4
  · split
    · exact State.dropLine_keeps h4
    · extract_lets s5 s6 _ _ s9 _ s11
      have h5 : s5.Keeps q := State.store_keeps h4
      have h6 : s6.Keeps q := State.store_keeps h5
      have h9 : s9.Keeps q := ite_keeps h6 (keeps_mk h6)
      have h11 : s11.Keeps q := State.setPline_keeps h9
      exact State.each_keeps h11 (fun _ _ h12 => State.offer_keeps h12)

theorem State.fStoreAt_keeps {pos off bs} (h : s.Keeps q) :
    State.Keeps q (State.fStoreAt s pos off bs) := by
  unfold State.fStoreAt
  extract_lets _ _ s3
  have h3 : s3.Keeps q := State.store_keeps (State.fClean_keeps h)
  exact State.store_keeps h3

theorem State.putPart_keeps {p off bs} (h : s.Keeps q) :
    State.Keeps q (State.putPart s p off bs).2 := by
  unfold State.putPart
  extract_lets
  split
  · exact h
  · split
    · exact h
    · exact State.fStoreAt_keeps h

theorem State.putWords_keeps {p off bs} (h : s.Keeps q) :
    State.Keeps q (State.putWords s p off bs).2 := by
  unfold State.putWords
  extract_lets _ _ x3 s4
  clear_value (eh3 : x3 = _)
  have h3 : x3.2.Keeps q := by rw [eh3]; exact State.putPart_keeps h
  have h4 : s4.Keeps q := State.fStoreAt_keeps h3
  exact State.putPart_keeps h4

theorem State.putPixels_keeps {p k x vs} (h : s.Keeps q) :
    State.Keeps q (State.putPixels s p k x vs).2 := by
  unfold State.putPixels
  extract_lets f1
  have h1 : ∀ t, State.Keeps q t → State.Keeps q (f1 t) := by
    intro t h2
    unfold f1
    exact State.store_keeps h2
  split
  · exact h1 _ h
  · split
    · exact h
    · split
      · exact h
      · exact State.putWords_keeps h

theorem State.doTap_keeps {p k seg t} (h : s.Keeps q) :
    State.Keeps q (State.doTap s p k seg t) := by
  unfold State.doTap
  extract_lets _ _ v3 _ _ _ _ _ _ x10 _ s12 _ _ _ s16
  clear_value (eh10 : x10 = _)
  have h10 : x10.2.Keeps q := by rw [eh10]; exact State.putPixels_keeps h
  have h12 : s12.Keeps q := h10
  have h16 : s16.Keeps q := State.setPline_keeps h12
  clear_value v3 
  split
  · exact h16
  · extract_lets
    exact keeps_mk h16

theorem State.doJoint_keeps {p k j} (h : s.Keeps q) :
    State.Keeps q (State.doJoint s p k j) := by
  unfold State.doJoint
  extract_lets _ _ _ _ _ _ x7
  clear_value (eh7 : x7 = _)
  have h7 : x7.2.Keeps q := by rw [eh7]; exact State.putPixels_keeps h
  exact State.setPline_keeps h7

theorem State.unlock_keeps {n k b} (h : s.Keeps q) :
    State.Keeps q (State.unlock s n k b) := by
  unfold State.unlock
  extract_lets s1
  have h1 : s1.Keeps q := by
    unfold s1
    split
    · exact ite_keeps h (State.offerJoint_keeps h)
    · exact ite_keeps h (State.offerJoint_keeps h)
    · exact h
  split
  · exact h1
  · split
    · exact h1
    · exact State.ready_keeps (State.setPline_keeps h1)

theorem State.blockDone_keeps {b} (h : s.Keeps q) :
    State.Keeps q (State.blockDone s b) := by
  unfold State.blockDone
  split
  · exact h
  · extract_lets s1
    have h1 : s1.Keeps q := by
      unfold s1
      split
      · exact State.doTap_keeps h
      · exact State.doJoint_keeps h
    exact State.handOverLines_keeps (State.unlock_keeps h1)

theorem State.poolCheck_keeps (h : s.Keeps q) :
    State.Keeps q (State.poolCheck s) := by
  unfold State.poolCheck
  extract_lets _ _ s3
  have h3 : s3.Keeps q := State.fput_keeps h
  exact ite_keeps (State.raise_keeps (keeps_mk h3)) (ite_keeps (State.raise_keeps (keeps_mk h3)) h3)

theorem State.segTemp_keeps {seg bank} (h : s.Keeps q) :
    State.Keeps q (State.segTemp s seg bank) := by
  unfold State.segTemp
  extract_lets _ _ _ _ _ s6 _ s8 s9
  have h6 : s6.Keeps q := keeps_mk h
  have h8 : s8.Keeps q := State.fputI_keeps (State.fputI_keeps h6)
  have h9 : s9.Keeps q := State.fputB_keeps h8
  exact ite_keeps (State.raise_keeps h9) (ite_keeps (State.raise_keeps h9) h9)

theorem State.poolLb_keeps {n cfg} (h : s.Keeps q) : State.Keeps q (State.poolLb s n cfg).2 := by
  unfold State.poolLb
  extract_lets _ _ f1 v x10
  have h1 : ∀ t y1, State.Keeps q t → State.Keeps q (f1 t y1) := by
    intro t y1 h2
    unfold f1
    extract_lets _ s3 s4
    have h3 : s3.Keeps q := keeps_mk h2
    have h4 : s4.Keeps q := State.each_keeps h3 (fun _ _ h5 => State.each_keeps h5 (fun _ _ h6 => State.each_keeps h6 (fun _ _ h7 => State.offer_keeps h7)))
    exact State.each_keeps h4 (fun _ _ h8 => State.each_keeps h8 (fun _ _ h9 => State.offerJoint_keeps h9))
  clear_value (eh10 : x10 = _)
  have h10 : x10.2.Keeps q := by rw [eh10]; exact State.reserve_keeps h
  clear_value f1
  clear eh10
  refine ite_keeps2 ?_ (ite_keeps2 (State.handOverLines_keeps (h1 _ _ h)) ?_)
  · cases s.pline (n - 1) with
    | some e => exact h1 _ _ h
    | none => exact ite_keeps2 (State.poolDropped_keeps (keeps_mk h)) h
  · rcases x10 with ⟨o, t⟩
    cases o with
    | some p => exact State.handOverLines_keeps (h1 _ _ h10)
    | none => exact h10

theorem State.segGone_keeps {seg} (h : s.Keeps q) :
    State.Keeps q (State.segGone s seg) := by
  unfold State.segGone
  extract_lets _ s2
  have h2 : s2.Keeps q := keeps_mk h
  refine foldl_keeps (State.readEnded_keeps h2) (fun _ _ h3 => ?_)
  · extract_lets _ s5
    have h5 : s5.Keeps q := State.setPline_keeps h3
    exact foldl_keeps h5 (fun _ _ h6 => State.each_keeps h6 (fun _ _ h7 => State.offer_keeps h7))

theorem State.setValid_keeps {b v} (h : s.Keeps q) :
    State.Keeps q (State.setValid s b v) := by
  unfold State.setValid
  exact State.st_keeps h

theorem State.selectBank_keeps {b} (h : s.Keeps q) :
    State.Keeps q (State.selectBank s b) := by
  unfold State.selectBank
  extract_lets s1
  have h1 : s1.Keeps q := keeps_mk h
  exact ite_keeps h1 (State.shadow_keeps h1)

theorem State.bankWritten_keeps {b} (h : s.Keeps q) :
    State.Keeps q (State.bankWritten s b) := by
  unfold State.bankWritten
  exact ite_keeps (State.setValid_keeps h) h

theorem region_wf {m cells : List Host.Cell} {a n : Nat} (h : Memory.wf m)
    (hc : cells.Pairwise (fun x y => x.1 < y.1)) (hb : ∀ e ∈ cells, a ≤ e.1 ∧ e.1 < a + n ∧ e.2 ≠ 0) :
    Memory.wf (m.filter (fun c => decide (c.1 < a)) ++ cells ++ m.filter (fun c => decide (a + n ≤ c.1))) := by
  refine ⟨List.pairwise_append.2 ⟨List.pairwise_append.2 ⟨h.1.filter _, hc, ?_⟩, h.1.filter _, ?_⟩, ?_⟩
  · intro x hx y hy
    have := (List.mem_filter.1 hx).2
    have := (hb y hy).1
    simp only [decide_eq_true_eq] at *
    omega
  · intro x hx y hy
    have h2 := (List.mem_filter.1 hy).2
    rcases List.mem_append.1 hx with hx | hx
    · have := (List.mem_filter.1 hx).2
      simp only [decide_eq_true_eq] at *
      omega
    · have := (hb x hx).2.1
      simp only [decide_eq_true_eq] at *
      omega
  · intro e he
    rcases List.mem_append.1 he with he | he
    · rcases List.mem_append.1 he with he | he
      · exact h.2 e (List.mem_of_mem_filter he)
      · exact (hb e he).2.2
    · exact h.2 e (List.mem_of_mem_filter he)

theorem State.region_keeps {a n} {cells : List Host.Cell} (h : s.Keeps q)
    (hc : cells.Pairwise (fun x y => x.1 < y.1)) (hb : ∀ e ∈ cells, a ≤ e.1 ∧ e.1 < a + n ∧ e.2 ≠ 0) :
    State.Keeps q (State.region s a n cells) :=
  ⟨⟨region_wf h.sound.mem hc hb, h.sound.regs, h.sound.staging⟩, h.rest⟩

theorem State.copyRegion_keeps {src dst n} (h : s.Keeps q) : State.Keeps q (State.copyRegion s src dst n) := by
  unfold State.copyRegion
  refine State.region_keeps h ?_ ?_
  · rw [List.pairwise_map]
    refine (h.sound.mem.1.filter _).imp_of_mem ?_
    intro x y hx hy hxy
    have hx := (List.mem_filter.1 hx).2
    have hy := (List.mem_filter.1 hy).2
    simp only [Bool.and_eq_true, decide_eq_true_eq] at hx hy ⊢
    omega
  · intro e he
    obtain ⟨x, hx, rfl⟩ := List.mem_map.1 he
    have h0 := h.sound.mem.2 x (List.mem_of_mem_filter hx)
    have hx := (List.mem_filter.1 hx).2
    simp only [Bool.and_eq_true, decide_eq_true_eq] at hx ⊢
    exact ⟨by omega, by omega, h0⟩

theorem State.validate_keeps {b source} (h : s.Keeps q) :
    State.Keeps q (State.validate s b source) := by
  unfold State.validate
  extract_lets
  exact State.setValid_keeps (State.st_keeps (State.st_keeps h))

theorem State.checkEnd_keeps {b} (h : s.Keeps q) :
    State.Keeps q (State.checkEnd s b) := by
  unfold State.checkEnd
  extract_lets _ s2 _ s4
  have h2 : s2.Keeps q := State.fput_keeps (State.fput_keeps h)
  have h4 : s4.Keeps q := keeps_mk h2
  exact ite_keeps (State.raise_keeps (State.validate_keeps h4)) (State.raise_keeps h4)

theorem State.showDrift_keeps {z k d} (h : s.Keeps q) :
    State.Keeps q (State.showDrift s z k d) := by
  unfold State.showDrift
  exact State.fput_keeps h

theorem State.driftReset_keeps {z} (h : s.Keeps q) :
    State.Keeps q (State.driftReset s z) := by
  unfold State.driftReset
  refine State.each_keeps h (fun _ _ h1 => ?_)
  · extract_lets s2
    have h2 : s2.Keeps q := State.showDrift_keeps (State.st_keeps h1)
    exact keeps_mk h2

theorem State.driftUpdate_keeps {z k sum count} (h : s.Keeps q) :
    State.Keeps q (State.driftUpdate s z k sum count) := by
  unfold State.driftUpdate
  extract_lets _ _ _ _ _ _ _ _ _ _ s11 s12 _ _ _ f16
  have h11 : s11.Keeps q := State.store_keeps h
  have h12 : s12.Keeps q := State.showDrift_keeps h11
  have h16 : ∀ t y1, State.Keeps q t → State.Keeps q (f16 t y1) := by
    intro t y1 h17
    unfold f16
    extract_lets
    exact keeps_mk h17
  exact ite_keeps (State.raise_keeps (h16 _ _ h12)) (ite_keeps (State.raise_keeps (h16 _ _ h12)) h12)

theorem State.driftCommit_keeps {r} (h : s.Keeps q) :
    State.Keeps q (State.driftCommit s r) := by
  unfold State.driftCommit
  exact ite_keeps (foldl_keeps h (fun _ _ h1 => ite_keeps h1 (State.driftUpdate_keeps h1))) h

theorem State.driftAfterCommit_keeps {bankBefore winBefore} (h : s.Keeps q) :
    State.Keeps q (State.driftAfterCommit s bankBefore winBefore) := by
  unfold State.driftAfterCommit
  exact ite_keeps (State.each_keeps h (fun _ _ h1 => State.driftReset_keeps h1)) (State.each_keeps h (fun _ _ h2 => State.driftReset_keeps h2))

theorem State.setCal_keeps {c} (h : s.Keeps q) :
    State.Keeps q (State.setCal s c) := by
  unfold State.setCal
  extract_lets
  exact keeps_mk h

theorem State.calAccumulate_keeps {c seg t k clamp y} (h : s.Keeps q) :
    State.Keeps q (State.calAccumulate s c seg t k clamp y) := by
  unfold State.calAccumulate
  extract_lets
  exact foldl_keeps h (fun _ _ h2 => State.st_keeps h2)

theorem State.calReadout_keeps {seg n k taps} (h : s.Keeps q) :
    State.Keeps q (State.calReadout s seg n k taps) := by
  unfold State.calReadout
  split
  · exact h
  · extract_lets s1 s2
    have h1 : s1.Keeps q := State.store_keeps h
    have h2 : s2.Keeps q := State.store_keeps h1
    refine State.each_keeps h2 (fun _ _ h3 => ?_)
    · extract_lets _ x5 s6
      clear_value (eh5 : x5 = _)
      have h5 : x5.2.Keeps q := by rw [eh5]; exact State.clampUpdate_keeps h3
      have h6 : s6.Keeps q := h5
      split
      · exact h6
      · extract_lets
        exact ite_keeps (State.setCal_keeps (State.st_keeps (State.calAccumulate_keeps h6))) h6

theorem State.putEntry_keeps {b k x off n v} (h : s.Keeps q) :
    State.Keeps q (State.putEntry s b k x off n v) := by
  unfold State.putEntry
  extract_lets s1
  have h1 : s1.Keeps q := State.st_keeps h
  exact ite_keeps (State.st_keeps h1) h1

theorem State.calSettle_keeps {c k x fail replaced} (h : s.Keeps q) :
    State.Keeps q (State.calSettle s c k x fail replaced).1 := by
  unfold State.calSettle
  extract_lets _ s2
  have h2 : s2.Keeps q := State.putEntry_keeps h
  exact h2

theorem State.calDark_keeps {c} (h : s.Keeps q) :
    State.Keeps q (State.calDark s c).1 := by
  unfold State.calDark
  extract_lets
  refine foldl_keeps1 h (fun _ _ h4 => ?_)
  · extract_lets
    refine foldl_keeps1 h4 (fun _ _ h7 => ?_)
    · extract_lets s8 _ _ _ _ s13 s14
      have h8 : s8.Keeps q := h7
      have h13 : s13.Keeps q := ite_keeps h8 (State.putEntry_keeps h8)
      have h14 : s14.Keeps q := ite_keeps h13 (State.putEntry_keeps h13)
      split
      · exact State.calSettle_keeps h13
      · exact h14

theorem State.calGain_keeps {c} (h : s.Keeps q) :
    State.Keeps q (State.calGain s c).1 := by
  unfold State.calGain
  extract_lets
  refine foldl_keeps1 h (fun _ _ h5 => ?_)
  · extract_lets _ _ _ _ _ x11
    clear_value (eh11 : x11 = _)
    have h11 : x11.1.Keeps q := by rw [eh11]; exact State.st_keeps h5
    refine foldl_keeps1 h11 (fun _ _ h12 => ?_)
    · extract_lets s13 _ _ _ _ s18
      have h13 : s13.Keeps q := h12
      have h18 : s18.Keeps q := ite_keeps h13 (State.putEntry_keeps h13)
      exact State.calSettle_keeps h18

theorem State.calTref_keeps {c} (h : s.Keeps q) :
    State.Keeps q (State.calTref s c) := by
  unfold State.calTref
  exact State.each_keeps h (fun _ _ h1 => State.st_keeps h1)

theorem State.calRnu_keeps {c} (h : s.Keeps q) :
    State.Keeps q (State.calRnu s c) := by
  unfold State.calRnu
  refine foldl_keeps h (fun _ _ h1 => State.each_keeps h1 (fun _ _ h2 => ?_))
  · extract_lets _ _ s5 _ s7
    have h5 : s5.Keeps q := State.st_keeps h2
    have h7 : s7.Keeps q := State.fput_keeps h5
    exact ite_keeps (State.raise_keeps h7) h7

theorem State.calClear_keeps (h : s.Keeps q) :
    State.Keeps q (State.calClear s) := by
  unfold State.calClear
  exact State.clear_keeps (State.clear_keeps h)

theorem mapFilter_wf {m : List Host.Cell} {f : Host.Cell → Host.Cell} (h : Memory.wf m) (hf : ∀ e, (f e).1 = e.1) :
    Memory.wf ((m.map f).filter (fun e => e.2 != 0)) := by
  refine ⟨List.Pairwise.filter _ (List.pairwise_map.2 (h.1.imp (fun {x y} hxy => ?_))), fun e he => ?_⟩
  · rw [hf, hf]; exact hxy
  · have := (List.mem_filter.1 he).2
    simpa [memDefault] using this

theorem State.calPrepare_keeps {c} (h : s.Keeps q) : State.Keeps q (State.calPrepare s c) := by
  unfold State.calPrepare
  extract_lets _ f t s1 s2 s3 s4 s5 s6 s7 s8 s9
  have h1 : s1.Keeps q := State.bankWritten_keeps h
  have h2 : s2.Keeps q := State.copyRegion_keeps h1
  have h3 : s3.Keeps q := State.copyRegion_keeps h2
  have h4 : s4.Keeps q := by
    refine State.region_keeps h1 ?_ ?_
    · rw [List.pairwise_map]
      refine List.pairwise_lt_range.imp (fun {x y} hxy => ?_)
      simp only
      omega
    · intro e he
      obtain ⟨x, hx, rfl⟩ := List.mem_map.1 he
      have := List.mem_range.1 hx
      refine ⟨by simp only; omega, by simp only; omega, by simp only; decide⟩
  have h5 : s5.Keeps q := State.store_keeps h4
  have h6 : s6.Keeps q := by
    unfold s6
    split
    · exact h1
    · split
      · exact State.copyRegion_keeps h3
      · exact State.store_keeps h5
  have h8 : s7.Keeps q := by
    unfold s7
    split
    · refine ⟨⟨mapFilter_wf h6.sound.mem (fun e => ?_), h6.sound.regs, h6.sound.staging⟩, h6.rest⟩
      split <;> rfl
    · exact h6
  exact State.each_keeps (State.st_keeps (State.st_keeps (State.clear_keeps (State.clear_keeps h8))))
    (fun _ _ h => State.st_keeps h)

theorem State.calHeader_keeps {c} (h : s.Keeps q) :
    State.Keeps q (State.calHeader s c) := by
  unfold State.calHeader
  extract_lets _ s2 s3 s4 s5
  have h2 : s2.Keeps q := State.st_keeps (State.st_keeps h)
  have h3 : s3.Keeps q := State.clear_keeps (State.clear_keeps (State.clear_keeps h2))
  have h4 : s4.Keeps q := State.st_keeps (State.st_keeps h3)
  have h5 : s5.Keeps q := State.st_keeps h4
  exact State.validate_keeps h5

theorem State.calFinish_keeps {c} (h : s.Keeps q) :
    State.Keeps q (State.calFinish s c) := by
  unfold State.calFinish
  extract_lets s1 s2 s3 s4
  have h1 : s1.Keeps q := State.setCal_keeps h
  have h2 : s2.Keeps q := State.fput_keeps (State.fput_keeps (State.fput_keeps h1))
  have h3 : s3.Keeps q := State.fput_keeps (State.fput_keeps h2)
  have h4 : s4.Keeps q := ite_keeps (State.selectBank_keeps h3) h3
  split
  · exact State.raise_keeps h4
  · exact State.raise_keeps (State.bankWritten_keeps h3)

theorem State.engRestart_keeps {e} (h : s.Keeps q) :
    State.Keeps q (State.engRestart s e) := by
  unfold State.engRestart
  extract_lets
  exact keeps_mk h

theorem State.safePatternEnd_keeps (h : s.Keeps q) :
    State.Keeps q (State.safePatternEnd s) := by
  unfold State.safePatternEnd
  exact ite_keeps (State.each_keeps (State.fput_keeps h) (fun _ _ h1 => State.engRestart_keeps h1)) h

theorem State.indFrame_keeps (h : s.Keeps q) :
    State.Keeps q (State.indFrame s) := by
  unfold State.indFrame
  extract_lets s1
  have h1 : s1.Keeps q := State.safePatternEnd_keeps h
  exact keeps_mk h1

theorem State.indRow_keeps (h : s.Keeps q) :
    State.Keeps q (State.indRow s) := by
  unfold State.indRow
  extract_lets _ _ s3 _ s5
  have h3 : s3.Keeps q := State.fput_keeps h
  have h5 : s5.Keeps q := keeps_mk h3
  exact ite_keeps (State.out_keeps h5) h5

theorem State.pointerExpire_keeps {e} (h : s.Keeps q) :
    State.Keeps q (State.pointerExpire s e) := by
  unfold State.pointerExpire
  exact ite_keeps (State.fput_keeps h) h

theorem State.streakPointer_keeps {x} (h : s.Keeps q) :
    State.Keeps q (State.streakPointer s x) := by
  unfold State.streakPointer
  extract_lets _ s2
  have h2 : s2.Keeps q := State.fput_keeps h
  exact State.each_keeps h2 (fun _ _ h3 => ite_keeps (State.engRestart_keeps (State.fput_keeps h3)) h3)

theorem State.safePattern_keeps (h : s.Keeps q) :
    State.Keeps q (State.safePattern s) := by
  unfold State.safePattern
  extract_lets s1
  have h1 : s1.Keeps q := State.fput_keeps h
  exact keeps_mk h1

theorem State.zeroContexts_keeps {first count} (h : s.Keeps q) :
    State.Keeps q (State.zeroContexts s first count) := by
  unfold State.zeroContexts
  exact State.clear_keeps h

theorem State.nzCommit_keeps (h : s.Keeps q) :
    State.Keeps q (State.nzCommit s) := by
  unfold State.nzCommit
  extract_lets s1
  have h1 : s1.Keeps q := State.store_keeps h
  refine State.each_keeps h1 (fun _ _ h2 => ?_)
  · extract_lets
    exact ite_keeps (State.zeroContexts_keeps h2) h2

theorem State.setCtx_keeps {i c} (h : s.Keeps q) :
    State.Keeps q (State.setCtx s i c) := by
  unfold State.setCtx
  exact State.store_keeps h

theorem State.nozzleState_keeps {desc i line old c} (h : s.Keeps q) :
    State.Keeps q (State.nozzleState s desc i line old c) := by
  unfold State.nozzleState
  exact State.raiseAt_keeps h

theorem State.nozzleObs_keeps {desc d num n line bin ob} (h : s.Keeps q) :
    State.Keeps q (State.nozzleObs s desc d num n line bin ob) := by
  unfold State.nozzleObs
  extract_lets _ _ _ _ _ _ s7
  have h7 : s7.Keeps q := State.setCtx_keeps h
  exact ite_keeps (State.nozzleState_keeps h7) h7

theorem State.setBands_keeps {bs} (h : s.Keeps q) :
    State.Keeps q (State.setBands s bs) := by
  unfold State.setBands
  extract_lets
  exact keeps_mk h

theorem State.putBand_keeps {b} (h : s.Keeps q) :
    State.Keeps q (State.putBand s b) := by
  unfold State.putBand
  exact State.setBands_keeps h

theorem State.geomClamp_keeps {b desc} (h : s.Keeps q) :
    State.Keeps q (State.geomClamp s b desc) := by
  unfold State.geomClamp
  exact ite_keeps h (State.raiseAt_keeps (State.putBand_keeps h))

theorem State.chunkNozzle_keeps {stream num desc n} (h : s.Keeps q) :
    State.Keeps q (State.chunkNozzle s stream num desc n) := by
  unfold State.chunkNozzle
  split
  · exact h
  · extract_lets _ _ _ f4
    have h4 : ∀ t, State.Keeps q t → State.Keeps q (f4 t) := by
      intro t h5
      unfold f4
      split
      · exact State.putBand_keeps h5
      · exact h5
    refine ite_keeps (h4 _ (State.geomClamp_keeps h)) ?_
    · split
      · exact h4 _ h
      · exact State.nozzleObs_keeps h

theorem State.unseen_keeps {b desc n} (h : s.Keeps q) :
    State.Keeps q (State.unseen s b desc n) := by
  unfold State.unseen
  extract_lets
  exact ite_keeps (State.nozzleState_keeps (State.setCtx_keeps h)) (State.setCtx_keeps h)

theorem State.closeIfDone_keeps {stream num} (h : s.Keeps q) :
    State.Keeps q (State.closeIfDone s stream num) := by
  unfold State.closeIfDone
  split
  · exact h
  · extract_lets s1
    have h1 : s1.Keeps q := foldl_keeps h (fun _ _ h2 => State.unseen_keeps h2)
    exact ite_keeps h (State.setBands_keeps h1)

theorem State.chunkOver_keeps {stream num desc idx} (h : s.Keeps q) :
    State.Keeps q (State.chunkOver s stream num desc idx) := by
  unfold State.chunkOver
  split
  · exact h
  · exact State.closeIfDone_keeps (State.putBand_keeps h)

theorem State.chunkSkip_keeps {stream num desc idx} (h : s.Keeps q) :
    State.Keeps q (State.chunkSkip s stream num desc idx) := by
  unfold State.chunkSkip
  extract_lets s1
  have h1 : s1.Keeps q := State.bump_keeps h
  split
  · exact h1
  · extract_lets s2
    have h2 : s2.Keeps q := ite_keeps h1 (State.raiseAt_keeps (State.putBand_keeps h1))
    exact State.chunkOver_keeps h2

theorem State.chunkApply_keeps {c} (h : s.Keeps q) :
    State.Keeps q (State.chunkApply s c) := by
  unfold State.chunkApply
  extract_lets
  exact State.chunkOver_keeps (State.each_keeps h (fun _ _ h2 => State.chunkNozzle_keeps h2))

theorem State.chunksReady_keeps (h : s.Keeps q) :
    State.Keeps q (State.chunksReady s) := by
  unfold State.chunksReady
  extract_lets
  refine foldl_keeps h (fun _ _ h4 => ?_)
  · split
    · exact h4
    · extract_lets s5
      have h5 : s5.Keeps q := State.putBand_keeps h4
      exact ite_keeps (State.chunkSkip_keeps h5) (keeps_mk h5)

theorem State.bandsAge_keeps (h : s.Keeps q) :
    State.Keeps q (State.bandsAge s) := by
  unfold State.bandsAge
  extract_lets
  exact keeps_mk h

theorem State.bandStart_keeps {stream n} (h : s.Keeps q) :
    State.Keeps q (State.bandStart s stream n) := by
  unfold State.bandStart
  extract_lets _ _ s3 s4 _ _ _ _ _ s10
  have h3 : s3.Keeps q := State.fput_keeps h
  have h4 : s4.Keeps q := State.fput_keeps (State.fput_keeps (State.fput_keeps h3))
  have h10 : s10.Keeps q := keeps_mk h4
  exact ite_keeps (State.raiseAt_keeps h) (State.closeIfDone_keeps h10)

theorem State.bandLb_keeps {n} (h : s.Keeps q) :
    State.Keeps q (State.bandLb s n) := by
  unfold State.bandLb
  refine ite_keeps h (State.each_keeps h (fun _ _ h1 => ?_))
  · extract_lets _ _ _ _ _ _ _ s9 s10
    have h9 : s9.Keeps q := keeps_mk h1
    have h10 : s10.Keeps q := ite_keeps (State.bandStart_keeps h9) h9
    exact foldl_keeps h10 (fun _ _ h11 => State.bandStart_keeps h11)

theorem State.bandEvi_keeps {g} (h : s.Keeps q) :
    State.Keeps q (State.bandEvi s g) := by
  unfold State.bandEvi
  refine ite_keeps h (State.each_keeps h (fun _ _ h1 => ?_))
  · extract_lets
    exact ite_keeps (State.raiseAt_keeps h1) (keeps_mk h1)

theorem State.bandPb_keeps (h : s.Keeps q) :
    State.Keeps q (State.bandPb s) := by
  unfold State.bandPb
  refine State.each_keeps h (fun _ _ h1 => ?_)
  · extract_lets
    exact keeps_mk h1

theorem State.bandHost_keeps {st} (h : s.Keeps q) :
    State.Keeps q (State.bandHost s st) := by
  unfold State.bandHost
  extract_lets _ _ _ s4
  have h4 : s4.Keeps q := keeps_mk h
  exact ite_keeps (State.raiseAt_keeps h4) h4

theorem State.bandsDrop_keeps (h : s.Keeps q) :
    State.Keeps q (State.bandsDrop s) := by
  unfold State.bandsDrop
  extract_lets
  exact keeps_mk h

theorem State.streakEvent_keeps {suspect row x line k} (h : s.Keeps q) :
    State.Keeps q (State.streakEvent s suspect row x line k) := by
  unfold State.streakEvent
  extract_lets _ _ _ _ s5
  have h5 : s5.Keeps q := ite_keeps (keeps_mk h) h
  exact State.raiseAt_keeps h5

theorem State.exportLb_keeps {n} (h : s.Keeps q) :
    State.Keeps q (State.exportLb s n) := by
  unfold State.exportLb
  extract_lets
  exact keeps_mk h

end Sys2Proof.Machine
end

