-- ==== Sys2Proof/Laws/KeepsMotion.lean ====
section
/-!
SUPPORT. Every function of `MotOps`, `MonOps`, `DmaOps`, `HostOps` keeps the state sound, the queue and the fuses.
-/

namespace Sys2Proof.Machine

variable {q : List Instr × Fuses} {s : State}

theorem State.setAxis_keeps {a x} (h : s.Keeps q) :
    State.Keeps q (State.setAxis s a x) := by
  unfold State.setAxis
  extract_lets
  exact keeps_mk h

theorem State.setAxPos_keeps {a n} (h : s.Keeps q) :
    State.Keeps q (State.setAxPos s a n) := by
  unfold State.setAxPos
  exact State.wput48_keeps h

theorem State.setF_keeps {f} (h : s.Keeps q) :
    State.Keeps q (State.setF s f) := by
  unfold State.setF
  extract_lets
  exact State.wput48_keeps (keeps_mk h)

theorem State.setFMoved_keeps {f} (h : s.Keeps q) :
    State.Keeps q (State.setFMoved s f) := by
  unfold State.setFMoved
  extract_lets s1
  have h1 : s1.Keeps q := State.setF_keeps h
  exact keeps_mk h1

theorem State.feedMoved_keeps {d0 d1} (h : s.Keeps q) :
    State.Keeps q (State.feedMoved s d0 d1) := by
  unfold State.feedMoved
  refine ite_keeps (State.setFMoved_keeps h) ?_
  · split
    · extract_lets
      exact State.setFMoved_keeps h
    · exact h

theorem State.feedCount_keeps {n neg} (h : s.Keeps q) :
    State.Keeps q (State.feedCount s n neg) := by
  unfold State.feedCount
  extract_lets
  exact ite_keeps (State.setF_keeps h) h

theorem State.mbCommit_keeps {a} (h : s.Keeps q) :
    State.Keeps q (State.mbCommit s a) := by
  unfold State.mbCommit
  extract_lets _ s2 s4 s5
  have h2 : s2.Keeps q := by
    refine foldl_keeps h (fun _ _ h3 => ?_)
    · split
      · exact State.rput_keeps h3
      · exact h3
  have h4 : s4.Keeps q := State.setAxis_keeps (State.fput_keeps h2)
  have h5 : s5.Keeps q := State.boundary_keeps h4
  exact State.setAxis_keeps h5

theorem State.commitOne_keeps {addr} (h : s.Keeps q) :
    State.Keeps q (State.commitOne s addr) := by
  unfold State.commitOne
  split
  · exact State.rput_keeps (keeps_mk h)
  · exact h

theorem State.deferOne_keeps {a addr what} (h : s.Keeps q) :
    State.Keeps q (State.deferOne s a addr what) := by
  unfold State.deferOne
  split
  · extract_lets _ s2 _ s4
    have h2 : s2.Keeps q := keeps_mk h
    have h4 : s4.Keeps q := State.fput_keeps (State.setAxis_keeps h2)
    exact State.raise_keeps h4
  · exact h

theorem State.undefer_keeps {a addr} (h : s.Keeps q) :
    State.Keeps q (State.undefer s a addr) := by
  unfold State.undefer
  extract_lets
  exact State.fput_keeps (State.setAxis_keeps h)

theorem State.decOrJerk_keeps {a addr what free} (h : s.Keeps q) :
    State.Keeps q (State.decOrJerk s a addr what free) := by
  unfold State.decOrJerk
  extract_lets s1 s2
  have h1 : s1.Keeps q := State.commitOne_keeps h
  have h2 : s2.Keeps q := State.setAxis_keeps h1
  exact ite_keeps h (ite_keeps (State.undefer_keeps h2) (State.deferOne_keeps h))

theorem State.mbInMove_keeps {a} (h : s.Keeps q) : State.Keeps q (State.mbInMove s a) := by
  unfold State.mbInMove
  extract_lets s1 s2
  have h1 : s1.Keeps q := State.commitOne_keeps (State.commitOne_keeps h)
  have h2 : s2.Keeps q := State.commitOne_keeps (State.commitOne_keeps h1)
  refine ite_keeps h (ite_keeps ?_ ?_)
  · exact State.setAxis_keeps h2
  · exact State.decOrJerk_keeps (State.decOrJerk_keeps (State.setAxis_keeps h1))

theorem State.mbAtJob_keeps {a} (h : s.Keeps q) :
    State.Keeps q (State.mbAtJob s a) := by
  unfold State.mbAtJob
  exact ite_keeps h (ite_keeps (State.commitOne_keeps (State.commitOne_keeps (State.mbInMove_keeps h))) (State.mbCommit_keeps h))

theorem State.countMb_keeps {a} (h : s.Keeps q) :
    State.Keeps q (State.countMb s a) := by
  unfold State.countMb
  exact State.rput_keeps h

theorem State.mbEdge_keeps {a} (h : s.Keeps q) :
    State.Keeps q (State.mbEdge s a) := by
  unfold State.mbEdge
  exact State.mbCommit_keeps (State.countMb_keeps h)

theorem State.setMoving_keeps {a b st} (h : s.Keeps q) :
    State.Keeps q (State.setMoving s a b st) := by
  unfold State.setMoving
  exact State.fput_keeps (State.fput_keeps h)

theorem State.moveDone_keeps {a k code} (h : s.Keeps q) :
    State.Keeps q (State.moveDone s a k code) := by
  unfold State.moveDone
  split
  · exact State.raise_keeps h
  · exact h

theorem State.dropQueued_keeps {a} (h : s.Keeps q) :
    State.Keeps q (State.dropQueued s a) := by
  unfold State.dropQueued
  extract_lets
  split
  · exact State.moveDone_keeps (State.fput_keeps (State.setAxis_keeps h))
  · exact h

theorem State.runCurrent_keeps {a} (h : s.Keeps q) :
    State.Keeps q (State.runCurrent s a).2 := by
  unfold State.runCurrent
  exact State.fput_keeps h

theorem State.moveEnded_keeps {a code} (h : s.Keeps q) :
    State.Keeps q (State.moveEnded s a code) := by
  unfold State.moveEnded
  extract_lets _ v2 s3 _ s9
  have h3 : s3.Keeps q := by
    refine State.each_keeps h (fun _ _ h4 => ?_)
    · extract_lets _ s6 s7
      have h6 : s6.Keeps q := State.setAxis_keeps h4
      have h7 : s7.Keeps q := State.mbEdge_keeps (State.setMoving_keeps h6)
      exact State.fputB_keeps h7
  have h9 : s9.Keeps q := State.setAxis_keeps h3
  clear_value v2 
  split
  · exact State.moveDone_keeps h9
  · exact h9

theorem State.setTarget_keeps {a tgt} (h : s.Keeps q) :
    State.Keeps q (State.setTarget s a tgt) := by
  unfold State.setTarget
  extract_lets _ s2
  have h2 : s2.Keeps q := State.wput48_keeps (State.setAxis_keeps h)
  exact ite_keeps (State.wput48_keeps h2) h2

theorem State.moveStart_keeps {a k tgt} (h : s.Keeps q) :
    State.Keeps q (State.moveStart s a k tgt) := by
  unfold State.moveStart
  extract_lets _ _ s3 _ s7 _ s9 s10
  have h3 : s3.Keeps q := by
    refine State.each_keeps h (fun _ _ h4 => ?_)
    · extract_lets s5
      have h5 : s5.Keeps q := State.setMoving_keeps (State.fput_keeps h4)
      exact ite_keeps h5 (State.mbEdge_keeps h5)
  have h7 : s7.Keeps q := State.setAxis_keeps h3
  have h9 : s9.Keeps q := ite_keeps (State.setAxis_keeps h7) h7
  have h10 : s10.Keeps q := State.setTarget_keeps h9
  exact ite_keeps (State.moveEnded_keeps h10) h10

theorem State.moveOrQueue_keeps {a k tgt} (h : s.Keeps q) :
    State.Keeps q (State.moveOrQueue s a k tgt) := by
  unfold State.moveOrQueue
  extract_lets
  exact ite_keeps (State.fput_keeps (State.setAxis_keeps h)) (State.moveStart_keeps h)

theorem State.halt_keeps {a} (h : s.Keeps q) :
    State.Keeps q (State.halt s a) := by
  unfold State.halt
  extract_lets s1
  have h1 : s1.Keeps q := State.dropQueued_keeps h
  exact ite_keeps h1 (ite_keeps (State.setTarget_keeps (State.setAxis_keeps h1)) (State.setTarget_keeps (State.setAxis_keeps h1)))

theorem State.setPosition_keeps {a pos} (h : s.Keeps q) :
    State.Keeps q (State.setPosition s a pos) := by
  unfold State.setPosition
  extract_lets _ s2
  have h2 : s2.Keeps q := State.setAxis_keeps (State.setAxPos_keeps h)
  exact State.fput_keeps (State.fput_keeps h2)

theorem State.posRestore_keeps {port} (h : s.Keeps q) :
    State.Keeps q (State.posRestore s port) := by
  unfold State.posRestore
  refine State.each_keeps h (fun _ _ h1 => ?_)
  · split
    · exact h1
    · extract_lets _ _ _ s5
      have h5 : s5.Keeps q := State.setAxis_keeps h1
      exact ite_keeps h1 (ite_keeps (State.setAxis_keeps h1) (State.raise_keeps (State.fput_keeps (State.setAxPos_keeps h5))))

theorem State.posUncertain_keeps {a} (h : s.Keeps q) :
    State.Keeps q (State.posUncertain s a) := by
  unfold State.posUncertain
  extract_lets s1
  have h1 : s1.Keeps q := State.raise_keeps (State.fput_keeps h)
  exact ite_keeps (State.setAxis_keeps h1) h1

theorem State.posUncertains_keeps {l} (h : s.Keeps q) :
    State.Keeps q (State.posUncertains s l) := by
  unfold State.posUncertains
  extract_lets
  exact State.each_keeps (State.each_keeps h (fun _ _ h2 => State.posUncertain_keeps h2)) (fun _ _ h3 => State.absTrigger_keeps h3)

theorem State.stopAxesAnd_keeps {l st also} (h : s.Keeps q) :
    State.Keeps q (State.stopAxesAnd s l st also) := by
  unfold State.stopAxesAnd
  extract_lets _ _ _ _ _ _ _ _ s9 s12 s13
  have h9 : s9.Keeps q := by
    refine State.each_keeps h (fun _ _ h10 => ?_)
    · extract_lets
      exact State.setAxis_keeps h10
  have h12 : s12.Keeps q := ite_keeps h9 (State.feedMoved_keeps h9)
  have h13 : s13.Keeps q := by
    refine State.each_keeps h12 (fun _ _ h14 => ?_)
    · extract_lets s15 _ s17 s18
      have h15 : s15.Keeps q := State.dropQueued_keeps h14
      have h17 : s17.Keeps q := State.setAxis_keeps h15
      have h18 : s18.Keeps q := State.fputB_keeps (State.mbEdge_keeps (State.setMoving_keeps h17))
      refine ite_keeps (State.fput_keeps h15) ?_
      · split
        · exact State.moveDone_keeps h18
        · exact h18
  exact State.posUncertains_keeps h13

theorem State.stopAxes_keeps {l st} (h : s.Keeps q) :
    State.Keeps q (State.stopAxes s l st) := by
  unfold State.stopAxes
  exact State.stopAxesAnd_keeps h

theorem State.mbStick_keeps (h : s.Keeps q) :
    State.Keeps q (State.mbStick s) := by
  unfold State.mbStick
  extract_lets _ s2
  have h2 : s2.Keeps q := keeps_mk h
  refine State.each_keeps h2 (fun _ _ h3 => ?_)
  · extract_lets
    exact State.fput_keeps (State.setAxis_keeps h3)

theorem State.restoreStop_keeps {a} (h : s.Keeps q) :
    State.Keeps q (State.restoreStop s a) := by
  unfold State.restoreStop
  extract_lets
  exact State.fput_keeps (State.setAxis_keeps h)

theorem State.motionSafe_keeps (h : s.Keeps q) :
    State.Keeps q (State.motionSafe s) := by
  unfold State.motionSafe
  extract_lets s1 _ s3
  have h1 : s1.Keeps q := ite_keeps (State.mbStick_keeps h) h
  have h3 : s3.Keeps q := State.stopAxesAnd_keeps (State.each_keeps h1 (fun _ _ h4 => State.restoreStop_keeps h4))
  exact State.each_keeps h3 (fun _ _ h5 => State.fput_keeps h5)

theorem State.updateVline_keeps (h : s.Keeps q) :
    State.Keeps q (State.updateVline s) := by
  unfold State.updateVline
  exact State.fput_keeps h

theorem State.setCouchStep_keeps {k} (h : s.Keeps q) :
    State.Keeps q (State.setCouchStep s k) := by
  unfold State.setCouchStep
  exact State.fput_keeps h

theorem State.couchRest_keeps (h : s.Keeps q) :
    State.Keeps q (State.couchRest s) := by
  unfold State.couchRest
  extract_lets
  exact State.setCouchStep_keeps (keeps_mk h)

theorem State.couchFresh_keeps (h : s.Keeps q) :
    State.Keeps q (State.couchFresh s) := by
  unfold State.couchFresh
  extract_lets
  exact keeps_mk h

theorem State.dropOverlap_keeps (h : s.Keeps q) :
    State.Keeps q (State.dropOverlap s) := by
  unfold State.dropOverlap
  exact foldl_keeps h (fun _ _ h1 => State.discardLine_keeps h1)

theorem State.giveBack_keeps (h : s.Keeps q) :
    State.Keeps q (State.giveBack s) := by
  unfold State.giveBack
  split
  · extract_lets
    exact ite_keeps (keeps_mk h) h
  · exact h

theorem State.couchNew_keeps {cause} (h : s.Keeps q) :
    State.Keeps q (State.couchNew s cause) := by
  unfold State.couchNew
  extract_lets s1 _ _ _ s5
  have h1 : s1.Keeps q := State.giveBack_keeps (State.couchFresh_keeps h)
  have h5 : s5.Keeps q := keeps_mk h1
  exact ite_keeps h (State.raiseAt_keeps (State.bump_keeps (State.setCouchStep_keeps h5)))

theorem State.couchAgain_keeps {c} (h : s.Keeps q) :
    State.Keeps q (State.couchAgain s c) := by
  unfold State.couchAgain
  extract_lets s1 _ _ _ s5
  have h1 : s1.Keeps q := State.giveBack_keeps (State.couchFresh_keeps (State.dropOverlap_keeps h))
  have h5 : s5.Keeps q := keeps_mk h1
  exact State.setCouchStep_keeps (State.halt_keeps h5)

theorem State.couchStart_keeps {cause} (h : s.Keeps q) :
    State.Keeps q (State.couchStart s cause) := by
  unfold State.couchStart
  refine ite_keeps h ?_
  · split
    · exact ite_keeps (State.couchAgain_keeps h) h
    · exact State.couchNew_keeps h

theorem State.acceptAdvance_keeps {pass a} (h : s.Keeps q) :
    State.Keeps q (State.acceptAdvance s pass a) := by
  unfold State.acceptAdvance
  extract_lets x1 s2 _ _ _ _ _ _ s9 s10 s11
  clear_value (eh1 : x1 = _)
  have h1 : x1.2.2.Keeps q := by rw [eh1]; exact State.feedCorrect_keeps h
  have h2 : s2.Keeps q := h1
  have h9 : s9.Keeps q := keeps_mk h2
  have h10 : s10.Keeps q := State.fput_keeps (State.fput_keeps (State.rput_keeps h9))
  have h11 : s11.Keeps q := State.setF_keeps h10
  exact ite_keeps (State.moveStart_keeps h10) (ite_keeps (State.moveStart_keeps h10) (keeps_mk h11))

theorem State.emitSteps_keeps {a p0} (h : s.Keeps q) :
    State.Keeps q (State.emitSteps s a p0) := by
  unfold State.emitSteps
  extract_lets _ _ _ _ _ _ s7
  have h7 : s7.Keeps q := State.setAxPos_keeps (State.setAxis_keeps h)
  exact ite_keeps (State.fput_keeps h7) h7

theorem State.profileEnded_keeps {a} (h : s.Keeps q) :
    State.Keeps q (State.profileEnded s a) := by
  unfold State.profileEnded
  extract_lets _ v2 _ s4
  have h4 : s4.Keeps q := State.moveEnded_keeps h
  clear_value v2 
  split
  · split
    · exact keeps_mk h4
    · exact h4
  · exact ite_keeps (State.couchRest_keeps h4) h4
  · split
    · exact ite_keeps (State.couchRest_keeps h4) (keeps_mk h4)
    · exact h4
  · exact h4

theorem State.mbWithin_keeps {a} (h : s.Keeps q) :
    State.Keeps q (State.mbWithin s a) := by
  unfold State.mbWithin
  exact State.mbInMove_keeps (State.countMb_keeps h)

theorem State.stepped_keeps {a k p0} (h : s.Keeps q) :
    State.Keeps q (State.stepped s a k p0) := by
  unfold State.stepped
  extract_lets _ s2 _ _ s5
  have h2 : s2.Keeps q := State.emitSteps_keeps h
  have h5 : s5.Keeps q := State.emitSteps_keeps (State.setAxis_keeps h2)
  exact ite_keeps (State.feedMoved_keeps h5) (ite_keeps (State.feedMoved_keeps h2) h2)

theorem State.axisTick_keeps {a} (h : s.Keeps q) :
    State.Keeps q (State.axisTick s a) := by
  unfold State.axisTick
  extract_lets
  split
  · exact h
  · extract_lets _ _ s5 s6
    have h5 : s5.Keeps q := State.stepped_keeps (State.setAxis_keeps h)
    have h6 : s6.Keeps q := State.each_keeps h5 (fun _ _ h7 => State.fput_keeps h7)
    exact ite_keeps (State.each_keeps h (fun _ _ h8 => State.mbWithin_keeps h8)) (ite_keeps (State.profileEnded_keeps h5) (State.each_keeps h6 (fun _ _ h9 => State.mbWithin_keeps h9)))

theorem State.restoreTick_keeps {a} (h : s.Keeps q) :
    State.Keeps q (State.restoreTick s a) := by
  unfold State.restoreTick
  extract_lets
  split
  · extract_lets _ _ _ s5
    have h5 : s5.Keeps q := State.fput_keeps h
    exact State.setAxis_keeps h5
  · exact h

theorem State.couchTick_keeps (h : s.Keeps q) :
    State.Keeps q (State.couchTick s) := by
  unfold State.couchTick
  extract_lets s1
  have h1 : s1.Keeps q := State.setCouchStep_keeps h
  exact ite_keeps (ite_keeps (State.halt_keeps h1) (State.couchRest_keeps h1)) h

theorem State.axisRound_keeps {a} (h : s.Keeps q) :
    State.Keeps q (State.axisRound s a) := by
  unfold State.axisRound
  extract_lets _ s2 s3 s4
  have h2 : s2.Keeps q := by
    unfold s2
    split
    · exact State.moveStart_keeps (State.fput_keeps (State.setAxis_keeps h))
    · exact State.axisTick_keeps h
  have h3 : s3.Keeps q := State.restoreTick_keeps h2
  have h4 : s4.Keeps q := ite_keeps (State.emitSteps_keeps h3) h3
  exact ite_keeps (State.mbCommit_keeps h4) h4

theorem State.axisRest_keeps {a} (h : s.Keeps q) :
    State.Keeps q (State.axisRest s a) := by
  unfold State.axisRest
  extract_lets
  exact State.setAxis_keeps h

theorem State.profileTick_keeps (h : s.Keeps q) :
    State.Keeps q (State.profileTick s) := by
  unfold State.profileTick
  exact State.each_keeps (State.each_keeps (State.couchTick_keeps h) (fun _ _ h1 => State.axisRound_keeps h1)) (fun _ _ h2 => State.axisRest_keeps h2)

theorem State.feedStopped_keeps {a cause} (h : s.Keeps q) :
    State.Keeps q (State.feedStopped s a cause) := by
  unfold State.feedStopped
  exact State.raise_keeps h

theorem State.enableFalls_keeps {a} (h : s.Keeps q) :
    State.Keeps q (State.enableFalls s a) := by
  unfold State.enableFalls
  exact ite_keeps (State.fput_keeps h) (State.fput_keeps (State.fput_keeps h))

theorem State.setChan_keeps {n x} (h : s.Keeps q) :
    State.Keeps q (State.setChan s n x) := by
  unfold State.setChan
  extract_lets
  exact keeps_mk h

theorem State.setConv_keeps {c} (h : s.Keeps q) :
    State.Keeps q (State.setConv s c) := by
  unfold State.setConv
  extract_lets
  exact keeps_mk h

theorem State.showStale_keeps {n} (h : s.Keeps q) :
    State.Keeps q (State.showStale s n) := by
  unfold State.showStale
  exact State.fputB_keeps h

theorem State.markStale_keeps {n} (h : s.Keeps q) :
    State.Keeps q (State.markStale s n) := by
  unfold State.markStale
  extract_lets
  exact State.showStale_keeps (State.setChan_keeps h)

theorem State.dropWork_keeps (h : s.Keeps q) :
    State.Keeps q (State.dropWork s) := by
  unfold State.dropWork
  split
  · exact h
  · extract_lets s1
    have h1 : s1.Keeps q := State.setConv_keeps h
    split
    · exact keeps_mk h1
    · exact keeps_mk h1
    · exact h1

theorem State.dropConv_keeps {n} (h : s.Keeps q) :
    State.Keeps q (State.dropConv s n) := by
  unfold State.dropConv
  exact ite_keeps (State.setConv_keeps h) h

theorem State.openChan_keeps {n cause} (h : s.Keeps q) :
    State.Keeps q (State.openChan s n cause) := by
  unfold State.openChan
  extract_lets s1
  have h1 : s1.Keeps q := State.bump_keeps (State.showStale_keeps (State.fput_keeps (State.dropConv_keeps h)))
  exact ite_keeps h (State.raise_keeps (State.setChan_keeps h1))

theorem State.closeChan_keeps {n} (h : s.Keeps q) :
    State.Keeps q (State.closeChan s n) := by
  unfold State.closeChan
  extract_lets
  exact State.raise_keeps (State.setChan_keeps (State.fput_keeps h))

theorem State.monRate_keeps (h : s.Keeps q) :
    State.Keeps q (State.monRate s) := by
  unfold State.monRate
  extract_lets _ s2
  have h2 : s2.Keeps q := ite_keeps h (State.raise_keeps (State.fput_keeps h))
  exact ite_keeps (State.each_keeps (State.dropWork_keeps h2) (fun _ _ h3 => State.openChan_keeps h3)) h2

theorem State.loadCoef_keeps {n} (h : s.Keeps q) :
    State.Keeps q (State.loadCoef s n) := by
  unfold State.loadCoef
  extract_lets s1
  have h1 : s1.Keeps q := by
    refine State.each_keeps h (fun _ _ h2 => ?_)
    · extract_lets
      exact keeps_mk h2
  exact State.setChan_keeps h1

theorem State.monNoResult_keeps {n err} (h : s.Keeps q) :
    State.Keeps q (State.monNoResult s n err) := by
  unfold State.monNoResult
  extract_lets s1
  have h1 : s1.Keeps q := State.fput_keeps h
  exact ite_keeps h1 (State.raise_keeps (State.setChan_keeps h1))

theorem State.monLimits_keeps {n t} (h : s.Keeps q) :
    State.Keeps q (State.monLimits s n t) := by
  unfold State.monLimits
  extract_lets _ _ _ f4
  have h4 : ∀ t y1 y2, State.Keeps q t → State.Keeps q (f4 t y1 y2) := by
    intro t y1 y2 h5
    unfold f4
    exact State.raise_keeps h5
  exact ite_keeps h (ite_keeps (ite_keeps h (h4 _ _ _ (State.setChan_keeps h))) (ite_keeps (ite_keeps h (h4 _ _ _ (State.setChan_keeps h))) (ite_keeps (h4 _ _ _ (State.setChan_keeps h)) h)))

theorem State.monResult_keeps {n r t} (h : s.Keeps q) :
    State.Keeps q (State.monResult s n r t) := by
  unfold State.monResult
  extract_lets x1 s2 s3 _ s5 s6
  clear_value (eh1 : x1 = _)
  have h1 : x1.2.Keeps q := by rw [eh1]; exact State.stamp_keeps h
  have h2 : s2.Keeps q := State.wput_keeps (State.rput_keeps (State.fputI_keeps h1))
  have h3 : s3.Keeps q := State.fput_keeps (State.fput_keeps (State.fput_keeps h2))
  have h5 : s5.Keeps q := State.setChan_keeps h3
  have h6 : s6.Keeps q := ite_keeps (State.closeChan_keeps h5) h5
  exact State.monLimits_keeps (State.showStale_keeps h6)

theorem State.monChannelEnd_keeps {n c} (h : s.Keeps q) :
    State.Keeps q (State.monChannelEnd s n c) := by
  unfold State.monChannelEnd
  extract_lets _ _ s3
  have h3 : s3.Keeps q := ite_keeps (keeps_mk h) h
  refine ite_keeps (State.monNoResult_keeps h) ?_
  · split
    · exact State.monResult_keeps h3
    · exact State.monNoResult_keeps h3

theorem State.monBegin_keeps {w n} (h : s.Keeps q) :
    State.Keeps q (State.monBegin s w n) := by
  unfold State.monBegin
  extract_lets s1
  have h1 : s1.Keeps q := ite_keeps (State.markStale_keeps (State.loadCoef_keeps h)) h
  exact State.setConv_keeps h1

theorem State.stepBegin_keeps {st tries} (h : s.Keeps q) :
    State.Keeps q (State.stepBegin s st tries) := by
  unfold State.stepBegin
  extract_lets _ s2
  have h2 : s2.Keeps q := by
    unfold s2
    split
    · exact State.markStale_keeps h
    · exact State.markStale_keeps h
    · exact State.markStale_keeps h
    · exact State.markStale_keeps h
    · exact h
  exact State.setConv_keeps h2

theorem State.faultUpdate_keeps (h : s.Keeps q) :
    State.Keeps q (State.faultUpdate s) := by
  unfold State.faultUpdate
  refine State.each_keeps h (fun _ _ h1 => ?_)
  · extract_lets s2
    have h2 : s2.Keeps q := State.fput_keeps h1
    exact ite_keeps (ite_keeps (State.closeChan_keeps h2) h2) (State.openChan_keeps (State.dropConv_keeps (State.fput_keeps h1)))

theorem State.monCalEnd_keeps (h : s.Keeps q) :
    State.Keeps q (State.monCalEnd s) := by
  unfold State.monCalEnd
  extract_lets s1 s2
  have h1 : s1.Keeps q := State.faultUpdate_keeps h
  have h2 : s2.Keeps q := State.raise_keeps (State.fput_keeps h1)
  exact keeps_mk h2

theorem State.stepReject_keeps {st} (h : s.Keeps q) :
    State.Keeps q (State.stepReject s st) := by
  unfold State.stepReject
  extract_lets _ _ _ _ _ _ s7 s8 _ s10
  have h7 : s7.Keeps q := keeps_mk h
  have h8 : s8.Keeps q := ite_keeps (State.bump_keeps h7) h7
  have h10 : s10.Keeps q := State.raise_keeps h8
  exact ite_keeps (State.raise_keeps h10) h10

theorem State.stepEnd_keeps {st tries c} (h : s.Keeps q) :
    State.Keeps q (State.stepEnd s st tries c) := by
  unfold State.stepEnd
  extract_lets _ _ _ _ v5 s6
  have h6 : s6.Keeps q := State.stepReject_keeps h
  clear_value v5 
  split
  · extract_lets s7
    have h7 : s7.Keeps q := State.rput_keeps h
    exact keeps_mk h7
  · exact ite_keeps (State.stepBegin_keeps h6) h6

theorem State.monCalStart_keeps (h : s.Keeps q) :
    State.Keeps q (State.monCalStart s) := by
  unfold State.monCalStart
  extract_lets _ s2 s3
  have h2 : s2.Keeps q := keeps_mk h
  have h3 : s3.Keeps q := State.fput_keeps h2
  exact ite_keeps (State.monCalEnd_keeps h3) h3

theorem State.convEnd_keeps {c} (h : s.Keeps q) :
    State.Keeps q (State.convEnd s c) := by
  unfold State.convEnd
  extract_lets s1
  have h1 : s1.Keeps q := State.setConv_keeps h
  split
  · exact State.monChannelEnd_keeps h1
  · extract_lets s3
    have h3 : s3.Keeps q := State.monChannelEnd_keeps h1
    exact ite_keeps (State.raise_keeps h3) h3
  · extract_lets s4
    have h4 : s4.Keeps q := keeps_mk h1
    exact ite_keeps h4 (State.fput_keeps (State.fput_keeps h4))
  · extract_lets s5
    have h5 : s5.Keeps q := State.stepEnd_keeps h1
    exact ite_keeps h5 (ite_keeps (State.monCalEnd_keeps h5) h5)

theorem State.passStart_keeps (h : s.Keeps q) :
    State.Keeps q (State.passStart s) := by
  unfold State.passStart
  extract_lets
  exact keeps_mk h

theorem State.dieBegin_keeps {closing} (h : s.Keeps q) :
    State.Keeps q (State.dieBegin s closing) := by
  unfold State.dieBegin
  exact State.setConv_keeps h

theorem State.dropInj_keeps (h : s.Keeps q) :
    State.Keeps q (State.dropInj s) := by
  unfold State.dropInj
  extract_lets
  exact State.fput_keeps (keeps_mk h)

theorem State.regularBegin_keeps {t} (h : s.Keeps q) (ht : s.regularBegin = some t) : t.Keeps q := by
  unfold State.regularBegin at ht
  extract_lets s1 at ht
  have h1 : s1.Keeps q := ite_keeps (State.passStart_keeps h) h
  (repeat' split at ht) <;> simp only [Option.some.injEq, reduceCtorEq] at ht <;> subst ht
  · exact State.dieBegin_keeps h1
  · exact State.monBegin_keeps (State.fput_keeps (keeps_mk h1))
  · exact State.dieBegin_keeps h1
  · exact State.dieBegin_keeps h1

theorem State.takeWork_keeps (h : s.Keeps q) : State.Keeps q (State.takeWork s) := by
  unfold State.takeWork
  extract_lets s1 s2 _ reg
  have h1 : s1.Keeps q := ite_keeps (State.monCalStart_keeps h) h
  have h2 : s2.Keeps q := State.dropInj_keeps h1
  split
  · exact State.monBegin_keeps (State.fput_keeps (keeps_mk h2))
  · split
    · split
      · split
        · exact keeps_mk (State.regularBegin_keeps h2 ‹_›)
        · exact State.stepBegin_keeps (keeps_mk h2)
      · exact State.stepBegin_keeps (keeps_mk h2)
    · unfold reg
      split
      · exact keeps_mk (State.regularBegin_keeps h2 ‹_›)
      · exact h2

theorem State.showAct_keeps (h : s.Keeps q) :
    State.Keeps q (State.showAct s) := by
  unfold State.showAct
  exact State.fput_keeps h

theorem State.windowOpen_keeps {n} (h : s.Keeps q) :
    State.Keeps q (State.windowOpen s n) := by
  unfold State.windowOpen
  extract_lets
  exact ite_keeps (State.setChan_keeps (State.dropConv_keeps h)) (State.openChan_keeps h)

theorem State.windowChecks_keeps {cm} (h : s.Keeps q) :
    State.Keeps q (State.windowChecks s cm) := by
  unfold State.windowChecks
  refine State.each_keeps h (fun _ _ h1 => ?_)
  · extract_lets
    exact ite_keeps (State.windowOpen_keeps (State.setChan_keeps h1)) (State.setChan_keeps h1)

theorem State.monErrCheck_keeps {e0 e1} (h : s.Keeps q) :
    State.Keeps q (State.monErrCheck s e0 e1) := by
  unfold State.monErrCheck
  extract_lets f1
  have h1 : ∀ t y1 y2, State.Keeps q t → State.Keeps q (f1 t y1 y2) := by
    intro t y1 y2 h2
    unfold f1
    split
    · extract_lets _ s4
      have h4 : s4.Keeps q := State.fput_keeps h2
      exact ite_keeps (State.readFail_keeps h2) (keeps_mk h4)
    · exact h2
  exact h1 _ _ _ (h1 _ _ _ h)

theorem State.convRestart_keeps {v} (h : s.Keeps q) :
    State.Keeps q (State.convRestart s v) := by
  unfold State.convRestart
  extract_lets s1
  have h1 : s1.Keeps q := State.setConv_keeps h
  refine ite_keeps (State.setConv_keeps h) ?_
  · split
    · exact ite_keeps (State.monCalEnd_keeps h1) h1
    · exact h1

theorem State.convPause_keeps (h : s.Keeps q) :
    State.Keeps q (State.convPause s) := by
  unfold State.convPause
  split
  · exact ite_keeps (State.convRestart_keeps h) h
  · exact h

theorem State.convPeriod_keeps {c} (h : s.Keeps q) :
    State.Keeps q (State.convPeriod s c) := by
  unfold State.convPeriod
  split
  · exact h
  · extract_lets _ _ _ s4
    have h4 : s4.Keeps q := by
      unfold s4
      split
      · exact keeps_mk h
      · exact h
    exact ite_keeps (State.convRestart_keeps h) (ite_keeps (State.setConv_keeps h) (ite_keeps (State.convEnd_keeps h4) (State.setConv_keeps h)))

theorem State.preempt_keeps (h : s.Keeps q) :
    State.Keeps q (State.preempt s) := by
  unfold State.preempt
  extract_lets s1
  have h1 : s1.Keeps q := State.dropInj_keeps h
  split
  · refine ite_keeps h1 ?_
    · split
      · exact State.dropWork_keeps h1
      · exact State.dropWork_keeps h1
      · exact h1
  · exact h1

theorem State.boundaryWork_keeps (h : s.Keeps q) :
    State.Keeps q (State.boundaryWork s) := by
  unfold State.boundaryWork
  extract_lets s1 s2 s3
  have h1 : s1.Keeps q := State.preempt_keeps h
  have h2 : s2.Keeps q := State.monRate_keeps (State.handOver_keeps h1)
  have h3 : s3.Keeps q := ite_keeps h2 (State.takeWork_keeps h2)
  exact ite_keeps (State.showAct_keeps h1) (State.showAct_keeps h3)

theorem State.newPeriod_keeps (h : s.Keeps q) :
    State.Keeps q (State.newPeriod s) := by
  unfold State.newPeriod
  extract_lets
  exact keeps_mk h

theorem State.chopPeriod_keeps {c} (h : s.Keeps q) :
    State.Keeps q (State.chopPeriod s c) := by
  unfold State.chopPeriod
  extract_lets _ s2 _ _ s5
  have h2 : s2.Keeps q := keeps_mk h
  have h5 : s5.Keeps q := State.newPeriod_keeps (State.monRate_keeps (State.windowChecks_keeps (State.monErrCheck_keeps h2)))
  exact ite_keeps h (ite_keeps h2 (ite_keeps (State.boundaryWork_keeps (State.convPause_keeps (State.newPeriod_keeps (State.fputB_keeps h2)))) (State.boundaryWork_keeps (State.convPeriod_keeps h5))))

theorem State.blankRose_keeps (h : s.Keeps q) :
    State.Keeps q (State.blankRose s) := by
  unfold State.blankRose
  exact ite_keeps (State.fput_keeps h) h

theorem State.blankFell_keeps (h : s.Keeps q) :
    State.Keeps q (State.blankFell s) := by
  unfold State.blankFell
  extract_lets
  exact State.fput_keeps (keeps_mk h)

theorem State.blankOn_keeps (h : s.Keeps q) :
    State.Keeps q (State.blankOn s) := by
  unfold State.blankOn
  extract_lets
  exact State.blankRose_keeps (keeps_mk h)

theorem State.blankOff_keeps (h : s.Keeps q) :
    State.Keeps q (State.blankOff s) := by
  unfold State.blankOff
  extract_lets
  exact State.blankFell_keeps (keeps_mk h)

theorem State.blankLong_keeps (h : s.Keeps q) :
    State.Keeps q (State.blankLong s) := by
  unfold State.blankLong
  exact ite_keeps (State.raise_keeps (State.fput_keeps h)) h

theorem State.monTrigger_keeps (h : s.Keeps q) :
    State.Keeps q (State.monTrigger s) := by
  unfold State.monTrigger
  extract_lets s1
  have h1 : s1.Keeps q := State.bump_keeps h
  exact ite_keeps h (ite_keeps (ite_keeps h1 (State.raise_keeps (keeps_mk h1))) (keeps_mk h))

theorem State.monTriggerBy_keeps {k} (h : s.Keeps q) :
    State.Keeps q (State.monTriggerBy s k) := by
  unfold State.monTriggerBy
  exact ite_keeps (State.monTrigger_keeps h) h

theorem State.monChanged_keeps {n old} (h : s.Keeps q) :
    State.Keeps q (State.monChanged s n old) := by
  unfold State.monChanged
  extract_lets s1 _ s3
  have h1 : s1.Keeps q := State.markStale_keeps h
  have h3 : s3.Keeps q := ite_keeps h1 (keeps_mk h1)
  split
  · exact ite_keeps (State.setConv_keeps h3) h3
  · exact h3

theorem State.ageChanged_keeps {old} (h : s.Keeps q) :
    State.Keeps q (State.ageChanged s old) := by
  unfold State.ageChanged
  extract_lets
  refine State.each_keeps h (fun _ _ h2 => ?_)
  · extract_lets
    exact State.showStale_keeps (State.setChan_keeps h2)

theorem State.wrote_keeps {p a n} (h : s.Keeps q) :
    State.Keeps q (State.wrote s p a n) := by
  unfold State.wrote
  extract_lets s1 s3
  have h1 : s1.Keeps q := State.each_keeps h (fun _ _ h2 => ite_keeps (State.bankWritten_keeps h2) h2)
  have h3 : s3.Keeps q := by
    refine State.each_keeps h1 (fun _ _ h4 => ?_)
    · extract_lets
      exact ite_keeps (State.regRefused_keeps h4) (State.shadow_keeps h4)
  refine State.each_keeps h3 (fun _ _ h6 => ?_)
  · extract_lets s7
    have h7 : s7.Keeps q := State.shadow_keeps h6
    exact State.fput_keeps h7

theorem State.outerStore_keeps {p a bs} (h : s.Keeps q) :
    State.Keeps q (State.outerStore s p a bs) := by
  unfold State.outerStore
  extract_lets _ _ s3
  have h3 : s3.Keeps q := ite_keeps (keeps_mk h) (ite_keeps (keeps_mk h) h)
  exact State.wrote_keeps (State.store_keeps h3)

theorem State.setCh_keeps {c x} (h : s.Keeps q) :
    State.Keeps q (State.setCh s c x) := by
  unfold State.setCh
  extract_lets
  exact keeps_mk h

theorem State.setChState_keeps {c v} (h : s.Keeps q) :
    State.Keeps q (State.setChState s c v) := by
  unfold State.setChState
  extract_lets s1 s2
  have h1 : s1.Keeps q := State.fput_keeps h
  have h2 : s2.Keeps q := State.fput_keeps h1
  exact State.fput_keeps h2

theorem State.dmaConflict_keeps {c dst} (h : s.Keeps q) :
    State.Keeps q (State.dmaConflict s c dst) := by
  unfold State.dmaConflict
  split
  · exact State.raise_keeps h
  · exact State.raise_keeps h

theorem State.dropUsers_keeps {c} (h : s.Keeps q) :
    State.Keeps q (State.dropUsers s c) := by
  unfold State.dropUsers
  extract_lets s1
  have h1 : s1.Keeps q := by
    refine State.each_keeps h (fun _ _ h2 => ?_)
    · extract_lets
      exact keeps_mk h2
  exact State.setCh_keeps h1

theorem State.useBanks_keeps {c bs} (h : s.Keeps q) :
    State.Keeps q (State.useBanks s c bs) := by
  unfold State.useBanks
  extract_lets s1 s2
  have h1 : s1.Keeps q := State.dropUsers_keeps h
  have h2 : s2.Keeps q := by
    refine State.each_keeps h1 (fun _ _ h3 => ?_)
    · extract_lets
      exact keeps_mk h3
  exact State.setCh_keeps h2

theorem State.loadFailed_keeps {c code} (h : s.Keeps q) :
    State.Keeps q (State.loadFailed s c code) := by
  unfold State.loadFailed
  split
  · extract_lets
    exact State.setCh_keeps (State.raise_keeps h)
  · exact h

theorem State.dmaHalt_keeps {c code} (h : s.Keeps q) :
    State.Keeps q (State.dmaHalt s c code) := by
  unfold State.dmaHalt
  extract_lets s1 s2 s3 s4 s5 s6
  have h1 : s1.Keeps q := State.dropUsers_keeps h
  have h2 : s2.Keeps q := State.fput_keeps h1
  have h3 : s3.Keeps q := State.fput_keeps h2
  have h4 : s4.Keeps q := State.setChState_keeps (State.fput_keeps h3)
  have h5 : s5.Keeps q := State.raise_keeps h4
  have h6 : s6.Keeps q := State.loadFailed_keeps h5
  exact State.setCh_keeps h6

theorem State.cmdDoneEvent_keeps {op tag pay} (h : s.Keeps q) :
    State.Keeps q (State.cmdDoneEvent s op tag pay) := by
  unfold State.cmdDoneEvent
  exact State.raise_keeps h

theorem State.dmaRest_keeps {c stopped} (h : s.Keeps q) :
    State.Keeps q (State.dmaRest s c stopped) := by
  unfold State.dmaRest
  extract_lets s1 s2 s3 s4
  have h1 : s1.Keeps q := State.setChState_keeps (State.dropUsers_keeps h)
  have h2 : s2.Keeps q := State.fput_keeps h1
  have h3 : s3.Keeps q := ite_keeps (State.fput_keeps h2) h2
  have h4 : s4.Keeps q := by
    unfold s4
    split
    · exact ite_keeps (State.cmdDoneEvent_keeps h3) h3
    · exact h3
  exact State.setCh_keeps h4

theorem State.dmaTrigger_keeps {c} (h : s.Keeps q) :
    State.Keeps q (State.dmaTrigger s c) := by
  unfold State.dmaTrigger
  extract_lets _ _ s3 s4 s5
  have h3 : s3.Keeps q := State.setChState_keeps h
  have h4 : s4.Keeps q := State.bump_keeps h
  have h5 : s5.Keeps q := State.setCh_keeps h4
  exact ite_keeps h (ite_keeps (State.setCh_keeps h3) (ite_keeps (State.fput_keeps h) (ite_keeps h5 (State.raise_keeps h5))))

theorem State.dmaNext_keeps {c next} (h : s.Keeps q) :
    State.Keeps q (State.dmaNext s c next) := by
  unfold State.dmaNext
  extract_lets _ _ s3
  have h3 : s3.Keeps q := State.setCh_keeps h
  exact ite_keeps (State.setChState_keeps (State.setCh_keeps h3)) (ite_keeps (State.setChState_keeps (State.fput_keeps (State.setCh_keeps h3))) (State.setChState_keeps h3))

theorem State.dmaArm_keeps {c use} (h : s.Keeps q) :
    State.Keeps q (State.dmaArm s c use) := by
  unfold State.dmaArm
  extract_lets s1 s2 s3 s4 _ s6
  have h1 : s1.Keeps q := State.fput_keeps h
  have h2 : s2.Keeps q := State.fput_keeps h1
  have h3 : s3.Keeps q := State.fput_keeps h2
  have h4 : s4.Keeps q := State.wput_keeps h3
  have h6 : s6.Keeps q := State.setCh_keeps h4
  exact State.setChState_keeps h6

theorem State.dmaStop_keeps {c} (h : s.Keeps q) :
    State.Keeps q (State.dmaStop s c) := by
  unfold State.dmaStop
  extract_lets
  exact ite_keeps h (ite_keeps (State.dmaRest_keeps h) (State.setChState_keeps h))

theorem State.setQp_keeps {q' x} (h : s.Keeps q) :
    State.Keeps q (State.setQp s q' x) := by
  unfold State.setQp
  extract_lets
  exact keeps_mk h

theorem State.setPort_keeps {p x} (h : s.Keeps q) :
    State.Keeps q (State.setPort s p x) := by
  unfold State.setPort
  extract_lets
  exact keeps_mk h

theorem State.showPorts_keeps (h : s.Keeps q) :
    State.Keeps q (State.showPorts s) := by
  unfold State.showPorts
  extract_lets _ s2
  have h2 : s2.Keeps q := State.fput_keeps (State.fput_keeps h)
  exact State.fputB_keeps h2

theorem State.emit_keeps {p o} (h : s.Keeps q) :
    State.Keeps q (State.emit s p o) := by
  unfold State.emit
  extract_lets
  exact ite_keeps (State.setPort_keeps h) (State.out_keeps h)

theorem State.emitQp_keeps {q' op psn ackReq reth data} (h : s.Keeps q) :
    State.Keeps q (State.emitQp s q' op psn ackReq reth data) := by
  unfold State.emitQp
  extract_lets
  exact ite_keeps (State.emit_keeps h) h

theorem State.sendMsg_keeps {q' m} (h : s.Keeps q) :
    State.Keeps q (State.sendMsg s q' m) := by
  unfold State.sendMsg
  extract_lets
  refine State.each_keeps h (fun _ _ h2 => ?_)
  · extract_lets
    exact State.emitQp_keeps h2

theorem State.sendRead_keeps {q' r} (h : s.Keeps q) :
    State.Keeps q (State.sendRead s q' r) := by
  unfold State.sendRead
  exact State.emitQp_keeps h

theorem State.takePsn_keeps {q' k} (h : s.Keeps q) :
    State.Keeps q (State.takePsn s q' k).2 := by
  unfold State.takePsn
  extract_lets
  exact State.fput_keeps h

theorem State.post_keeps {q' b} (h : s.Keeps q) :
    State.Keeps q (State.post s q' b) := by
  unfold State.post
  extract_lets _ _ s3 _ s5
  have h3 : s3.Keeps q := State.takePsn_keeps h
  have h5 : s5.Keeps q := State.setQp_keeps h3
  exact State.sendMsg_keeps h5

theorem State.postRead_keeps {q' k} (h : s.Keeps q) :
    State.Keeps q (State.postRead s q' k) := by
  unfold State.postRead
  extract_lets _ _ s3 _ s5
  have h3 : s3.Keeps q := State.takePsn_keeps h
  have h5 : s5.Keeps q := State.setQp_keeps h3
  exact ite_keeps (State.setQp_keeps h) (State.sendRead_keeps (State.fput_keeps h5))

theorem State.readsLeft_keeps {q' l} (h : s.Keeps q) :
    State.Keeps q (State.readsLeft s q' l) := by
  unfold State.readsLeft
  extract_lets _ s2
  have h2 : s2.Keeps q := State.fput_keeps (State.setQp_keeps h)
  split
  · exact ite_keeps (State.postRead_keeps (State.setQp_keeps h2)) h2
  · exact h2

theorem State.dmaServed_keeps {c} (h : s.Keeps q) :
    State.Keeps q (State.dmaServed s c) := by
  unfold State.dmaServed
  extract_lets
  exact keeps_mk h

theorem State.dmaRead_keeps {c a n} (h : s.Keeps q) :
    State.Keeps q (State.dmaRead s c a n) := by
  unfold State.dmaRead
  extract_lets _ _ s3
  have h3 : s3.Keeps q := ite_keeps h (State.postRead_keeps h)
  exact State.fput_keeps (State.readsLeft_keeps h3)

theorem State.dmaWrite_keeps {a bs} (h : s.Keeps q) :
    State.Keeps q (State.dmaWrite s a bs) := by
  unfold State.dmaWrite
  exact State.post_keeps h

theorem State.dmaFetch_keeps {c a} (h : s.Keeps q) :
    State.Keeps q (State.dmaFetch s c a) := by
  unfold State.dmaFetch
  extract_lets s1
  have h1 : s1.Keeps q := State.dmaServed_keeps h
  exact ite_keeps (State.dmaRead_keeps h1) h1

theorem State.dmaDescStart_keeps {c fetched} (h : s.Keeps q) :
    State.Keeps q (State.dmaDescStart s c fetched) := by
  unfold State.dmaDescStart
  extract_lets
  split
  · exact h
  · extract_lets _ s5 s6 s7 s8 v9 s10
    have h5 : s5.Keeps q := ite_keeps h (State.dmaFetch_keeps h)
    have h6 : s6.Keeps q := State.fput_keeps h5
    have h7 : s7.Keeps q := State.wput_keeps h6
    have h8 : s8.Keeps q := State.setCh_keeps h7
    have h10 : s10.Keeps q := State.useBanks_keeps h8
    refine ite_keeps h (ite_keeps (State.dmaRest_keeps h5) (ite_keeps (State.dmaHalt_keeps h5) (ite_keeps (State.dmaHalt_keeps (State.fput_keeps h8)) ?_)))
    · clear_value v9 
      split
      · exact State.dmaHalt_keeps (State.dmaConflict_keeps (State.fput_keeps h8))
      · exact State.setChState_keeps (State.setCh_keeps h10)
      · exact State.setChState_keeps (State.setCh_keeps h10)

theorem State.ctlWrite_keeps {off bs} (h : s.Keeps q) :
    State.Keeps q (State.ctlWrite s off bs) := by
  unfold State.ctlWrite
  split
  · exact State.post_keeps h
  · exact h

theorem State.ctlPost_keeps {off bs} (h : s.Keeps q) :
    State.Keeps q (State.ctlPost s off bs) := by
  unfold State.ctlPost
  split
  · exact State.post_keeps h
  · exact h

theorem State.statusBlock_keeps (h : s.Keeps q) :
    State.Keeps q (State.statusBlock s) := by
  unfold State.statusBlock
  exact State.ctlWrite_keeps h

theorem State.release_keeps {p idx} (h : s.Keeps q) :
    State.Keeps q (State.release s p idx) := by
  unfold State.release
  split
  · exact h
  · extract_lets
    exact keeps_mk h

theorem State.reorder_keeps {p l} (h : s.Keeps q) :
    State.Keeps q (State.reorder s p l) := by
  unfold State.reorder
  refine foldl_keeps h (fun _ _ h1 => ?_)
  · extract_lets
    exact keeps_mk h1

theorem State.reportPoison_keeps {line n told} (h : s.Keeps q) :
    State.Keeps q (State.reportPoison s line n told) := by
  unfold State.reportPoison
  extract_lets s1
  have h1 : s1.Keeps q := State.bump_keeps h
  exact ite_keeps h (ite_keeps h1 (State.raiseAt_keeps h1))

theorem State.reread_keeps {e} (h : s.Keeps q) :
    State.Keeps q (State.reread s e) := by
  unfold State.reread
  extract_lets _ _ s3
  have h3 : s3.Keeps q := State.reportPoison_keeps h
  exact ite_keeps h (keeps_mk h3)

theorem State.resend_keeps {q'} (h : s.Keeps q) :
    State.Keeps q (State.resend s q') := by
  unfold State.resend
  extract_lets s1 s3
  have h1 : s1.Keeps q := ite_keeps (foldl_keeps (State.bump_keeps h) (fun _ _ h2 => State.reread_keeps h2)) h
  have h3 : s3.Keeps q := foldl_keeps h1 (fun _ _ h4 => State.sendMsg_keeps h4)
  exact foldl_keeps h3 (fun _ _ h5 => State.sendRead_keeps h5)

theorem State.lineStatus_keeps {p} (h : s.Keeps q) :
    State.Keeps q (State.lineStatus s p) := by
  unfold State.lineStatus
  split
  · exact h
  · extract_lets _ _ _ _ s5
    have h5 : s5.Keeps q := State.setQp_keeps h
    exact ite_keeps (State.post_keeps (State.wput_keeps h5)) h

theorem State.statusWaiters_keeps (h : s.Keeps q) :
    State.Keeps q (State.statusWaiters s) := by
  unfold State.statusWaiters
  exact State.each_keeps h (fun _ _ h1 => ite_keeps (State.lineStatus_keeps h1) h1)

theorem State.sendPacket_keeps {q' e} (h : s.Keeps q) :
    State.Keeps q (State.sendPacket s q' e) := by
  unfold State.sendPacket
  extract_lets _ s2
  have h2 : s2.Keeps q := State.each_keeps h (fun _ _ h3 => State.post_keeps h3)
  exact State.post_keeps h2

theorem State.writeBack_keeps {a r d x} (h : s.Keeps q) :
    State.Keeps q (State.writeBack s a r d x) := by
  unfold State.writeBack
  extract_lets
  exact ite_keeps (State.dmaWrite_keeps (State.dmaWrite_keeps h)) (ite_keeps h (State.outerStore_keeps (State.outerStore_keeps h)))

theorem State.dmaReport_keeps {c a r d x} (h : s.Keeps q) :
    State.Keeps q (State.dmaReport s c a r d x) := by
  unfold State.dmaReport
  extract_lets s1
  have h1 : s1.Keeps q := ite_keeps h (State.writeBack_keeps h)
  exact ite_keeps (ite_keeps (State.raise_keeps h1) h1) (ite_keeps (keeps_mk h) h)

theorem State.dmaFollow_keeps {c} (h : s.Keeps q) :
    State.Keeps q (State.dmaFollow s c) := by
  unfold State.dmaFollow
  exact State.each_keeps h (fun _ _ h1 => ite_keeps (State.dmaTrigger_keeps h1) h1)

theorem State.dmaComplete_keeps {c a r d} (h : s.Keeps q) :
    State.Keeps q (State.dmaComplete s c a r d) := by
  unfold State.dmaComplete
  extract_lets _ s2 s3
  have h2 : s2.Keeps q := State.dropUsers_keeps h
  have h3 : s3.Keeps q := State.bump_keeps (State.fput_keeps (State.fput_keeps h2))
  exact State.dmaFollow_keeps (State.dmaReport_keeps h3)

theorem State.dmaDescDone_keeps {c} (h : s.Keeps q) :
    State.Keeps q (State.dmaDescDone s c) := by
  unfold State.dmaDescDone
  split
  · exact h
  · extract_lets _ _ s3
    have h3 : s3.Keeps q := State.dmaComplete_keeps h
    exact ite_keeps h (ite_keeps (State.dmaHalt_keeps h3) (ite_keeps (State.dmaRest_keeps h3) (ite_keeps (State.dmaRest_keeps h3) (State.dmaNext_keeps h3))))

theorem State.readsPrune_keeps {q'} (h : s.Keeps q) :
    State.Keeps q (State.readsPrune s q') := by
  unfold State.readsPrune
  extract_lets
  exact ite_keeps h (State.readsLeft_keeps h)

theorem State.readsShow_keeps {q'} (h : s.Keeps q) :
    State.Keeps q (State.readsShow s q') := by
  unfold State.readsShow
  refine State.each_keeps (State.readsPrune_keeps h) (fun _ _ h1 => ?_)
  · split
    · exact ite_keeps h1 (State.postRead_keeps h1)
    · exact h1

theorem State.haltSlot_keeps {q' code} (h : s.Keeps q) :
    State.Keeps q (State.haltSlot s q' code) := by
  unfold State.haltSlot
  refine State.each_keeps h (fun _ _ h1 => ?_)
  · extract_lets s2
    have h2 : s2.Keeps q := by
      unfold s2
      split
      · exact State.dmaComplete_keeps h1
      · exact h1
    exact ite_keeps (State.dmaHalt_keeps h2) h1

theorem State.slotError_keeps {q' cause} (h : s.Keeps q) :
    State.Keeps q (State.slotError s q' cause) := by
  unfold State.slotError
  extract_lets s1 s2 _ s4 s5
  have h1 : s1.Keeps q := State.fput_keeps h
  have h2 : s2.Keeps q := State.fput_keeps h1
  have h4 : s4.Keeps q := State.raise_keeps h2
  have h5 : s5.Keeps q := State.haltSlot_keeps h4
  exact ite_keeps h4 (State.fput_keeps (State.setQp_keeps h5))

theorem State.moveTraffic_keeps {p o} (h : s.Keeps q) :
    State.Keeps q (State.moveTraffic s p o).2 := by
  unfold State.moveTraffic
  extract_lets _ s2 _ s5
  have h2 : s2.Keeps q := State.reorder_keeps (foldl_keeps h (fun _ _ h3 => State.reread_keeps h3))
  have h5 : s5.Keeps q := by
    refine State.each_keeps h2 (fun _ _ h6 => ?_)
    · split
      · extract_lets _ s8 s9 _ _ s12 s13
        have h8 : s8.Keeps q := State.fput_keeps (State.setQp_keeps h6)
        have h9 : s9.Keeps q := State.fput_keeps h8
        have h12 : s12.Keeps q := State.setQp_keeps h9
        have h13 : s13.Keeps q := foldl_keeps h9 (fun _ _ h14 => State.post_keeps h14)
        exact ite_keeps (State.lineStatus_keeps (foldl_keeps h12 (fun _ _ h15 => State.sendPacket_keeps h15))) (foldl_keeps h13 (fun _ _ h16 => ite_keeps h16 (State.postRead_keeps h16)))
      · exact ite_keeps (State.slotError_keeps h6) h6
  exact keeps_mk h5

theorem State.failover_keeps {p o} (h : s.Keeps q) :
    State.Keeps q (State.failover s p o) := by
  unfold State.failover
  extract_lets x1
  clear_value (eh1 : x1 = _)
  have h1 : x1.2.Keeps q := by rw [eh1]; exact State.moveTraffic_keeps h
  exact State.raise_keeps (State.showPorts_keeps h1)

theorem State.linkDark_keeps {p} (h : s.Keeps q) :
    State.Keeps q (State.linkDark s p) := by
  unfold State.linkDark
  exact State.fput_keeps h

theorem State.portDown_keeps {p cause slot} (h : s.Keeps q) :
    State.Keeps q (State.portDown s p cause slot) := by
  unfold State.portDown
  extract_lets s1 s2 s3 _ _ s6 _ x8
  have h1 : s1.Keeps q := State.fput_keeps h
  have h2 : s2.Keeps q := State.fput_keeps h1
  have h3 : s3.Keeps q := State.bump_keeps h2
  have h6 : s6.Keeps q := State.setPort_keeps h3
  clear_value (eh8 : x8 = _)
  have h8 : x8.2.Keeps q := by rw [eh8]; exact State.moveTraffic_keeps h6
  exact ite_keeps (State.raise_keeps (State.raise_keeps (State.showPorts_keeps h8))) (State.raise_keeps (State.showPorts_keeps h6))

theorem State.qpError_keeps {q' cause} (h : s.Keeps q) :
    State.Keeps q (State.qpError s q' cause) := by
  unfold State.qpError
  extract_lets s1
  have h1 : s1.Keeps q := State.slotError_keeps h
  exact ite_keeps (State.portDown_keeps h1) h1

theorem State.qpFailed_keeps {q'} (h : s.Keeps q) :
    State.Keeps q (State.qpFailed s q') := by
  unfold State.qpFailed
  extract_lets
  exact ite_keeps (State.qpError_keeps h) (State.resend_keeps (State.fput_keeps h))

theorem State.announce_keeps {p} (h : s.Keeps q) :
    State.Keeps q (State.announce s p) := by
  unfold State.announce
  extract_lets
  exact ite_keeps (State.emit_keeps h) (State.emit_keeps h)

theorem State.portComesUp_keeps {p} (h : s.Keeps q) :
    State.Keeps q (State.portComesUp s p) := by
  unfold State.portComesUp
  extract_lets s1 _ s3 _ s5 s6 s7 s8
  have h1 : s1.Keeps q := State.fput_keeps h
  have h3 : s3.Keeps q := State.setPort_keeps h1
  have h5 : s5.Keeps q := ite_keeps (keeps_mk h3) h3
  have h6 : s6.Keeps q := State.raise_keeps (State.announce_keeps (State.showPorts_keeps h5))
  have h7 : s7.Keeps q := State.clearActive_keeps h6
  have h8 : s8.Keeps q := State.each_keeps h7 (fun _ _ h9 => State.resend_keeps h9)
  exact ite_keeps (State.failover_keeps (State.setPort_keeps h8)) h8

theorem State.portTry_keeps {p} (h : s.Keeps q) :
    State.Keeps q (State.portTry s p) := by
  unfold State.portTry
  exact ite_keeps (State.portComesUp_keeps h) h

theorem State.portSteady_keeps {p} (h : s.Keeps q) :
    State.Keeps q (State.portSteady s p) := by
  unfold State.portSteady
  exact ite_keeps h (State.portTry_keeps (State.fput_keeps h))

theorem State.ack_keeps {q' psn} (h : s.Keeps q) : State.Keeps q (State.ack s q' psn) := by
  unfold State.ack
  extract_lets _ _ _ _ s1 _ s2 _ s3 s4
  have h1 : s1.Keeps q := State.fput_keeps (State.fput_keeps h)
  have h2 : s2.Keeps q := by
    refine foldl_keeps h1 (fun t m ht => ?_)
    split
    · exact State.release_keeps ht
    · rename_i e _ _ _
      refine ⟨⟨ht.sound.mem, ht.sound.regs, ?_⟩, ht.rest⟩
      have h1 := List.length_filter_le (· != e) t.evq.flying
      have h2 := ht.sound.staging
      simp only [EvqSt.taken] at h2 ⊢
      omega
    · exact ht
  have h3 : s3.Keeps q := State.setQp_keeps h2
  exact ite_keeps h (State.advanceFree_keeps (State.statusWaiters_keeps h3))

theorem State.creditLine_keeps {v} (h : s.Keeps q) :
    State.Keeps q (State.creditLine s v) := by
  unfold State.creditLine
  extract_lets s1 _ s3
  have h1 : s1.Keeps q := State.wput_keeps h
  have h3 : s3.Keeps q := State.raise_keeps h
  exact ite_keeps (keeps_mk h1) (ite_keeps h (keeps_mk h3))

theorem State.creditEvent_keeps {v} (h : s.Keeps q) :
    State.Keeps q (State.creditEvent s v) := by
  unfold State.creditEvent
  extract_lets s1 _ s3 s4
  have h1 : s1.Keeps q := State.wput_keeps h
  have h3 : s3.Keeps q := keeps_mk h1
  have h4 : s4.Keeps q := State.raise_keeps h
  exact ite_keeps (State.fputB_keeps h3) (ite_keeps h (keeps_mk h4))

theorem EvqSt.head_length {x : EvqSt} {e rest} (h : x.head = some (e, rest)) : rest.length + 1 ≤ x.staged.length := by
  unfold EvqSt.head at h
  split at h
  · rename_i e' l hf
    have hm := List.mem_of_find?_eq_some hf
    simp only [Option.some.injEq, Prod.mk.injEq] at h
    obtain ⟨-, rfl⟩ := h
    have := List.length_erase_of_mem hm
    have := List.length_pos_of_mem hm
    omega
  · rename_i hl
    simp only [Option.some.injEq, Prod.mk.injEq] at h
    obtain ⟨-, rfl⟩ := h
    simp [*]
  · cases h

theorem State.writeEvent_keeps (h : s.Keeps q) : State.Keeps q (State.writeEvent s) := by
  unfold State.writeEvent
  split
  · rename_i e rest k hh hk
    have hl := EvqSt.head_length hh
    extract_lets i n lost seq b off fits rest' _ s1 s2 s3 s4 s5 s6
    have h1 : s1.Keeps q := by
      refine ⟨⟨h.sound.mem, h.sound.regs, ?_⟩, h.rest⟩
      have h2 := h.sound.staging
      show rest'.length + (s.evq.flying ++ [i]).length ≤ 16384
      simp only [EvqSt.taken, List.length_append, List.length_singleton] at h2 ⊢
      unfold rest'
      split
      · rename_i hf
        unfold fits at hf
        have h3 := of_decide_eq_true (Bool.and_eq_true_iff.1 hf).2
        simp only [EvqSt.taken, Sev.room] at h3
        simp only [List.length_cons]
        omega
      · omega
    have h2 : s2.Keeps q := ite_keeps (State.loseEvent_keeps h1) (State.fput_keeps h1)
    have h3 : s3.Keeps q := State.fput_keeps h2
    have h4 : s4.Keeps q := State.wput_keeps h3
    exact ite_keeps (State.fput_keeps h) (State.fputB_keeps (State.post_keeps (State.post_keeps h4)))
  · exact State.fput_keeps h
  · exact h

theorem State.deliver_keeps {p q' e expect} (h : s.Keeps q) :
    State.Keeps q (State.deliver s p q' e expect) := by
  unfold State.deliver
  extract_lets _ s2 s3 s4
  have h2 : s2.Keeps q := keeps_mk h
  have h3 : s3.Keeps q := State.wput_keeps h2
  have h4 : s4.Keeps q := State.sendPacket_keeps h3
  exact State.lineStatus_keeps (State.setQp_keeps h4)

theorem State.issuePacket_keeps (h : s.Keeps q) :
    State.Keeps q (State.issuePacket s) := by
  unfold State.issuePacket
  extract_lets _ _ _ s4 s5 s6
  have h4 : s4.Keeps q := State.reportPoison_keeps h
  have h5 : s5.Keeps q := State.raise_keeps h4
  have h6 : s6.Keeps q := State.fput_keeps h5
  refine ite_keeps h ?_
  · split
    · exact h
    · split
      · exact h
      · split
        · extract_lets
          exact State.advanceFree_keeps (State.deliver_keeps h6)
        · extract_lets _ _ _ s15 s16
          have h15 : s15.Keeps q := State.reportPoison_keeps h
          have h16 : s16.Keeps q := State.fput_keeps h15
          exact State.deliver_keeps h16

theorem State.svcLatch_keeps {b idle poison sop left} (h : s.Keeps q) :
    State.Keeps q (State.svcLatch s b idle poison sop left) := by
  unfold State.svcLatch
  extract_lets s1
  have h1 : s1.Keeps q := State.each_keeps h (fun _ _ h2 => State.rput_keeps h2)
  exact State.rput_keeps h1

theorem State.svcMark_keeps {sop} (h : s.Keeps q) :
    State.Keeps q (State.svcMark s sop) := by
  unfold State.svcMark
  extract_lets _ s2
  have h2 : s2.Keeps q := State.svcLatch_keeps h
  exact keeps_mk h2

theorem State.svcHeader_keeps {p kind len} (h : s.Keeps q) :
    State.Keeps q (State.svcHeader s p kind len) := by
  unfold State.svcHeader
  extract_lets
  exact keeps_mk h

theorem State.svcEnd_keeps (h : s.Keeps q) :
    State.Keeps q (State.svcEnd s) := by
  unfold State.svcEnd
  extract_lets _ _ s3 _ s5
  have h3 : s3.Keeps q := ite_keeps h (State.raiseAt_keeps h)
  have h5 : s5.Keeps q := keeps_mk h3
  exact State.fput_keeps h5

theorem State.svcRead_keeps (h : s.Keeps q) :
    State.Keeps q (State.svcRead s) := by
  unfold State.svcRead
  extract_lets _ _ _ _ s5 s6 s7
  have h5 : s5.Keeps q := State.reportPoison_keeps h
  have h6 : s6.Keeps q := State.fput_keeps (State.raise_keeps h5)
  have h7 : s7.Keeps q := State.advanceFree_keeps h6
  refine ite_keeps h (ite_keeps (State.svcMark_keeps h) (ite_keeps (State.svcLatch_keeps h) ?_))
  · split
    · exact State.svcMark_keeps (keeps_mk h7)
    · extract_lets s9 _ s11 _ s13 _ s15 s16
      have h9 : s9.Keeps q := ite_keeps (State.svcHeader_keeps h) h
      have h11 : s11.Keeps q := State.bump_keeps h9
      have h13 : s13.Keeps q := ite_keeps (keeps_mk h11) h9
      have h15 : s15.Keeps q := State.svcLatch_keeps h13
      have h16 : s16.Keeps q := State.fput_keeps h15
      exact State.advanceFree_keeps (ite_keeps (State.svcEnd_keeps h16) h16)

theorem State.dmaBurst_keeps {c host poison} (h : s.Keeps q) :
    State.Keeps q (State.dmaBurst s c host poison) := by
  unfold State.dmaBurst
  split
  · exact h
  · extract_lets _ _ _ _ s5 _ f7 f9 s11 _ _ s14
    have h5 : s5.Keeps q := State.dmaServed_keeps h
    have h7 : ∀ t y1, State.Keeps q t → State.Keeps q (f7 t y1) := by
      intro t y1 h8
      unfold f7
      exact ite_keeps (State.dmaRead_keeps h8) h8
    have h9 : ∀ t y1, State.Keeps q t → State.Keeps q (f9 t y1) := by
      intro t y1 h10
      unfold f9
      exact State.setCh_keeps h10
    have h11 : s11.Keeps q := h7 _ _ (h7 _ _ h5)
    have h14 : s14.Keeps q := ite_keeps h5 (h7 _ _ h5)
    exact ite_keeps (State.setCh_keeps h5) (ite_keeps (h9 _ _ h11) (ite_keeps (h9 _ _ (State.dmaWrite_keeps h14)) (ite_keeps (h9 _ _ h14) (ite_keeps (h9 _ _ (State.dmaConflict_keeps h14)) (h9 _ _ (State.outerStore_keeps h14))))))

end Sys2Proof.Machine
end

