-- ==== Sys2Proof/Laws/KeepsControl.lean ====
section
/-!
SUPPORT. Every function of `ClaimOps`, `SeqOps`, `SafeOps`, `CmdOps`, `AnaOps`, `CalOps`, `EngOps`, `JobOps`, `ReadOps` keeps the state sound, the queue and the fuses.
-/

namespace Sys2Proof.Machine

variable {q : List Instr × Fuses} {s : State}

theorem State.reclaim_keeps (h : s.Keeps q) :
    State.Keeps q (State.reclaim s) := by
  unfold State.reclaim
  extract_lets
  exact keeps_mk h

theorem State.boundaryClaims_keeps {c} (h : s.Keeps q) :
    State.Keeps q (State.boundaryClaims s c) := by
  unfold State.boundaryClaims
  exact State.reclaim_keeps (State.boundary_keeps h)

theorem State.claimChannel_keeps {c} (h : s.Keeps q) :
    State.Keeps q (State.claimChannel s c) := by
  unfold State.claimChannel
  extract_lets
  exact ite_keeps (keeps_mk h) h

theorem State.overlapLost_keeps {num} (h : s.Keeps q) :
    State.Keeps q (State.overlapLost s num) := by
  unfold State.overlapLost
  refine ite_keeps ?_ (State.overlapEnded_keeps h)
  · split
    · exact State.overlapEnded_keeps (State.discardLine_keeps h)
    · exact h

theorem State.lineOverrun_keeps {n feed} (h : s.Keeps q) :
    State.Keeps q (State.lineOverrun s n feed) := by
  unfold State.lineOverrun
  extract_lets s1 _ s3
  have h1 : s1.Keeps q := State.bump_keeps h
  have h3 : s3.Keeps q := ite_keeps h1 (State.raiseAt_keeps (keeps_mk h1))
  refine ite_keeps ?_ (State.gapDrop_keeps (State.stamp_keeps h3))
  · split
    · exact State.handOverLines_keeps (State.rewindLine_keeps (State.poolDropped_keeps (State.discardLine_keeps h3)))
    · exact h3

theorem State.couchLine_keeps {n} (h : s.Keeps q) :
    State.Keeps q (State.couchLine s n) := by
  unfold State.couchLine
  split
  · exact h
  · refine ite_keeps h ?_
    · split
      · extract_lets
        exact State.flagResv_keeps (keeps_mk h)
      · extract_lets
        exact keeps_mk h

theorem State.couchOver_keeps {n} (h : s.Keeps q) :
    State.Keeps q (State.couchOver s n) := by
  unfold State.couchOver
  split
  · extract_lets
    exact ite_keeps (State.setCouchStep_keeps (keeps_mk h)) h
  · exact h

theorem State.overlapLb_keeps {num t feed} (h : s.Keeps q) :
    State.Keeps q (State.overlapLb s num t feed) := by
  unfold State.overlapLb
  extract_lets _ s2 s4 s5
  have h2 : s2.Keeps q := State.each_keeps h (fun _ _ h3 => State.segTemp_keeps h3)
  have h4 : s4.Keeps q := State.monTriggerBy_keeps (State.absLb_keeps h2)
  have h5 : s5.Keeps q := by
    unfold s5
    split
    · exact h4
    · exact State.setCouchStep_keeps h4
  exact State.poolLb_keeps h5

theorem State.lbCommit_keeps {n} (h : s.Keeps q) :
    State.Keeps q (State.lbCommit s n) := by
  unfold State.lbCommit
  extract_lets _ _ _ s4
  have h4 : s4.Keeps q := State.driftAfterCommit_keeps (State.boundaryClaims_keeps h)
  exact ite_keeps h (ite_keeps h4 (State.poolCheck_keeps (State.fput_keeps h4)))

theorem State.lineLb_keeps {n t feed} (h : s.Keeps q) :
    State.Keeps q (State.lineLb s n t feed) := by
  unfold State.lineLb
  extract_lets s1 _ s3 s4 s5 s6 _ s8 s10 s11 s12 _ x14 s15 _ s17 s18
  have h1 : s1.Keeps q := State.couchOver_keeps h
  have h3 : s3.Keeps q := ite_keeps (keeps_mk h1) h1
  have h4 : s4.Keeps q := State.lbCommit_keeps h3
  have h5 : s5.Keeps q := State.lampLb_keeps h4
  have h6 : s6.Keeps q := State.fput_keeps h5
  have h8 : s8.Keeps q := State.each_keeps h6 (fun _ _ h9 => State.segTemp_keeps h9)
  have h10 : s10.Keeps q := State.geomLb_keeps (State.trackLb_keeps h8)
  have h11 : s11.Keeps q := State.exportLb_keeps (State.bandLb_keeps (State.absLb_keeps h10))
  have h12 : s12.Keeps q := State.monTriggerBy_keeps h11
  clear_value (eh14 : x14 = _)
  have h14 : x14.2.Keeps q := by rw [eh14]; exact State.poolLb_keeps h12
  have h15 : s15.Keeps q := h14
  have h17 : s17.Keeps q := ite_keeps (State.flagResv_keeps h15) h15
  have h18 : s18.Keeps q := State.couchLine_keeps h17
  exact ite_keeps (State.couchStart_keeps h18) h18

theorem State.startLine_keeps {num feed} (h : s.Keeps q) :
    State.Keeps q (State.startLine s num feed) := by
  unfold State.startLine
  extract_lets _ _ s3 _ _ _ s7 s8
  have h3 : s3.Keeps q := State.stamp_keeps h
  have h7 : s7.Keeps q := keeps_mk h3
  have h8 : s8.Keeps q := State.wput_keeps h7
  exact ite_keeps (State.overlapLb_keeps h8) (State.lineLb_keeps h8)

theorem State.lineTrigger_keeps {feed} (h : s.Keeps q) :
    State.Keeps q (State.lineTrigger s feed) := by
  unfold State.lineTrigger
  refine ite_keeps h ?_
  · split
    · exact h
    · extract_lets _ _ _ s4
      have h4 : s4.Keeps q := ite_keeps (keeps_mk h) (keeps_mk h)
      exact ite_keeps (ite_keeps (State.overlapLost_keeps h4) (State.lineOverrun_keeps h4)) (ite_keeps (keeps_mk h4) (State.startLine_keeps h4))

theorem State.positionTrigger_keeps (h : s.Keeps q) :
    State.Keeps q (State.positionTrigger s) := by
  unfold State.positionTrigger
  split
  · exact h
  · exact ite_keeps h (ite_keeps (State.lineTrigger_keeps h) h)

theorem State.releaseHeld_keeps (h : s.Keeps q) :
    State.Keeps q (State.releaseHeld s) := by
  unfold State.releaseHeld
  split
  · exact h
  · extract_lets
    exact ite_keeps (State.startLine_keeps h) h

theorem State.diagArm_keeps {n k} (h : s.Keeps q) :
    State.Keeps q (State.diagArm s n k) := by
  unfold State.diagArm
  extract_lets _ _ s3
  have h3 : s3.Keeps q := State.each_keeps h (fun _ _ h4 => State.lbBroadcast_keeps h4)
  exact ite_keeps (keeps_mk h3) h

theorem State.strobesDue_keeps {k} (h : s.Keeps q) :
    State.Keeps q (State.strobesDue s k) := by
  unfold State.strobesDue
  extract_lets
  exact keeps_mk h

theorem State.linePhase_keeps (h : s.Keeps q) :
    State.Keeps q (State.linePhase s) := by
  unfold State.linePhase
  split
  · exact h
  · extract_lets _ s2 _ s4
    have h2 : s2.Keeps q := State.startPulse_keeps (State.handOverSegs_keeps h)
    have h4 : s4.Keeps q := keeps_mk h2
    exact ite_keeps h (State.strobesDue_keeps (State.diagArm_keeps h4))

theorem State.calPhase_keeps {c} (h : s.Keeps q) :
    State.Keeps q (State.calPhase s c) := by
  unfold State.calPhase
  extract_lets _ _ s3 _ _ s6 s7 _ s9 s10
  have h3 : s3.Keeps q := ite_keeps (State.lampForce_keeps h) h
  have h6 : s6.Keeps q := State.handOverSegs_keeps (State.fput_keeps h3)
  have h7 : s7.Keeps q := State.startPulse_keeps h6
  have h9 : s9.Keeps q := keeps_mk h7
  have h10 : s10.Keeps q := ite_keeps h9 (State.strobesDue_keeps h9)
  exact ite_keeps h (State.setCal_keeps h10)

theorem State.phaseStart_keeps (h : s.Keeps q) :
    State.Keeps q (State.phaseStart s) := by
  unfold State.phaseStart
  split
  · exact State.linePhase_keeps h
  · exact State.calPhase_keeps h
  · exact h

theorem State.closeLine_keeps (h : s.Keeps q) :
    State.Keeps q (State.closeLine s) := by
  unfold State.closeLine
  split
  · exact h
  · split
    · exact ite_keeps (State.startPulse_keeps (State.handOverSegs_keeps h)) h
    · exact h
  · extract_lets s1 _ s3
    have h1 : s1.Keeps q := State.startPulse_keeps (State.handOverSegs_keeps h)
    have h3 : s3.Keeps q := keeps_mk h1
    exact ite_keeps h (ite_keeps h3 (State.stopClocks_keeps h3))

theorem State.calStep_keeps {c st} (h : s.Keeps q) :
    State.Keeps q (State.calStep s c st) := by
  unfold State.calStep
  exact State.setCal_keeps (State.calClear_keeps (State.fput_keeps h))

theorem State.calShutter_keeps {c} (h : s.Keeps q) :
    State.Keeps q (State.calShutter s c) := by
  unfold State.calShutter
  extract_lets s1
  have h1 : s1.Keeps q := State.lampDeliver_keeps (State.calStep_keeps h)
  exact ite_keeps (State.moveOrQueue_keeps h1) h1

theorem State.calFlushed_keeps (h : s.Keeps q) :
    State.Keeps q (State.calFlushed s) := by
  unfold State.calFlushed
  split
  · exact ite_keeps (ite_keeps (State.calShutter_keeps h) (State.calStep_keeps h)) h
  · exact h

theorem State.flushPhases_keeps (h : s.Keeps q) :
    State.Keeps q (State.flushPhases s) := by
  unfold State.flushPhases
  extract_lets s1
  have h1 : s1.Keeps q := State.handOverSegs_keeps (State.handOverSegs_keeps h)
  exact ite_keeps h (State.calFlushed_keeps (keeps_mk h1))

theorem State.readTaps_keeps {seg k line slices taps} (h : s.Keeps q) :
    State.Keeps q (State.readTaps s seg k line slices taps).2 := by
  unfold State.readTaps
  extract_lets _ _ s3
  have h3 : s3.Keeps q := State.countRoles_keeps h
  exact h3

theorem State.readout_keeps {seg r} (h : s.Keeps q) :
    State.Keeps q (State.readout s seg r) := by
  unfold State.readout
  split
  · exact h
  · extract_lets _ s2 s3 s4
    have h2 : s2.Keeps q := keeps_mk h
    have h3 : s3.Keeps q := State.showLoops_keeps h2
    have h4 : s4.Keeps q := by
      unfold s4
      split
      · extract_lets x5
        clear_value (eh5 : x5 = _)
        have h5 : x5.2.Keeps q := by rw [eh5]; exact State.readTaps_keeps h3
        exact ite_keeps (State.stageReadout_keeps h5) h5
      · extract_lets x6
        clear_value (eh6 : x6 = _)
        have h6 : x6.2.Keeps q := by rw [eh6]; exact State.readTaps_keeps h3
        exact ite_keeps (State.calReadout_keeps h6) h6
      · exact h3
    exact State.readEnded_keeps (keeps_mk h4)

theorem State.dropCapture_keeps {cause} (h : s.Keeps q) :
    State.Keeps q (State.dropCapture s cause) := by
  unfold State.dropCapture
  extract_lets s1
  have h1 : s1.Keeps q := by
    refine foldl_keeps h (fun _ _ h2 => ?_)
    · extract_lets
      exact ite_keeps h2 (ite_keeps (State.discardLine_keeps h2) (ite_keeps (State.rewindLine_keeps (State.discardLine_keeps (State.discardLine_keeps h2))) (State.rewindLine_keeps (State.discardLine_keeps h2))))
  exact State.handOverLines_keeps h1

theorem State.stopDone_keeps (h : s.Keeps q) :
    State.Keeps q (State.stopDone s) := by
  unfold State.stopDone
  split
  · exact h
  · extract_lets _ s2
    have h2 : s2.Keeps q := keeps_mk h
    exact ite_keeps (State.cmdDoneEvent_keeps h2) h2

theorem State.jobOver_keeps (h : s.Keeps q) :
    State.Keeps q (State.jobOver s) := by
  unfold State.jobOver
  extract_lets s1 s2 s3 s4 s5 _ _ _ _ _ s11
  have h1 : s1.Keeps q := by
    unfold s1
    split
    · exact State.wput48_keeps h
    · exact h
  have h2 : s2.Keeps q := State.fput_keeps (State.fput_keeps h1)
  have h3 : s3.Keeps q := State.exportLb_keeps (State.bandsDrop_keeps h2)
  have h4 : s4.Keeps q := State.fput_keeps (State.fput_keeps h3)
  have h5 : s5.Keeps q := State.fput_keeps h4
  have h11 : s11.Keeps q := keeps_mk h5
  exact State.stopDone_keeps h11

theorem State.abortJob_keeps (h : s.Keeps q) :
    State.Keeps q (State.abortJob s) := by
  unfold State.abortJob
  extract_lets s1 _ _ _ s5
  have h1 : s1.Keeps q := State.dropCapture_keeps h
  have h5 : s5.Keeps q := keeps_mk h1
  exact ite_keeps (State.jobOver_keeps h5) h

theorem State.railOut_keeps {r low} (h : s.Keeps q) :
    State.Keeps q (State.railOut s r low) := by
  unfold State.railOut
  extract_lets
  exact keeps_mk h

theorem State.safeOutputs_keeps (h : s.Keeps q) :
    State.Keeps q (State.safeOutputs s) := by
  unfold State.safeOutputs
  extract_lets s1 _ _ s4
  have h1 : s1.Keeps q := State.lampSafe_keeps (State.motionSafe_keeps h)
  have h4 : s4.Keeps q := keeps_mk h1
  exact State.safePattern_keeps h4

theorem State.calSafe_keeps (h : s.Keeps q) :
    State.Keeps q (State.calSafe s) := by
  unfold State.calSafe
  split
  · extract_lets _ _ _ s4
    have h4 : s4.Keeps q := keeps_mk h
    exact State.calFinish_keeps h4
  · exact h

theorem State.safeEntry_keeps (h : s.Keeps q) :
    State.Keeps q (State.safeEntry s) := by
  unfold State.safeEntry
  extract_lets s1 s2
  have h1 : s1.Keeps q := State.stopClocks_keeps (State.calSafe_keeps (State.trackSafe_keeps (State.abortJob_keeps (State.abandonPulses_keeps h))))
  have h2 : s2.Keeps q := State.raise_keeps h1
  exact State.statusBlock_keeps h2

theorem State.enterSafe_keeps {c} (h : s.Keeps q) :
    State.Keeps q (State.enterSafe s c) := by
  unfold State.enterSafe
  extract_lets s1
  have h1 : s1.Keeps q := State.latchCause_keeps h
  exact ite_keeps h1 (State.safeEntry_keeps (State.safeOutputs_keeps (State.fput_keeps h1)))

theorem State.clearCauses_keeps {mask} (h : s.Keeps q) :
    State.Keeps q (State.clearCauses s mask) := by
  unfold State.clearCauses
  exact foldl_keeps h (fun _ _ h1 => ite_keeps (State.clearActive_keeps (State.fput_keeps h1)) h1)

theorem State.levelCauses_keeps (h : s.Keeps q) :
    State.Keeps q (State.levelCauses s) := by
  unfold State.levelCauses
  extract_lets s1
  have h1 : s1.Keeps q := ite_keeps h (State.enterSafe_keeps h)
  exact ite_keeps (State.enterSafe_keeps h1) h1

theorem State.leaveSafe_keeps (h : s.Keeps q) :
    State.Keeps q (State.leaveSafe s) := by
  unfold State.leaveSafe
  extract_lets s1 _ s3
  have h1 : s1.Keeps q := State.fput_keeps h
  have h3 : s3.Keeps q := keeps_mk h1
  exact State.raise_keeps h3

theorem State.feedStop_keeps {a cause} (h : s.Keeps q) :
    State.Keeps q (State.feedStop s a cause) := by
  unfold State.feedStop
  extract_lets s1 _ s3
  have h1 : s1.Keeps q := State.stopClocks_keeps (State.abortJob_keeps (State.abandonPulses_keeps h))
  have h3 : s3.Keeps q := keeps_mk h1
  exact ite_keeps (State.feedStopped_keeps h3) h

theorem State.islandLost_keeps {i kind} (h : s.Keeps q) :
    State.Keeps q (State.islandLost s i kind) := by
  unfold State.islandLost
  extract_lets s1 s2 _ s4
  have h1 : s1.Keeps q := State.raise_keeps (State.setAlive_keeps h)
  have h2 : s2.Keeps q := ite_keeps (State.fput_keeps h1) h1
  have h4 : s4.Keeps q := keeps_mk h2
  exact ite_keeps (ite_keeps (State.groupDown_keeps (State.segGone_keeps h4)) (ite_keeps (State.enterSafe_keeps h1) (ite_keeps h1 (State.portDown_keeps (State.linkDark_keeps h1))))) h

theorem State.islandBack_keeps {i} (h : s.Keeps q) :
    State.Keeps q (State.islandBack s i) := by
  unfold State.islandBack
  extract_lets s1
  have h1 : s1.Keeps q := State.setAlive_keeps h
  exact ite_keeps (State.clearActive_keeps h1) h1

theorem State.cmdRefuse_keeps {op e reason extra} (h : s.Keeps q) :
    State.Keeps q (State.cmdRefuse s op e reason extra) := by
  unfold State.cmdRefuse
  extract_lets s1 s2 s3
  have h1 : s1.Keeps q := State.rput_keeps h
  have h2 : s2.Keeps q := State.bump_keeps h1
  have h3 : s3.Keeps q := State.raise_keeps h2
  exact ite_keeps (ite_keeps (State.raise_keeps h3) (State.raise_keeps h3)) h3

theorem State.cmdAccept_keeps {op e} (h : s.Keeps q) :
    State.Keeps q (State.cmdAccept s op e) := by
  unfold State.cmdAccept
  exact State.bump_keeps (State.rput_keeps h)

theorem State.cmdDone_keeps {op e pay} (h : s.Keeps q) :
    State.Keeps q (State.cmdDone s op e pay) := by
  unfold State.cmdDone
  exact ite_keeps (State.cmdDoneEvent_keeps h) h

theorem State.cmdFinish_keeps {op e pay} (h : s.Keeps q) :
    State.Keeps q (State.cmdFinish s op e pay) := by
  unfold State.cmdFinish
  exact State.cmdDone_keeps (State.cmdAccept_keeps h)

theorem State.skipBad_keeps {a} (h : s.Keeps q) : State.Keeps q (State.skipBad s a) := by
  induction a generalizing s with
  | nil => exact keeps_mk h
  | cons t r ih =>
    unfold State.skipBad
    split
    · exact ih (State.cmdRefuse_keeps h)
    · exact keeps_mk h

theorem State.cmdNext_keeps (h : s.Keeps q) :
    State.Keeps q (State.cmdNext s) := by
  unfold State.cmdNext
  exact ite_keeps (State.skipBad_keeps h) h

theorem State.command_keeps {op e f} (h : s.Keeps q) (hf : ∀ t, State.Keeps q t → State.Keeps q (f t)) :
    State.Keeps q (State.command s op e f) := by
  unfold State.command
  split
  · exact h
  · extract_lets _ s2
    have h2 : s2.Keeps q := keeps_mk h
    exact ite_keeps (ite_keeps (State.cmdNext_keeps (State.cmdRefuse_keeps h2)) (State.cmdNext_keeps (hf _ h2))) h

theorem State.notSafe_keeps {op e f} (h : s.Keeps q) (hf : ∀ t, State.Keeps q t → State.Keeps q (f t)) :
    State.Keeps q (State.notSafe s op e f) := by
  unfold State.notSafe
  exact ite_keeps (State.cmdRefuse_keeps h) (hf _ h)

theorem State.commitNext_keeps (h : s.Keeps q) :
    State.Keeps q (State.commitNext s) := by
  unfold State.commitNext
  split
  · exact h
  · extract_lets s1
    have h1 : s1.Keeps q := State.driftCommit_keeps (State.commitLine_keeps h)
    exact ite_keeps (State.putStrips_keeps h1) h1

theorem State.profLine_keeps {cells} (h : s.Keeps q) :
    State.Keeps q (State.profLine s cells) := by
  unfold State.profLine
  extract_lets
  exact keeps_mk h

theorem State.spanColumn_keeps {last x k enter} (h : s.Keeps q) :
    State.Keeps q (State.spanColumn s last x k enter) := by
  unfold State.spanColumn
  extract_lets _ _ _ _ _ _ s7 s8
  have h7 : s7.Keeps q := keeps_mk h
  have h8 : s8.Keeps q := State.streakEvent_keeps h7
  exact ite_keeps (ite_keeps (State.streakPointer_keeps h8) h8) (ite_keeps (State.streakEvent_keeps h7) h7)

theorem State.spanEnd_keeps (h : s.Keeps q) :
    State.Keeps q (State.spanEnd s) := by
  unfold State.spanEnd
  extract_lets _ _ _ _ _ _ _ _ _ _ s11
  have h11 : s11.Keeps q := keeps_mk h
  exact foldl_keeps h11 (fun _ _ h12 => State.spanColumn_keeps h12)

theorem State.rowEval_keeps {l} (h : s.Keeps q) :
    State.Keeps q (State.rowEval s l) := by
  unfold State.rowEval
  split
  · exact h
  · split
    · exact h
    · extract_lets _ _ _ s4 _ s6
      have h4 : s4.Keeps q := keeps_mk h
      have h6 : s6.Keeps q := keeps_mk h4
      exact ite_keeps (State.streakEvent_keeps h6) h4

theorem State.streakLine_keeps {i before upto} (h : s.Keeps q) :
    State.Keeps q (State.streakLine s i before upto) := by
  unfold State.streakLine
  extract_lets _ _ _ _ s5 _ s7 s8 s9 _ s11 _ _ s14
  have h5 : s5.Keeps q := State.spanEnd_keeps h
  have h7 : s7.Keeps q := ite_keeps (keeps_mk h5) h
  have h8 : s8.Keeps q := State.profLine_keeps h7
  have h9 : s9.Keeps q := State.spanEnd_keeps h8
  have h11 : s11.Keeps q := ite_keeps (ite_keeps (keeps_mk h9) h8) h
  have h14 : s14.Keeps q := ite_keeps (keeps_mk h11) h11
  exact ite_keeps h (ite_keeps (foldl_keeps h14 (fun _ _ h15 => ite_keeps (State.rowEval_keeps h15) h15)) h11)

theorem State.histTrim_keeps (h : s.Keeps q) :
    State.Keeps q (State.histTrim s) := by
  unfold State.histTrim
  extract_lets
  exact keeps_mk h

theorem State.analysisRead_keeps (h : s.Keeps q) :
    State.Keeps q (State.analysisRead s) := by
  unfold State.analysisRead
  split
  · exact h
  · extract_lets _ _ s3 _ _ _ _ _ s9 s10 s11 s13
    have h3 : s3.Keeps q := State.bump_keeps h
    have h9 : s9.Keeps q := keeps_mk h3
    have h10 : s10.Keeps q := State.trackLine_keeps h9
    have h11 : s11.Keeps q := State.each_keeps h10 (fun _ _ h12 => State.patchesDone_keeps h12)
    have h13 : s13.Keeps q := State.chunksReady_keeps h11
    exact State.advanceFree_keeps (State.histTrim_keeps (State.streakLine_keeps h13))

theorem State.exportChannel_keeps {on} (h : s.Keeps q) :
    State.Keeps q (State.exportChannel s on) := by
  unfold State.exportChannel
  extract_lets
  exact State.setChState_keeps (State.setCh_keeps h)

theorem State.exportBegin_keeps {x} (h : s.Keeps q) :
    State.Keeps q (State.exportBegin s x) := by
  unfold State.exportBegin
  extract_lets _ _ s3
  have h3 : s3.Keeps q := keeps_mk h
  exact State.exportChannel_keeps (State.fput_keeps h3)

theorem State.contextExport_keeps {e} (h : s.Keeps q) :
    State.Keeps q (State.contextExport s e) := by
  unfold State.contextExport
  extract_lets _ _ _ _ s5
  have h5 : s5.Keeps q := ite_keeps (State.fput_keeps (keeps_mk h)) (State.exportBegin_keeps h)
  exact ite_keeps (State.cmdRefuse_keeps h) (State.cmdFinish_keeps h5)

theorem State.exportNext_keeps (h : s.Keeps q) :
    State.Keeps q (State.exportNext s) := by
  unfold State.exportNext
  split
  · exact h
  · extract_lets _ s2
    have h2 : s2.Keeps q := keeps_mk h
    exact State.exportChannel_keeps (State.fput_keeps (State.fput_keeps h2))

theorem State.exportDone_keeps {ok} (h : s.Keeps q) :
    State.Keeps q (State.exportDone s ok) := by
  unfold State.exportDone
  split
  · exact h
  · extract_lets _ _ _ f4 _ s7 s8 s9 s10 _ s12 s13
    have h4 : ∀ t y1, State.Keeps q t → State.Keeps q (f4 t y1) := by
      intro t y1 h5
      unfold f4
      exact ite_keeps (State.dmaWrite_keeps h5) (State.outerStore_keeps h5)
    have h7 : s7.Keeps q := keeps_mk h
    have h8 : s8.Keeps q := State.fput_keeps h7
    have h9 : s9.Keeps q := State.dmaHalt_keeps (State.dmaConflict_keeps h8)
    have h10 : s10.Keeps q := State.exportChannel_keeps (h4 _ _ h8)
    have h12 : s12.Keeps q := keeps_mk h8
    have h13 : s13.Keeps q := State.dmaHalt_keeps (h4 _ _ h12)
    exact ite_keeps h (ite_keeps (State.exportNext_keeps (State.raiseAt_keeps h9)) (ite_keeps (State.exportNext_keeps (State.raiseAt_keeps h10)) (State.exportNext_keeps (State.raiseAt_keeps h13))))

theorem State.calBegin_keeps {e} (h : s.Keeps q) :
    State.Keeps q (State.calBegin s e) := by
  unfold State.calBegin
  extract_lets
  exact State.setCal_keeps (State.fput_keeps h)

theorem State.calStart_keeps {e} (h : s.Keeps q) :
    State.Keeps q (State.calStart s e) := by
  unfold State.calStart
  extract_lets _ _ s3
  have h3 : s3.Keeps q := ite_keeps (keeps_mk h) (State.calBegin_keeps h)
  exact ite_keeps (State.cmdRefuse_keeps h) (State.cmdFinish_keeps h3)

theorem State.calPrepared_keeps (h : s.Keeps q) :
    State.Keeps q (State.calPrepared s) := by
  unfold State.calPrepared
  split
  · exact h
  · extract_lets s1 _ _ _ _ s6
    have h1 : s1.Keeps q := State.setCal_keeps (State.calPrepare_keeps h)
    have h6 : s6.Keeps q := keeps_mk h1
    exact ite_keeps h (State.setLampEn_keeps h6)

theorem State.calReturn_keeps {c} (h : s.Keeps q) :
    State.Keeps q (State.calReturn s c) := by
  unfold State.calReturn
  extract_lets s1 _ _ _ s5 s6
  have h1 : s1.Keeps q := State.setCal_keeps (State.fput_keeps h)
  have h5 : s5.Keeps q := keeps_mk h1
  have h6 : s6.Keeps q := State.stopClocks_keeps h5
  exact ite_keeps (State.moveOrQueue_keeps h6) h6

theorem State.calVerdict_keeps {c} (h : s.Keeps q) :
    State.Keeps q (State.calVerdict s c) := by
  unfold State.calVerdict
  extract_lets _ s2
  have h2 : s2.Keeps q := ite_keeps (State.calHeader_keeps h) h
  exact State.calReturn_keeps h2

theorem State.calNextPass_keeps {c} (h : s.Keeps q) :
    State.Keeps q (State.calNextPass s c) := by
  unfold State.calNextPass
  exact State.setCal_keeps (State.calClear_keeps h)

theorem State.calPassEnd_keeps (h : s.Keeps q) :
    State.Keeps q (State.calPassEnd s) := by
  unfold State.calPassEnd
  split
  · exact h
  · extract_lets _ _ x3 x4
    clear_value (eh3 : x3 = _)
    have h3 : x3.1.Keeps q := by rw [eh3]; exact State.calDark_keeps h
    clear_value (eh4 : x4 = _)
    have h4 : x4.1.Keeps q := by rw [eh4]; exact State.calGain_keeps h
    refine ite_keeps h (ite_keeps (State.calReturn_keeps h) ?_)
    · split
      · exact ite_keeps (State.calNextPass_keeps h3) (ite_keeps (State.calVerdict_keeps h3) (State.calShutter_keeps h3))
      · exact ite_keeps (State.calNextPass_keeps h4) (State.calStep_keeps (State.calTref_keeps h4))
      · exact ite_keeps h (State.calNextPass_keeps (State.calRnu_keeps h))
      · exact h

theorem State.calSettled_keeps (h : s.Keeps q) :
    State.Keeps q (State.calSettled s) := by
  unfold State.calSettled
  split
  · exact h
  · extract_lets
    exact ite_keeps (State.calStep_keeps h) h

theorem State.calVerifyEnd_keeps (h : s.Keeps q) :
    State.Keeps q (State.calVerifyEnd s) := by
  unfold State.calVerifyEnd
  split
  · exact h
  · extract_lets
    exact ite_keeps (State.calVerdict_keeps (State.calRnu_keeps h)) h

theorem State.calEnd_keeps (h : s.Keeps q) :
    State.Keeps q (State.calEnd s) := by
  unfold State.calEnd
  split
  · exact h
  · extract_lets
    exact ite_keeps (State.calFinish_keeps h) h

theorem State.calAbort_keeps (h : s.Keeps q) :
    State.Keeps q (State.calAbort s) := by
  unfold State.calAbort
  split
  · exact h
  · extract_lets
    exact ite_keeps h (ite_keeps (State.setCal_keeps h) (State.calReturn_keeps h))

theorem State.calAxis_keeps (h : s.Keeps q) :
    State.Keeps q (State.calAxis s) := by
  unfold State.calAxis
  split
  · exact h
  · extract_lets _ _ _ s4
    have h4 : s4.Keeps q := keeps_mk h
    exact State.calFinish_keeps (State.stopClocks_keeps (State.abandonPulses_keeps h4))

theorem State.checkStart_keeps {b} (h : s.Keeps q) :
    State.Keeps q (State.checkStart s b) := by
  unfold State.checkStart
  extract_lets
  exact keeps_mk h

theorem State.mbistStart_keeps {b} (h : s.Keeps q) :
    State.Keeps q (State.mbistStart s b) := by
  unfold State.mbistStart
  extract_lets
  exact State.bankWritten_keeps (keeps_mk h)

theorem State.mbistEnd_keeps {b unrepaired} (h : s.Keeps q) :
    State.Keeps q (State.mbistEnd s b unrepaired) := by
  unfold State.mbistEnd
  extract_lets s1 _ s3
  have h1 : s1.Keeps q := State.clear_keeps h
  have h3 : s3.Keeps q := keeps_mk h1
  refine ite_keeps h ?_
  · split
    · exact State.fputB_keeps h3
    · exact State.raise_keeps (State.fputB_keeps h3)

theorem State.bankCommit_keeps {e} (h : s.Keeps q) :
    State.Keeps q (State.bankCommit s e) := by
  unfold State.bankCommit
  extract_lets
  exact ite_keeps (State.cmdRefuse_keeps h) (State.cmdFinish_keeps (State.selectBank_keeps h))

theorem State.setLeave_keeps {k e r} (h : s.Keeps q) :
    State.Keeps q (State.setLeave s k e r) := by
  unfold State.setLeave
  extract_lets
  exact keeps_mk h

theorem State.engPool_keeps {a} (h : s.Keeps q) :
    State.Keeps q (State.engPool s a) := by
  unfold State.engPool
  split
  · exact State.poolCheck_keeps h
  · exact h

theorem State.engOut_keeps {k e reason} (h : s.Keeps q) :
    State.Keeps q (State.engOut s k e reason) := by
  unfold State.engOut
  extract_lets s1
  have h1 : s1.Keeps q := State.setLeave_keeps (State.fput_keeps h)
  exact State.engPool_keeps (State.raise_keeps h1)

theorem State.engBack_keeps {k e reason} (h : s.Keeps q) :
    State.Keeps q (State.engBack s k e reason) := by
  unfold State.engBack
  exact State.engPool_keeps (State.raise_keeps (State.fput_keeps h))

theorem State.engGo_keeps {k e reason} (h : s.Keeps q) :
    State.Keeps q (State.engGo s k e reason) := by
  unfold State.engGo
  exact ite_keeps (State.setLeave_keeps h) (State.engOut_keeps h)

theorem State.engWrite_keeps {k e val} (h : s.Keeps q) :
    State.Keeps q (State.engWrite s k e val) := by
  unfold State.engWrite
  extract_lets _ _ s3
  have h3 : s3.Keeps q := State.fputB_keeps h
  split
  · exact ite_keeps (State.engGo_keeps h3) (ite_keeps (State.engGo_keeps h3) h3)
  · exact ite_keeps (State.setLeave_keeps h3) (ite_keeps (State.setLeave_keeps h3) h3)
  · exact ite_keeps (State.fput_keeps h3) (ite_keeps (State.engBack_keeps h3) h3)
  · exact ite_keeps (State.fput_keeps h3) h3
  · exact h3

theorem State.engTested_keeps {k e pass mismatch} (h : s.Keeps q) :
    State.Keeps q (State.engTested s k e pass mismatch) := by
  unfold State.engTested
  extract_lets s1
  have h1 : s1.Keeps q := State.fputB_keeps h
  exact ite_keeps h (ite_keeps (State.raise_keeps (State.fput_keeps h1)) (ite_keeps (State.fput_keeps h1) (State.engBack_keeps h1)))

theorem State.engDone_keeps {k e} (h : s.Keeps q) :
    State.Keeps q (State.engDone s k e) := by
  unfold State.engDone
  extract_lets s1
  have h1 : s1.Keeps q := State.bump_keeps (State.fput_keeps h)
  split
  · exact State.engOut_keeps h1
  · exact h1

theorem State.setHoldP_keeps {e b} (h : s.Keeps q) :
    State.Keeps q (State.setHoldP s e b) := by
  unfold State.setHoldP
  extract_lets
  exact keeps_mk h

theorem State.setHoldN_keeps {e c} (h : s.Keeps q) :
    State.Keeps q (State.setHoldN s e c) := by
  unfold State.setHoldN
  extract_lets
  exact keeps_mk h

theorem State.setHoldC_keeps {e h'} (h : s.Keeps q) :
    State.Keeps q (State.setHoldC s e h') := by
  unfold State.setHoldC
  extract_lets
  exact keeps_mk h

theorem State.pixelTake_keeps {e} (h : s.Keeps q) :
    State.Keeps q (State.pixelTake s e) := by
  unfold State.pixelTake
  refine ite_keeps h ?_
  · split
    · exact h
    · split
      · exact h
      · extract_lets s1
        have h1 : s1.Keeps q := State.fput_keeps (State.setHoldP_keeps (State.setQueue_keeps h))
        exact ite_keeps h1 (State.bump_keeps h1)

theorem State.pixelDone_keeps {e} (h : s.Keeps q) :
    State.Keeps q (State.pixelDone s e) := by
  unfold State.pixelDone
  split
  · exact h
  · exact State.engDone_keeps (State.blockDone_keeps (State.setHoldP_keeps h))

theorem State.nozzleTake_keeps {e} (h : s.Keeps q) :
    State.Keeps q (State.nozzleTake s e) := by
  unfold State.nozzleTake
  refine ite_keeps h ?_
  · split
    · exact h
    · extract_lets _ s2
      have h2 : s2.Keeps q := keeps_mk h
      exact State.fput_keeps (State.setHoldN_keeps h2)

theorem State.nozzleDone_keeps {e} (h : s.Keeps q) :
    State.Keeps q (State.nozzleDone s e) := by
  unfold State.nozzleDone
  split
  · exact h
  · exact State.engDone_keeps (State.chunkApply_keeps (State.setHoldN_keeps h))

theorem State.corrTake_keeps {e} (h : s.Keeps q) :
    State.Keeps q (State.corrTake s e) := by
  unfold State.corrTake
  refine ite_keeps h ?_
  · split
    · exact h
    · extract_lets _ _ s3
      have h3 : s3.Keeps q := keeps_mk h
      exact State.fput_keeps (State.setHoldC_keeps h3)

theorem State.trackLat_keeps {com} (h : s.Keeps q) :
    State.Keeps q (State.trackLat s com) := by
  unfold State.trackLat
  exact State.fput_keeps h

theorem State.corrDone_keeps {e} (h : s.Keeps q) :
    State.Keeps q (State.corrDone s e) := by
  unfold State.corrDone
  split
  · exact h
  · extract_lets s1 s2
    have h1 : s1.Keeps q := State.setHoldC_keeps h
    have h2 : s2.Keeps q := by
      unfold s2
      split
      · exact State.trackLat_keeps (State.chainDone_keeps h1)
      · exact State.trackLat_keeps (State.tickDone_keeps h1)
      · exact State.couchDone_keeps h1
    exact State.engDone_keeps h2

theorem State.workBack_keeps {k e} (h : s.Keeps q) :
    State.Keeps q (State.workBack s k e) := by
  unfold State.workBack
  split
  · split
    · exact h
    · extract_lets s1
      have h1 : s1.Keeps q := State.setHoldP_keeps h
      exact ite_keeps h1 (ite_keeps (State.dropLine_keeps h1) (State.setQueue_keeps h1))
  · split
    · exact h
    · extract_lets s2
      have h2 : s2.Keeps q := State.setHoldN_keeps h
      exact ite_keeps (State.chunkSkip_keeps h2) (keeps_mk h2)
  · split
    · exact h
    · extract_lets s4
      have h4 : s4.Keeps q := State.setHoldC_keeps h
      exact ite_keeps (State.corrSkip_keeps h4) (keeps_mk h4)

theorem State.engParity_keeps {k e} (h : s.Keeps q) :
    State.Keeps q (State.engParity s k e) := by
  unfold State.engParity
  exact ite_keeps (State.engOut_keeps (State.fput_keeps (State.workBack_keeps h))) h

theorem State.voltClock_keeps {k} (h : s.Keeps q) :
    State.Keeps q (State.voltClock s k) := by
  unfold State.voltClock
  extract_lets _ _ s3
  have h3 : s3.Keeps q := ite_keeps (keeps_mk h) h
  exact State.fput_keeps h3

theorem State.jobCommit_keeps {c} (h : s.Keeps q) :
    State.Keeps q (State.jobCommit s c) := by
  unfold State.jobCommit
  exact ite_keeps (State.each_keeps h (fun _ _ h1 => State.mbAtJob_keeps h1)) (State.boundaryClaims_keeps h)

theorem State.jobSettings_keeps {e} (h : s.Keeps q) :
    State.Keeps q (State.jobSettings s e) := by
  unfold State.jobSettings
  extract_lets s1 s2 _ s5
  have h1 : s1.Keeps q := keeps_mk h
  have h2 : s2.Keeps q := foldl_keeps h1 (fun _ _ h3 => State.jobCommit_keeps h3)
  have h5 : s5.Keeps q := keeps_mk h2
  exact keeps_mk h5

theorem State.jobTrial_keeps {e} (h : s.Keeps q) :
    State.Keeps q (State.jobTrial s e) := by
  unfold State.jobTrial
  extract_lets s1
  have h1 : s1.Keeps q := State.jobSettings_keeps h
  exact State.each_keeps h1 (fun _ _ h2 => State.voltClock_keeps h2)

theorem State.raiseLeads_keeps {least} (h : s.Keeps q) :
    State.Keeps q (State.raiseLeads s least).2 := by
  unfold State.raiseLeads
  extract_lets
  exact State.each_keeps h (fun _ _ h2 => State.fput_keeps h2)

theorem State.fitPeriod_keeps (h : s.Keeps q) :
    State.Keeps q (State.fitPeriod s) := by
  unfold State.fitPeriod
  extract_lets
  exact keeps_mk h

theorem State.fitWindows_keeps {least} (h : s.Keeps q) :
    State.Keeps q (State.fitWindows s least).2 := by
  unfold State.fitWindows
  extract_lets x1
  clear_value (eh1 : x1 = _)
  have h1 : x1.2.Keeps q := by rw [eh1]; exact State.raiseLeads_keeps h
  exact State.fitPeriod_keeps h1

theorem State.periodAdjust_keeps {up longer} (h : s.Keeps q) :
    State.Keeps q (State.periodAdjust s up longer) := by
  unfold State.periodAdjust
  extract_lets f1
  have h1 : ∀ y0 y1 t, State.Keeps q t → State.Keeps q (f1 y0 y1 t) := by
    intro y0 y1 t h2
    unfold f1
    exact State.raise_keeps h2
  exact ite_keeps (State.each_keeps h (fun _ _ h3 => h1 _ _ _ h3)) (ite_keeps (h1 _ _ _ h) h)

theorem State.windowAdjust_keeps (h : s.Keeps q) :
    State.Keeps q (State.windowAdjust s) := by
  unfold State.windowAdjust
  extract_lets x1
  clear_value (eh1 : x1 = _)
  have h1 : x1.2.Keeps q := by rw [eh1]; exact State.raiseLeads_keeps h
  exact State.each_keeps h1 (fun _ _ h2 => State.raise_keeps h2)

theorem State.jobTracks_keeps (h : s.Keeps q) :
    State.Keeps q (State.jobTracks s) := by
  unfold State.jobTracks
  extract_lets _ s2 s3 s4 s5 s6
  have h2 : s2.Keeps q := ite_keeps h (State.nzCommit_keeps h)
  have h3 : s3.Keeps q := State.mapCommit_keeps (State.winJb_keeps h2)
  have h4 : s4.Keeps q := State.clear_keeps (State.bandsAge_keeps h3)
  have h5 : s5.Keeps q := State.fput_keeps (State.rput_keeps (State.rput_keeps h4))
  have h6 : s6.Keeps q := ite_keeps h5 (State.rput_keeps (State.rput_keeps (State.rput_keeps h5)))
  exact keeps_mk h6

theorem State.jobSegs_keeps (h : s.Keeps q) :
    State.Keeps q (State.jobSegs s) := by
  unfold State.jobSegs
  extract_lets _ s2 s7 s9
  have h2 : s2.Keeps q := by
    refine State.each_keeps h (fun _ _ h3 => ?_)
    · extract_lets _ s5 s6
      have h5 : s5.Keeps q := keeps_mk h3
      have h6 : s6.Keeps q := ite_keeps (State.fput_keeps h5) h5
      exact ite_keeps (State.groupStartup_keeps h6) h6
  have h7 : s7.Keeps q := State.each_keeps h2 (fun _ _ h8 => State.segMode_keeps h8)
  have h9 : s9.Keeps q := by
    refine State.each_keeps h7 (fun _ _ h10 => ?_)
    · extract_lets
      exact State.setGrp_keeps h10
  exact keeps_mk h9

theorem State.jobOrigin_keeps {regime} (h : s.Keeps q) :
    State.Keeps q (State.jobOrigin s regime) := by
  unfold State.jobOrigin
  extract_lets _ _ _ _ _ s6
  have h6 : s6.Keeps q := keeps_mk h
  exact ite_keeps (State.raise_keeps h6) h6

theorem State.jobBegin_keeps {e up longer} (h : s.Keeps q) :
    State.Keeps q (State.jobBegin s e up longer) := by
  unfold State.jobBegin
  extract_lets _ s2 _ _ _ _ s7 s8 s9 s11 s12 s13 s14 s15 s16
  have h2 : s2.Keeps q := State.fput_keeps (State.fput_keeps (State.fput_keeps h))
  have h7 : s7.Keeps q := keeps_mk h2
  have h8 : s8.Keeps q := State.jobSegs_keeps (State.jobTracks_keeps h7)
  have h9 : s9.Keeps q := State.each_keeps h8 (fun _ _ h10 => State.driftReset_keeps h10)
  have h11 : s11.Keeps q := State.fput_keeps (State.fput_keeps h9)
  have h12 : s12.Keeps q := State.feedUnc_keeps (State.fput_keeps h11)
  have h13 : s13.Keeps q := State.jobOrigin_keeps (State.updateVline_keeps h12)
  have h14 : s14.Keeps q := State.lampDeliver_keeps (State.setLampEn_keeps h13)
  have h15 : s15.Keeps q := State.windowAdjust_keeps (State.periodAdjust_keeps h14)
  have h16 : s16.Keeps q := State.dropQueued_keeps h15
  exact ite_keeps (State.moveOrQueue_keeps h16) h16

theorem State.jobStart_keeps {e} (h : s.Keeps q) :
    State.Keeps q (State.jobStart s e) := by
  unfold State.jobStart
  extract_lets _ s2 x3 s4
  have h2 : s2.Keeps q := State.jobTrial_keeps h
  clear_value (eh3 : x3 = _)
  have h3 : x3.2.Keeps q := by
    rw [eh3]
    split
    · exact State.fitWindows_keeps h2
    · exact h2
  have h4 : s4.Keeps q := State.jobBegin_keeps h3
  split
  · exact State.cmdRefuse_keeps h
  · exact State.cmdFinish_keeps h4

theorem State.dropHalf_keeps (h : s.Keeps q) :
    State.Keeps q (State.dropHalf s) := by
  unfold State.dropHalf
  extract_lets
  exact State.handOverLines_keeps (foldl_keeps h (fun _ _ h2 => State.rewindLine_keeps (State.poolDropped_keeps (State.discardLine_keeps h2))))

theorem State.jobEnd_keeps (h : s.Keeps q) :
    State.Keeps q (State.jobEnd s) := by
  unfold State.jobEnd
  extract_lets s1 _ s3
  have h1 : s1.Keeps q := State.feedUnc_keeps (State.jobOver_keeps (State.dropHalf_keeps (State.boundaryClaims_keeps h)))
  have h3 : s3.Keeps q := keeps_mk h1
  exact ite_keeps (State.stopClocks_keeps h3) h3

theorem State.jobStop_keeps {e} (h : s.Keeps q) :
    State.Keeps q (State.jobStop s e) := by
  unfold State.jobStop
  extract_lets s1 s2 _ s4 _ s6
  have h1 : s1.Keeps q := State.cmdAccept_keeps h
  have h2 : s2.Keeps q := State.fput_keeps (State.fput_keeps h1)
  have h4 : s4.Keeps q := keeps_mk h2
  have h6 : s6.Keeps q := keeps_mk h4
  exact ite_keeps (State.cmdRefuse_keeps h) (ite_keeps (State.cmdRefuse_keeps h) (ite_keeps h4 (ite_keeps h6 (State.halt_keeps h6))))

theorem State.advanceTry_keeps (h : s.Keeps q) :
    State.Keeps q (State.advanceTry s) := by
  unfold State.advanceTry
  split
  · extract_lets s1 _ s3
    have h1 : s1.Keeps q := State.acceptAdvance_keeps h
    have h3 : s3.Keeps q := keeps_mk h1
    exact ite_keeps (State.cmdDone_keeps h3) h
  · exact h

theorem State.advance_keeps {e} (h : s.Keeps q) :
    State.Keeps q (State.advance s e) := by
  unfold State.advance
  extract_lets s1 _ s3
  have h1 : s1.Keeps q := State.cmdAccept_keeps h
  have h3 : s3.Keeps q := keeps_mk h1
  exact ite_keeps (State.cmdRefuse_keeps h) (ite_keeps (State.cmdRefuse_keeps h) (State.advanceTry_keeps (State.fput_keeps h3)))

theorem State.passBoundary_keeps (h : s.Keeps q) :
    State.Keeps q (State.passBoundary s) := by
  unfold State.passBoundary
  split
  · exact h
  · extract_lets s1 s2 s3 s4 _ s6
    have h1 : s1.Keeps q := State.setF_keeps h
    have h2 : s2.Keeps q := State.boundaryClaims_keeps h1
    have h3 : s3.Keeps q := State.mapCommit_keeps h2
    have h4 : s4.Keeps q := State.trackPb_keeps (State.bandPb_keeps h3)
    have h6 : s6.Keeps q := State.fput_keeps (keeps_mk h4)
    exact ite_keeps h (ite_keeps (State.jobEnd_keeps h6) (State.advanceTry_keeps h6))

theorem State.couchDwell_keeps (h : s.Keeps q) :
    State.Keeps q (State.couchDwell s) := by
  unfold State.couchDwell
  split
  · exact h
  · exact ite_keeps h (ite_keeps (State.moveStart_keeps (State.setCouchStep_keeps h)) (ite_keeps (State.setCouchStep_keeps h) h))

theorem State.couchForward_keeps (h : s.Keeps q) :
    State.Keeps q (State.couchForward s) := by
  unfold State.couchForward
  split
  · exact h
  · extract_lets _ s2
    have h2 : s2.Keeps q := keeps_mk h
    exact ite_keeps (State.moveStart_keeps (State.setCouchStep_keeps h2)) h

theorem State.fallbackDue_keeps {k} (h : s.Keeps q) :
    State.Keeps q (State.fallbackDue s k) := by
  unfold State.fallbackDue
  extract_lets _ s2
  have h2 : s2.Keeps q := ite_keeps h (keeps_mk h)
  exact ite_keeps (ite_keeps (keeps_mk h2) (State.couchStart_keeps h2)) h

theorem State.fallbackPeriod_keeps (h : s.Keeps q) :
    State.Keeps q (State.fallbackPeriod s) := by
  unfold State.fallbackPeriod
  extract_lets s1 s2
  have h1 : s1.Keeps q := ite_keeps (State.fitPeriod_keeps h) h
  have h2 : s2.Keeps q := State.updateVline_keeps (State.windowAdjust_keeps h1)
  exact State.poolCheck_keeps (State.fput_keeps h2)

theorem State.voltageMode_keeps {k ok loop} (h : s.Keeps q) :
    State.Keeps q (State.voltageMode s k ok loop) := by
  unfold State.voltageMode
  extract_lets _ _ s3 s4 _ s6
  have h3 : s3.Keeps q := State.fput_keeps (State.voltClock_keeps h)
  have h4 : s4.Keeps q := State.fput_keeps h3
  have h6 : s6.Keeps q := keeps_mk h4
  exact ite_keeps (State.segMode_keeps h6) h

theorem State.voltRx_keeps {k t} (h : s.Keeps q) :
    State.Keeps q (State.voltRx s k t) := by
  unfold State.voltRx
  extract_lets _ s2
  have h2 : s2.Keeps q := State.fput_keeps (keeps_mk h)
  exact State.fput_keeps (State.fput_keeps h2)

theorem State.voltDone_keeps {k ok} (h : s.Keeps q) :
    State.Keeps q (State.voltDone s k ok) := by
  unfold State.voltDone
  extract_lets s1 s2 s4 s5 _ _ s8 s9
  have h1 : s1.Keeps q := State.fput_keeps (State.fput_keeps h)
  have h2 : s2.Keeps q := State.each_keeps h1 (fun _ _ h3 => State.voltRx_keeps h3)
  have h4 : s4.Keeps q := State.showLoops_keeps h2
  have h5 : s5.Keeps q := State.segMode_keeps h4
  have h8 : s8.Keeps q := keeps_mk h5
  have h9 : s9.Keeps q := State.fallbackPeriod_keeps h8
  exact State.raise_keeps h9

theorem State.clearRc_keeps {a} (h : s.Keeps q) :
    State.Keeps q (State.clearRc s a) := by
  unfold State.clearRc
  split
  · extract_lets _ s2
    have h2 : s2.Keeps q := State.rput_keeps h
    refine ite_keeps h (ite_keeps (State.fput_keeps h2) ?_)
    · split
      · extract_lets
        exact State.setPort_keeps h2
      · exact h2
  · exact h

theorem State.latchAll_keeps {p base n} (h : s.Keeps q) :
    State.Keeps q (State.latchAll s p base n) := by
  unfold State.latchAll
  refine State.each_keeps h (fun _ _ h1 => ?_)
  · extract_lets
    exact keeps_mk h1

theorem State.readReg_keeps {p a} (h : s.Keeps q) :
    State.Keeps q (State.readReg s p a).2 := by
  unfold State.readReg
  split
  · exact h
  · split
    · exact State.regRefused_keeps h
    · split
      · extract_lets s1 s2
        have h1 : s1.Keeps q := ite_keeps (State.svcRead_keeps h) h
        have h2 : s2.Keeps q := State.latchAll_keeps h1
        exact h2
      · exact h
      · exact State.clearRc_keeps h

theorem State.snapTake_keeps {line} (h : s.Keeps q) :
    State.Keeps q (State.snapTake s line) := by
  unfold State.snapTake
  extract_lets _ _ s3
  have h3 : s3.Keeps q := keeps_mk h
  exact State.fput_keeps (State.wput_keeps h3)

end Sys2Proof.Machine
end

