-- ==== Sys2Proof/Laws/KeepsBus.lean ====
section
/-!
SUPPORT. Every function of `RegOps`, `RingOps`, `SysOps`, `MoveOps`, `BringOps` keeps the state sound, the queue and the fuses.
-/

namespace Sys2Proof.Machine

variable {q : List Instr × Fuses} {s : State}

theorem State.putReg_keeps {d a v} (h : s.Keeps q) :
    State.Keeps q (State.putReg s d a v) := by
  unfold State.putReg
  extract_lets _ _ s3 s4
  have h3 : s3.Keeps q := ite_keeps h (State.rput_keeps h)
  have h4 : s4.Keeps q := ite_keeps h3 (State.rput_keeps h3)
  refine foldl_keeps h4 (fun _ _ h6 => ?_)
  · extract_lets
    exact ite_keeps h6 (ite_keeps (State.setAxis_keeps (State.shadow_keeps h6)) (State.shadow_keeps h6))

theorem State.effectSys_keeps {before p a v} (h : s.Keeps q) :
    State.Keeps q (State.effectSys s before p a v) := by
  unfold State.effectSys
  extract_lets _ _ s3
  have h3 : s3.Keeps q := by
    unfold s3
    split
    · exact h
    · exact State.fput_keeps (keeps_mk h)
    · exact State.fput_keeps (keeps_mk h)
  exact ite_keeps (ite_keeps h (keeps_mk h)) (ite_keeps (ite_keeps (keeps_mk h3) h3) (ite_keeps (ite_keeps (State.enterSafe_keeps h) h) h))

theorem State.retest_keeps {g} (h : s.Keeps q) :
    State.Keeps q (State.retest s g) := by
  unfold State.retest
  extract_lets _ s2
  have h2 : s2.Keeps q := State.each_keeps h (fun _ _ h3 => State.fput_keeps h3)
  exact State.setGrp_keeps h2

theorem State.effectVideo_keeps {a v} (h : s.Keeps q) :
    State.Keeps q (State.effectVideo s a v) := by
  unfold State.effectVideo
  refine ite_keeps (ite_keeps (State.trainBegin_keeps h) h) ?_
  · split
    · exact ite_keeps (State.scbStart_keeps h) h
    · split
      · exact ite_keeps (State.retest_keeps h) h
      · exact h

theorem State.busEnable_keeps {b} (h : s.Keeps q) :
    State.Keeps q (State.busEnable s b) := by
  unfold State.busEnable
  exact ite_keeps (ite_keeps (State.fput_keeps (State.setLbus_keeps h)) h) (State.fput_keeps (State.setLbus_keeps h))

theorem State.hostAllOff_keeps (h : s.Keeps q) :
    State.Keeps q (State.hostAllOff s) := by
  unfold State.hostAllOff
  extract_lets s1
  have h1 : s1.Keeps q := by
    refine State.each_keeps h (fun _ _ h2 => ?_)
    · extract_lets
      exact ite_keeps (State.setLbus_keeps h2) (State.allOffOn_keeps h2)
  exact State.allOffDone_keeps h1

theorem State.effectLamp_keeps {before a v} (h : s.Keeps q) :
    State.Keeps q (State.effectLamp s before a v) := by
  unfold State.effectLamp
  extract_lets s1
  have h1 : s1.Keeps q := State.each_keeps h (fun _ _ h2 => State.busEnable_keeps h2)
  refine ite_keeps (ite_keeps (State.hostAllOff_keeps h1) h1) (ite_keeps (ite_keeps (State.tintInside_keeps (State.each_keeps h (fun _ _ h3 => State.fput_keeps h3))) h) (ite_keeps (State.tintInside_keeps h) ?_))
  · split
    · exact ite_keeps h (State.fput_keeps (State.setZone_keeps h))
    · split
      · extract_lets _ s5 _ _ s8
        have h5 : s5.Keeps q := State.setZone_keeps h
        have h8 : s8.Keeps q := ite_keeps (State.setLbus_keeps h5) h
        exact ite_keeps h (State.setZone_keeps h8)
      · exact h

theorem State.effectPool_keeps {a v} (h : s.Keeps q) :
    State.Keeps q (State.effectPool s a v) := by
  unfold State.effectPool
  split
  · exact State.engWrite_keeps h
  · refine ite_keeps (ite_keeps (State.calAbort_keeps h) h) ?_
    · split
      · extract_lets s1
        have h1 : s1.Keeps q := ite_keeps (State.checkStart_keeps h) h
        exact ite_keeps (State.mbistStart_keeps h1) h1
      · exact h

theorem State.effectTrack_keeps {a v} (h : s.Keeps q) :
    State.Keeps q (State.effectTrack s a v) := by
  unfold State.effectTrack
  extract_lets
  refine ite_keeps (ite_keeps (State.zeroContexts_keeps h) h) (ite_keeps (ite_keeps (keeps_mk h) h) ?_)
  · split
    · exact State.bandHost_keeps h
    · exact h

theorem State.enableAxis_keeps {x was} (h : s.Keeps q) :
    State.Keeps q (State.enableAxis s x was) := by
  unfold State.enableAxis
  extract_lets _ _ s3 _ s5
  have h3 : s3.Keeps q := ite_keeps (State.fput_keeps (State.setAxis_keeps h)) h
  have h5 : s5.Keeps q := State.enableFalls_keeps h3
  exact ite_keeps h (ite_keeps (ite_keeps (State.fput_keeps (State.fput_keeps (State.setAxis_keeps h))) h) (ite_keeps (State.calAxis_keeps h5) h5))

theorem State.hostStop_keeps {l} (h : s.Keeps q) :
    State.Keeps q (State.hostStop s l) := by
  unfold State.hostStop
  extract_lets _ s2 s3
  have h2 : s2.Keeps q := State.stopAxes_keeps h
  have h3 : s3.Keeps q := ite_keeps (State.calAxis_keeps h2) h2
  split
  · exact State.feedStop_keeps h3
  · exact h3

theorem State.effectMotion_keeps {before a v} (h : s.Keeps q) :
    State.Keeps q (State.effectMotion s before a v) := by
  unfold State.effectMotion
  refine ite_keeps (ite_keeps (State.hostStop_keeps h) h) ?_
  · split
    · extract_lets s1 s2
      have h1 : s1.Keeps q := State.enableAxis_keeps h
      have h2 : s2.Keeps q := ite_keeps (State.hostStop_keeps h1) (ite_keeps (State.halt_keeps h1) h1)
      refine ite_keeps ?_ h2
      · split
        · exact State.setPosition_keeps h2
        · exact h2
    · exact h

theorem State.effectPos_keeps {a v} (h : s.Keeps q) :
    State.Keeps q (State.effectPos s a v) := by
  unfold State.effectPos
  split
  · extract_lets s1
    have h1 : s1.Keeps q := ite_keeps (State.absUnc_keeps (State.fput_keeps h)) h
    exact ite_keeps (State.absTrigger_keeps h1) h1
  · split
    · extract_lets _ s3
      have h3 : s3.Keeps q := ite_keeps (State.setQei_keeps (State.fput_keeps (State.setQeiUnc_keeps h))) h
      exact ite_keeps (State.fput_keeps (State.setQei_keeps h3)) h3
    · split
      · extract_lets
        exact State.setAbs_keeps h
      · exact h

theorem State.claimPort_keeps {a} (h : s.Keeps q) : State.Keeps q (State.claimPort s a) := by
  unfold State.claimPort
  extract_lets _ claim
  have hc : ∀ i n, State.Keeps q (claim i n) := by
    intro i n
    unfold claim
    exact ite_keeps (keeps_mk h) h
  exact ite_keeps (hc _ _) (ite_keeps (hc _ _) h)

theorem State.effectMon_keeps {before a v} (h : s.Keeps q) :
    State.Keeps q (State.effectMon s before a v) := by
  unfold State.effectMon
  extract_lets f1 s3 _ _ s6
  have h1 : ∀ t, State.Keeps q t → State.Keeps q (f1 t) := by
    intro t h2
    unfold f1
    exact ite_keeps h2 (State.faultUpdate_keeps h2)
  have h3 : s3.Keeps q := State.ageChanged_keeps h
  have h6 : s6.Keeps q := keeps_mk h
  refine ite_keeps (ite_keeps (keeps_mk h3) h3) (ite_keeps (ite_keeps (State.monTriggerBy_keeps h) h) (ite_keeps (ite_keeps (State.fput_keeps h6) h) (ite_keeps (ite_keeps h (ite_keeps (State.blankRose_keeps h) (State.blankFell_keeps h))) ?_)))
  · split
    · exact ite_keeps h (h1 _ (State.monChanged_keeps h))
    · split
      · exact ite_keeps h (State.monChanged_keeps h)
      · split
        · extract_lets
          exact ite_keeps (State.setChan_keeps h) h
        · exact h

theorem State.portModes_keeps {fresh} (h : s.Keeps q) :
    State.Keeps q (State.portModes s fresh) := by
  unfold State.portModes
  extract_lets _ s2 s3 _ s7
  have h2 : s2.Keeps q := ite_keeps (keeps_mk h) h
  have h3 : s3.Keeps q := by
    refine State.each_keeps h2 (fun _ _ h4 => ?_)
    · extract_lets
      exact ite_keeps (State.fput_keeps (State.linkDark_keeps (State.setPort_keeps h4))) (ite_keeps (State.fput_keeps h4) h4)
  have h7 : s7.Keeps q := ite_keeps (keeps_mk h3) h3
  exact State.showPorts_keeps h7

theorem State.slotReset_keeps {q'} (h : s.Keeps q) :
    State.Keeps q (State.slotReset s q') := by
  unfold State.slotReset
  extract_lets _ s2 s3 s4 _ s6 s7 s8 s13
  have h2 : s2.Keeps q := State.fput_keeps h
  have h3 : s3.Keeps q := State.fput_keeps (State.fput_keeps h2)
  have h4 : s4.Keeps q := State.fput_keeps (State.fput_keeps h3)
  have h6 : s6.Keeps q := State.fput_keeps (State.fput_keeps h4)
  have h7 : s7.Keeps q := State.setQp_keeps h6
  have h8 : s8.Keeps q := by
    refine foldl_keeps h7 (fun _ _ h9 => ?_)
    · extract_lets _ s11
      have h11 : s11.Keeps q := State.takePsn_keeps h9
      exact State.setQp_keeps h11
  have h13 : s13.Keeps q := by
    refine foldl_keeps h8 (fun _ _ h14 => ?_)
    · extract_lets _ s16
      have h16 : s16.Keeps q := State.takePsn_keeps h14
      exact State.setQp_keeps h16
  exact State.portTry_keeps (State.fput_keeps h13)

theorem State.effectHost_keeps {before a v} (h : s.Keeps q) :
    State.Keeps q (State.effectHost s before a v) := by
  unfold State.effectHost
  refine ite_keeps (ite_keeps h (State.portModes_keeps h)) ?_
  · split
    · extract_lets s1
      have h1 : s1.Keeps q := ite_keeps (State.dmaArm_keeps h) h
      exact ite_keeps (ite_keeps (State.dmaStop_keeps h1) h1) h
    · split
      · exact ite_keeps (ite_keeps h (State.portDown_keeps h)) (State.portTry_keeps h)
      · split
        · exact ite_keeps (State.slotReset_keeps h) h
        · exact h

theorem State.deviceReset_keeps {p} (h : s.Keeps q) :
    State.Keeps q (State.deviceReset s p) := by
  unfold State.deviceReset
  extract_lets
  exact keeps_mk h

theorem State.sealClear_keeps {p} (h : s.Keeps q) :
    State.Keeps q (State.sealClear s p) := by
  unfold State.sealClear
  extract_lets s1 s3
  have h1 : s1.Keeps q := State.each_keeps h (fun _ _ h2 => State.rput_keeps h2)
  have h3 : s3.Keeps q := State.each_keeps h1 (fun _ _ h4 => State.rput_keeps h4)
  exact State.each_keeps h3 (fun _ _ h5 => State.rput_keeps h5)

theorem State.effectSec_keeps {p a v} (h : s.Keeps q) :
    State.Keeps q (State.effectSec s p a v) := by
  unfold State.effectSec
  extract_lets _ s2
  have h2 : s2.Keeps q := State.enterSafe_keeps h
  refine ite_keeps (ite_keeps (State.deviceReset_keeps h) h) (ite_keeps (ite_keeps (keeps_sec h rfl) h) (ite_keeps (ite_keeps (keeps_sec h2 rfl) h) (ite_keeps (ite_keeps (State.fput_keeps (State.sealClear_keeps h)) h) ?_)))
  · split
    · exact keeps_sec h rfl
    · exact h

theorem State.effectInd_keeps {a} (h : s.Keeps q) :
    State.Keeps q (State.effectInd s a) := by
  unfold State.effectInd
  split
  · exact ite_keeps (State.engRestart_keeps h) h
  · exact h

theorem State.effect_keeps {before p a v} (h : s.Keeps q) :
    State.Keeps q (State.effect s before p a v) := by
  unfold State.effect
  split
  · exact State.effectSys_keeps h
  · exact State.effectSec_keeps h
  · exact State.effectSec_keeps h
  · exact State.effectHost_keeps h
  · exact State.effectHost_keeps h
  · exact State.effectHost_keeps h
  · exact State.effectHost_keeps h
  · exact State.effectVideo_keeps h
  · exact State.effectVideo_keeps h
  · exact State.effectLamp_keeps h
  · exact State.effectPool_keeps h
  · exact State.effectPool_keeps h
  · exact State.effectInd_keeps h
  · split
    · exact State.engWrite_keeps h
    · exact State.effectTrack_keeps h
  · split
    · exact State.engWrite_keeps h
    · exact State.effectTrack_keeps h
  · exact State.effectMotion_keeps h
  · exact State.claimPort_keeps (State.effectPos_keeps h)
  · exact State.effectMon_keeps h
  · exact h

theorem State.doWrite_keeps {p d a v} (h : s.Keeps q) :
    State.Keeps q (State.doWrite s p d a v) := by
  unfold State.doWrite
  extract_lets s1
  have h1 : s1.Keeps q := State.effect_keeps (State.putReg_keeps h)
  exact ite_keeps (State.clearCauses_keeps h) (ite_keeps (State.selectBank_keeps h) (ite_keeps (State.reclaim_keeps h1) h1))

theorem State.setHeld_keeps {p a w} (h : s.Keeps q) :
    State.Keeps q (State.setHeld s p a w) := by
  unfold State.setHeld
  extract_lets
  exact keeps_mk h

theorem State.partWrite_keeps {p base n i v} (h : s.Keeps q) :
    State.Keeps q (State.partWrite s p base n i v) := by
  unfold State.partWrite
  extract_lets _ s2 _ s5
  have h2 : s2.Keeps q := ite_keeps (State.each_keeps h (fun _ _ h3 => State.setHeld_keeps h3)) h
  have h5 : s5.Keeps q := State.setHeld_keeps h
  refine ite_keeps (State.setHeld_keeps h2) ?_
  · split
    · exact State.setPosition_keeps h5
    · split
      · exact State.doWrite_keeps (State.putReg_keeps h5)
      · exact h5

theorem State.regDo_keeps {p a v} (h : s.Keeps q) :
    State.Keeps q (State.regDo s p a v) := by
  unfold State.regDo
  split
  · exact h
  · extract_lets s1
    have h1 : s1.Keeps q := by
      unfold s1
      split
      · exact State.claimChannel_keeps h
      · exact h
    refine ite_keeps h1 ?_
    · split
      · exact State.partWrite_keeps h1
      · exact State.doWrite_keeps h1

theorem State.dropHeld_keeps {p a} (h : s.Keeps q) :
    State.Keeps q (State.dropHeld s p a) := by
  unfold State.dropHeld
  split
  · exact State.setHeld_keeps h
  · exact h

theorem State.regWrite_keeps {p a v} (h : s.Keeps q) :
    State.Keeps q (State.regWrite s p a v) := by
  unfold State.regWrite
  extract_lets
  exact ite_keeps h (ite_keeps (State.regDo_keeps h) (State.regRefused_keeps (State.dropHeld_keeps h)))

theorem State.nop_keeps {e} (h : s.Keeps q) :
    State.Keeps q (State.nop s e) := by
  unfold State.nop
  exact State.cmdFinish_keeps h

theorem State.ringWrites_keeps {k mask a} (h : s.Keeps q) : State.Keeps q (State.ringWrites s k mask a).1 := by
  induction a generalizing s k mask with
  | nil => exact h
  | cons x r ih =>
    unfold State.ringWrites
    extract_lets _ s1
    have h1 : s1.Keeps q := State.regWrite_keeps h
    split
    · exact h1
    · exact ih h1

theorem State.regWriteCmd_keeps {e} (h : s.Keeps q) :
    State.Keeps q (State.regWriteCmd s e) := by
  unfold State.regWriteCmd
  extract_lets x1
  clear_value (eh1 : x1 = _)
  have h1 : x1.1.Keeps q := by rw [eh1]; exact State.ringWrites_keeps (State.cmdAccept_keeps h)
  exact ite_keeps (State.cmdRefuse_keeps h) (ite_keeps h1 (State.cmdDone_keeps h1))

theorem State.ringReads_keeps {a} (h : s.Keeps q) : State.Keeps q (State.ringReads s a).2 := by
  induction a generalizing s with
  | nil => exact h
  | cons x r ih => exact ih (State.readReg_keeps h)

theorem State.regReadCmd_keeps {e} (h : s.Keeps q) :
    State.Keeps q (State.regReadCmd s e) := by
  unfold State.regReadCmd
  extract_lets _ _ _ x4
  clear_value (eh4 : x4 = _)
  have h4 : x4.2.Keeps q := by rw [eh4]; exact State.ringReads_keeps (State.cmdAccept_keeps h)
  exact ite_keeps (State.cmdRefuse_keeps h) (ite_keeps (State.cmdRefuse_keeps h) (ite_keeps (State.cmdRefuse_keeps h) (ite_keeps (State.cmdDoneEvent_keeps h4) (State.cmdDone_keeps (State.ctlPost_keeps h4)))))

theorem State.tableLoad_keeps {e} (h : s.Keeps q) :
    State.Keeps q (State.tableLoad s e) := by
  unfold State.tableLoad
  refine ite_keeps (State.cmdRefuse_keeps h) ?_
  · split
    · exact State.cmdRefuse_keeps h
    · extract_lets s1 s2 s3 s4 s5
      have h1 : s1.Keeps q := State.cmdAccept_keeps h
      have h2 : s2.Keeps q := State.wput_keeps (State.wput_keeps (State.wput_keeps h1))
      have h3 : s3.Keeps q := State.rput_keeps h2
      have h4 : s4.Keeps q := State.fput_keeps (State.fput_keeps (State.fput_keeps h3))
      have h5 : s5.Keeps q := State.dmaArm_keeps h4
      exact State.useBanks_keeps (State.setCh_keeps h5)

theorem State.indicate_keeps {e} (h : s.Keeps q) :
    State.Keeps q (State.indicate s e) := by
  unfold State.indicate
  extract_lets _ _ _ _ s5 s6 s7 s8 s9
  have h5 : s5.Keeps q := State.fput_keeps (State.fput_keeps (State.fput_keeps h))
  have h6 : s6.Keeps q := State.fput_keeps h5
  have h7 : s7.Keeps q := State.rput_keeps h6
  have h8 : s8.Keeps q := State.fput_keeps (State.fput_keeps (State.fput_keeps h7))
  have h9 : s9.Keeps q := State.each_keeps h8 (fun _ _ h10 => State.rput_keeps h10)
  exact ite_keeps (State.cmdRefuse_keeps h) (ite_keeps (State.cmdRefuse_keeps h) (State.cmdFinish_keeps (State.engRestart_keeps h9)))

theorem State.snapshotCmd_keeps {e} (h : s.Keeps q) :
    State.Keeps q (State.snapshotCmd s e) := by
  unfold State.snapshotCmd
  extract_lets s1
  have h1 : s1.Keeps q := State.cmdAccept_keeps h
  exact keeps_mk h1

theorem State.snapshotNow_keeps (h : s.Keeps q) :
    State.Keeps q (State.snapshotNow s) := by
  unfold State.snapshotNow
  extract_lets _ _ s3 _ s5
  have h3 : s3.Keeps q := State.snapTake_keeps h
  have h5 : s5.Keeps q := keeps_mk h3
  exact foldl_keeps h5 (fun _ _ h6 => State.cmdDone_keeps h6)

theorem State.safeClearCmd_keeps {e} (h : s.Keeps q) :
    State.Keeps q (State.safeClearCmd s e) := by
  unfold State.safeClearCmd
  extract_lets
  exact ite_keeps (State.cmdFinish_keeps h) (keeps_mk h)

theorem State.safeClearEval_keeps (h : s.Keeps q) :
    State.Keeps q (State.safeClearEval s) := by
  unfold State.safeClearEval
  split
  · exact h
  · extract_lets s1 _ s3 s4 _ _ s7
    have h1 : s1.Keeps q := ite_keeps (State.latchCause_keeps h) h
    have h3 : s3.Keeps q := keeps_mk h1
    have h4 : s4.Keeps q := State.clearCauses_keeps (State.clearActive_keeps (State.clearActive_keeps h3))
    have h7 : s7.Keeps q := ite_keeps (State.cmdFinish_keeps (State.leaveSafe_keeps h4)) (State.cmdRefuse_keeps (keeps_mk h4))
    exact State.cmdNext_keeps h7

theorem State.takeEntry_keeps {b bad} (h : s.Keeps q) :
    State.Keeps q (State.takeEntry s b bad) := by
  unfold State.takeEntry
  extract_lets _ s2 s3 _ _ s6
  have h2 : s2.Keeps q := State.fput_keeps (State.wput_keeps h)
  have h3 : s3.Keeps q := State.fputB_keeps h2
  have h6 : s6.Keeps q := keeps_mk h3
  exact ite_keeps (State.raise_keeps h6) h6

theorem State.takeEntries_keeps {a} (h : s.Keeps q) : State.Keeps q (State.takeEntries s a) := by
  induction a generalizing s with
  | nil => exact h
  | cons b r ih =>
    unfold State.takeEntries
    extract_lets _ s1 _
    have h1 : s1.Keeps q := State.bump_keeps h
    exact ite_keeps h (ite_keeps (ih (State.takeEntry_keeps h)) (ite_keeps (State.fput_keeps h1) (ih (State.takeEntry_keeps h1))))

theorem State.readResponse_keeps {q' r} (h : s.Keeps q) :
    State.Keeps q (State.readResponse s q' r) := by
  unfold State.readResponse
  split
  · exact h
  · extract_lets s1 _ s3
    have h1 : s1.Keeps q := State.fput_keeps (State.readsLeft_keeps h)
    have h3 : s3.Keeps q := State.fput_keeps h1
    split
    · exact h1
    · exact h1
    · exact State.creditEvent_keeps (State.creditLine_keeps h1)
    · extract_lets s4 _ s6
      have h4 : s4.Keeps q := State.takeEntries_keeps h3
      have h6 : s6.Keeps q := ite_keeps (State.statusBlock_keeps h4) h4
      exact ite_keeps h3 (State.cmdNext_keeps h6)

theorem State.poll_keeps (h : s.Keeps q) :
    State.Keeps q (State.poll s) := by
  unfold State.poll
  split
  · exact h
  · extract_lets s1
    have h1 : s1.Keeps q := State.postRead_keeps h
    exact ite_keeps (State.bump_keeps h) (ite_keeps h1 (State.fput_keeps (State.postRead_keeps h1)))

theorem State.standbyPoll_keeps (h : s.Keeps q) :
    State.Keeps q (State.standbyPoll s) := by
  unfold State.standbyPoll
  extract_lets
  refine ite_keeps ?_ h
  · split
    · exact ite_keeps (State.postRead_keeps h) h
    · exact h

theorem State.linkLost_keeps {p remote} (h : s.Keeps q) :
    State.Keeps q (State.linkLost s p remote) := by
  unfold State.linkLost
  extract_lets s1
  have h1 : s1.Keeps q := State.fput_keeps (State.fput_keeps h)
  exact ite_keeps (State.setPort_keeps h1) h

theorem State.linkGood_keeps {p} (h : s.Keeps q) :
    State.Keeps q (State.linkGood s p) := by
  unfold State.linkGood
  exact State.fput_keeps (State.fput_keeps (State.fput_keeps h))

theorem State.linkHeld_keeps {p} (h : s.Keeps q) :
    State.Keeps q (State.linkHeld s p) := by
  unfold State.linkHeld
  extract_lets _ s2
  have h2 : s2.Keeps q := State.setPort_keeps h
  exact ite_keeps (ite_keeps (State.portDown_keeps h) (ite_keeps (State.fput_keeps h2) h2)) h

theorem State.linkBack_keeps {p} (h : s.Keeps q) :
    State.Keeps q (State.linkBack s p) := by
  unfold State.linkBack
  extract_lets _ s2
  have h2 : s2.Keeps q := State.setPort_keeps (State.linkGood_keeps h)
  exact ite_keeps (ite_keeps (State.each_keeps h2 (fun _ _ h3 => State.resend_keeps h3)) h2) h

theorem State.linkTrained_keeps {p} (h : s.Keeps q) :
    State.Keeps q (State.linkTrained s p) := by
  unfold State.linkTrained
  extract_lets
  exact ite_keeps (State.setPort_keeps (State.linkGood_keeps h)) h

theorem State.pauseEnd_keeps {p} (h : s.Keeps q) :
    State.Keeps q (State.pauseEnd s p) := by
  unfold State.pauseEnd
  extract_lets _ s2
  have h2 : s2.Keeps q := State.fput_keeps (State.setPort_keeps h)
  exact ite_keeps (foldl_keeps h2 (fun _ _ h3 => State.out_keeps h3)) h

theorem State.pfc_keeps {p prio quanta} (h : s.Keeps q) :
    State.Keeps q (State.pfc s p prio quanta) := by
  unfold State.pfc
  extract_lets
  exact ite_keeps h (ite_keeps (State.pauseEnd_keeps h) (ite_keeps h (State.fput_keeps (State.setPort_keeps h))))

theorem State.pfcStall_keeps {p} (h : s.Keeps q) :
    State.Keeps q (State.pfcStall s p) := by
  unfold State.pfcStall
  extract_lets
  exact ite_keeps (State.portDown_keeps (State.raise_keeps h)) h

theorem State.discardFrame_keeps {p} (h : s.Keeps q) :
    State.Keeps q (State.discardFrame s p) := by
  unfold State.discardFrame
  exact ite_keeps (State.bump_keeps h) h

theorem State.rxFrame_keeps {p f g} (h : s.Keeps q) (hg : ∀ t, State.Keeps q t → State.Keeps q (g t)) :
    State.Keeps q (State.rxFrame s p f g) := by
  unfold State.rxFrame
  extract_lets s1
  have h1 : s1.Keeps q := ite_keeps (State.bump_keeps (State.bump_keeps h)) h
  exact ite_keeps (hg _ h1) (State.discardFrame_keeps h1)

theorem State.rxPacket_keeps {q' f g} (h : s.Keeps q) (hg : ∀ t, State.Keeps q t → State.Keeps q (g t)) :
    State.Keeps q (State.rxPacket s q' f g) := by
  unfold State.rxPacket
  exact State.rxFrame_keeps h (fun _ h1 => ite_keeps (hg _ h1) (State.discardFrame_keeps h1))

theorem State.arp_keeps {p target mac ip} (h : s.Keeps q) :
    State.Keeps q (State.arp s p target mac ip) := by
  unfold State.arp
  exact ite_keeps (State.emit_keeps h) (State.discardFrame_keeps h)

theorem State.neighbour_keeps {p target mac ip} (h : s.Keeps q) :
    State.Keeps q (State.neighbour s p target mac ip) := by
  unfold State.neighbour
  exact ite_keeps (State.emit_keeps h) (State.discardFrame_keeps h)

theorem State.nak_keeps {q' c} (h : s.Keeps q) :
    State.Keeps q (State.nak s q' c) := by
  unfold State.nak
  refine ite_keeps h ?_
  · split
    · exact State.qpFailed_keeps (State.bump_keeps h)
    · exact State.qpError_keeps h
    · exact State.qpError_keeps h
    · exact State.qpError_keeps h
    · exact State.qpError_keeps h

theorem State.ackTimeout_keeps {q'} (h : s.Keeps q) :
    State.Keeps q (State.ackTimeout s q') := by
  unfold State.ackTimeout
  extract_lets s1
  have h1 : s1.Keeps q := ite_keeps (State.readsShow_keeps h) h
  exact ite_keeps (State.qpFailed_keeps (State.bump_keeps h1)) h1

theorem State.cnp_keeps {q'} (h : s.Keeps q) :
    State.Keeps q (State.cnp s q') := by
  unfold State.cnp
  extract_lets s1 _ _ _ _ s6
  have h1 : s1.Keeps q := State.bump_keeps h
  have h6 : s6.Keeps q := State.fput_keeps (State.fput_keeps h1)
  exact ite_keeps h (ite_keeps h1 (State.setQp_keeps h6))

theorem State.alphaDecay_keeps {q'} (h : s.Keeps q) :
    State.Keeps q (State.alphaDecay s q') := by
  unfold State.alphaDecay
  extract_lets
  exact ite_keeps (State.setQp_keeps h) h

theorem State.rateRise_keeps {q'} (h : s.Keeps q) :
    State.Keeps q (State.rateRise s q') := by
  unfold State.rateRise
  extract_lets
  exact ite_keeps (State.fput_keeps (State.fput_keeps (State.setQp_keeps h))) h

theorem State.idle_keeps (h : s.Keeps q) :
    State.Keeps q (State.idle s) := by
  unfold State.idle
  extract_lets
  exact ite_keeps h (keeps_mk h)

theorem State.live_keeps {f} (h : s.Keeps q) (hf : ∀ t, State.Keeps q t → State.Keeps q (f t)) :
    State.Keeps q (State.live s f) := by
  unfold State.live
  exact ite_keeps h (hf _ h)

theorem State.ctl_keeps {f} (h : s.Keeps q) (hf : ∀ t, State.Keeps q t → State.Keeps q (f t)) :
    State.Keeps q (State.ctl s f) := by
  unfold State.ctl
  exact ite_keeps h (hf _ h)

theorem State.access_keeps {p f} (h : s.Keeps q) (hf : ∀ t, State.Keeps q t → State.Keeps q (f t)) :
    State.Keeps q (State.access s p f) := by
  unfold State.access
  exact ite_keeps h (State.ctl_keeps h (fun _ h1 => hf _ h1))

theorem State.pathWrite_keeps {p a v} (h : s.Keeps q) :
    State.Keeps q (State.pathWrite s p a v) := by
  unfold State.pathWrite
  exact State.access_keeps h (fun _ h1 => State.regWrite_keeps h1)

theorem State.pathRead_keeps {p a} (h : s.Keeps q) :
    State.Keeps q (State.pathRead s p a) := by
  unfold State.pathRead
  exact State.access_keeps h (fun _ h1 => State.out_keeps (State.readReg_keeps h1))

theorem State.ringCommand_keeps {op e f} (h : s.Keeps q) (hf : ∀ t, State.Keeps q t → State.Keeps q (f t)) :
    State.Keeps q (State.ringCommand s op e f) := by
  unfold State.ringCommand
  exact State.ctl_keeps h (fun _ h1 => State.command_keeps h1 (fun _ h2 => hf _ h2))

theorem State.ringWork_keeps {op e f} (h : s.Keeps q) (hf : ∀ t, State.Keeps q t → State.Keeps q (f t)) :
    State.Keeps q (State.ringWork s op e f) := by
  unfold State.ringWork
  exact State.ringCommand_keeps h (fun _ h1 => State.notSafe_keeps h1 (fun _ h2 => hf _ h2))

theorem State.heartbeat_keeps {ack} (h : s.Keeps q) :
    State.Keeps q (State.heartbeat s ack) := by
  unfold State.heartbeat
  exact State.each_keeps h (fun _ _ h1 => State.islandBack_keeps h1)

theorem State.islandGone_keeps {i kind} (h : s.Keeps q) :
    State.Keeps q (State.islandGone s i kind) := by
  unfold State.islandGone
  exact ite_keeps (State.islandLost_keeps h) h

theorem State.controlLost_keeps {clock} (h : s.Keeps q) :
    State.Keeps q (State.controlLost s clock) := by
  unfold State.controlLost
  extract_lets s1 _ s3
  have h1 : s1.Keeps q := State.setAlive_keeps h
  have h3 : s3.Keeps q := keeps_mk h1
  exact ite_keeps h (State.stopClocks_keeps (State.trackSafe_keeps (State.abandonPulses_keeps (State.safeOutputs_keeps h3))))

theorem State.controlBack_keeps (h : s.Keeps q) :
    State.Keeps q (State.controlBack s) := by
  unfold State.controlBack
  extract_lets _ s2 s3 s4 s5
  have h2 : s2.Keeps q := keeps_mk h
  have h3 : s3.Keeps q := State.latchCause_keeps (State.setAlive_keeps h2)
  have h4 : s4.Keeps q := State.raise_keeps h3
  have h5 : s5.Keeps q := State.levelCauses_keeps (State.safeEntry_keeps (State.fput_keeps h4))
  exact ite_keeps h (ite_keeps (State.clearActive_keeps h5) h5)

theorem State.holdLong_keeps (h : s.Keeps q) :
    State.Keeps q (State.holdLong s) := by
  unfold State.holdLong
  extract_lets _ s2
  have h2 : s2.Keeps q := keeps_mk h
  exact ite_keeps (State.raise_keeps h2) h

theorem State.snapshotTake_keeps (h : s.Keeps q) :
    State.Keeps q (State.snapshotTake s) := by
  unfold State.snapshotTake
  exact ite_keeps (State.snapshotNow_keeps h) h

theorem State.timeCorrection_keeps (h : s.Keeps q) :
    State.Keeps q (State.timeCorrection s) := by
  unfold State.timeCorrection
  extract_lets
  exact keeps_mk h

theorem State.tsyncEdge_keeps {rising heldNs} (h : s.Keeps q) :
    State.Keeps q (State.tsyncEdge s rising heldNs) := by
  unfold State.tsyncEdge
  extract_lets _ _ s3
  have h3 : s3.Keeps q := keeps_mk h
  exact ite_keeps h (ite_keeps (State.bump_keeps h) (State.raise_keeps (State.wput_keeps h3)))

theorem State.safeNLow_keeps (h : s.Keeps q) :
    State.Keeps q (State.safeNLow s) := by
  unfold State.safeNLow
  extract_lets _ s2
  have h2 : s2.Keeps q := keeps_mk h
  exact ite_keeps h2 (State.enterSafe_keeps h2)

theorem State.safeNRelease_keeps (h : s.Keeps q) :
    State.Keeps q (State.safeNRelease s) := by
  unfold State.safeNRelease
  extract_lets
  exact State.clearActive_keeps (keeps_mk h)

theorem State.refclkFault_keeps (h : s.Keeps q) :
    State.Keeps q (State.refclkFault s) := by
  unfold State.refclkFault
  extract_lets
  exact State.ctl_keeps (keeps_mk h) (fun _ h2 => State.enterSafe_keeps h2)

theorem State.refclkBack_keeps (h : s.Keeps q) :
    State.Keeps q (State.refclkBack s) := by
  unfold State.refclkBack
  extract_lets
  exact ite_keeps (State.ctl_keeps (keeps_mk h) (fun _ h2 => State.clearActive_keeps h2)) h

theorem State.supplyFault_keeps {r low} (h : s.Keeps q) :
    State.Keeps q (State.supplyFault s r low) := by
  unfold State.supplyFault
  exact State.ctl_keeps (State.railOut_keeps h) (fun _ h1 => State.enterSafe_keeps h1)

theorem State.supplyBack_keeps {r} (h : s.Keeps q) :
    State.Keeps q (State.supplyBack s r) := by
  unfold State.supplyBack
  extract_lets _ s2
  have h2 : s2.Keeps q := keeps_mk h
  exact ite_keeps (ite_keeps (State.ctl_keeps (keeps_mk h2) (fun _ h4 => State.clearActive_keeps h4)) h2) h

theorem State.thermFault_keeps (h : s.Keeps q) :
    State.Keeps q (State.thermFault s) := by
  unfold State.thermFault
  extract_lets
  exact State.enterSafe_keeps (keeps_mk h)

theorem State.thermClear_keeps (h : s.Keeps q) :
    State.Keeps q (State.thermClear s) := by
  unfold State.thermClear
  extract_lets
  exact State.clearActive_keeps (keeps_mk h)

theorem State.portsDown_keeps (h : s.Keeps q) :
    State.Keeps q (State.portsDown s) := by
  unfold State.portsDown
  exact ite_keeps (State.enterSafe_keeps h) h

theorem State.lampbusTimeout_keeps (h : s.Keeps q) :
    State.Keeps q (State.lampbusTimeout s) := by
  unfold State.lampbusTimeout
  exact ite_keeps (State.enterSafe_keeps h) h

theorem State.allOffRepeat_keeps (h : s.Keeps q) :
    State.Keeps q (State.allOffRepeat s) := by
  unfold State.allOffRepeat
  refine ite_keeps (State.allOffDone_keeps (State.each_keeps h (fun _ _ h1 => ?_))) h
  · extract_lets
    exact ite_keeps (State.setLbus_keeps h1) (State.allOffOn_keeps h1)

theorem State.commitSlot_keeps (h : s.Keeps q) :
    State.Keeps q (State.commitSlot s) := by
  unfold State.commitSlot
  extract_lets
  exact ite_keeps (ite_keeps (State.lampCommit_keeps h) (keeps_mk h)) h

theorem State.strobeRise_keeps (h : s.Keeps q) :
    State.Keeps q (State.strobeRise s) := by
  unfold State.strobeRise
  split
  · exact h
  · extract_lets
    exact keeps_mk h

theorem State.strobeFall_keeps {c} (h : s.Keeps q) :
    State.Keeps q (State.strobeFall s c) := by
  unfold State.strobeFall
  extract_lets
  exact keeps_mk h

theorem State.lampEnOff_keeps (h : s.Keeps q) :
    State.Keeps q (State.lampEnOff s) := by
  unfold State.lampEnOff
  extract_lets
  exact ite_keeps (State.setLampEn_keeps (keeps_mk h)) h

theorem State.pingOn_keeps {z b} (h : s.Keeps q) :
    State.Keeps q (State.pingOn s z b) := by
  unfold State.pingOn
  extract_lets
  exact ite_keeps h (State.setLbus_keeps h)

theorem State.zonePing_keeps {z} (h : s.Keeps q) :
    State.Keeps q (State.zonePing s z) := by
  unfold State.zonePing
  exact ite_keeps (State.each_keeps h (fun _ _ h1 => State.pingOn_keeps h1)) h

theorem State.busPing_keeps {b} (h : s.Keeps q) :
    State.Keeps q (State.busPing s b) := by
  unfold State.busPing
  refine ite_keeps ?_ h
  · split
    · exact State.pingOn_keeps h
    · exact State.pingOn_keeps h
    · exact h

theorem State.blink_keeps (h : s.Keeps q) :
    State.Keeps q (State.blink s) := by
  unfold State.blink
  extract_lets
  exact ite_keeps (keeps_mk h) h

theorem State.moveCmd_keeps {e} (h : s.Keeps q) :
    State.Keeps q (State.moveCmd s e) := by
  unfold State.moveCmd
  extract_lets
  exact ite_keeps (State.cmdRefuse_keeps h) (State.moveOrQueue_keeps (State.cmdFinish_keeps h))

theorem State.fltFall_keeps {a} (h : s.Keeps q) :
    State.Keeps q (State.fltFall s a) := by
  unfold State.fltFall
  exact State.fput_keeps h

theorem State.fltRise_keeps {a} (h : s.Keeps q) :
    State.Keeps q (State.fltRise s a) := by
  unfold State.fltRise
  extract_lets _ s2
  have h2 : s2.Keeps q := State.setAxis_keeps (State.fput_keeps h)
  exact ite_keeps (State.fput_keeps h2) h2

theorem State.axisFault_keeps {a} (h : s.Keeps q) :
    State.Keeps q (State.axisFault s a) := by
  unfold State.axisFault
  extract_lets _ s2 _ s4 s5
  have h2 : s2.Keeps q := ite_keeps (State.stopAxes_keeps h) h
  have h4 : s4.Keeps q := State.raise_keeps (State.setAxis_keeps h2)
  have h5 : s5.Keeps q := ite_keeps (State.calAxis_keeps h4) h4
  exact ite_keeps h (ite_keeps (State.feedStop_keeps h5) h5)

theorem State.holdDrop_keeps {a} (h : s.Keeps q) :
    State.Keeps q (State.holdDrop s a) := by
  unfold State.holdDrop
  exact ite_keeps h (State.fput_keeps h)

theorem State.startDelay_keeps {a} (h : s.Keeps q) :
    State.Keeps q (State.startDelay s a) := by
  unfold State.startDelay
  extract_lets
  exact State.setAxis_keeps h

theorem State.phomeRise_keeps {a} (h : s.Keeps q) :
    State.Keeps q (State.phomeRise s a) := by
  unfold State.phomeRise
  extract_lets s1
  have h1 : s1.Keeps q := State.fput_keeps h
  split
  · exact State.setAxis_keeps (State.fput_keeps h1)
  · exact h1

theorem State.phaseFail_keeps {a} (h : s.Keeps q) :
    State.Keeps q (State.phaseFail s a) := by
  unfold State.phaseFail
  split
  · extract_lets _ s2 s3
    have h2 : s2.Keeps q := State.fput_keeps (State.setAxis_keeps h)
    have h3 : s3.Keeps q := State.raise_keeps (State.fput_keeps h2)
    exact State.fput_keeps (State.fput_keeps (State.fput_keeps h3))
  · exact h

theorem State.phaseRestored_keeps {a} (h : s.Keeps q) :
    State.Keeps q (State.phaseRestored s a) := by
  unfold State.phaseRestored
  split
  · extract_lets _ s2
    have h2 : s2.Keeps q := State.fput_keeps (State.setAxis_keeps h)
    exact State.advanceTry_keeps (State.raise_keeps h2)
  · exact h

theorem State.evstop_keeps {g} (h : s.Keeps q) :
    State.Keeps q (State.evstop s g) := by
  unfold State.evstop
  refine State.each_keeps h (fun _ _ h1 => ?_)
  · split
    · extract_lets s2
      have h2 : s2.Keeps q := State.wput48_keeps h1
      exact ite_keeps (State.halt_keeps (State.setAxis_keeps h2)) h1
    · exact h1

theorem State.eviEdge_keeps {g rising} (h : s.Keeps q) :
    State.Keeps q (State.eviEdge s g rising) := by
  unfold State.eviEdge
  extract_lets _ _ s3 s4 s5
  have h3 : s3.Keeps q := keeps_mk h
  have h4 : s4.Keeps q := State.evstop_keeps (State.trackEvi_keeps (State.bandEvi_keeps h3))
  have h5 : s5.Keeps q := ite_keeps (State.monTriggerBy_keeps h4) h4
  exact ite_keeps h3 (ite_keeps (State.lineTrigger_keeps h5) h5)

theorem State.bringFrame_keeps {k rd reg data answer replies} (h : s.Keeps q) :
    State.Keeps q (State.bringFrame s k rd reg data answer replies) := by
  unfold State.bringFrame
  extract_lets _ _ _ s4 s6
  have h4 : s4.Keeps q := State.each_keeps h (fun _ _ h5 => State.out_keeps h5)
  have h6 : s6.Keeps q := State.fput_keeps (State.fput_keeps h4)
  split
  · exact ite_keeps (State.fput_keeps h6) h6
  · exact State.raise_keeps h6
  · exact State.scbGiveUp_keeps h6

theorem State.bringId_keeps {k b} (h : s.Keeps q) :
    State.Keeps q (State.bringId s k b) := by
  unfold State.bringId
  extract_lets s1 s2 s3
  have h1 : s1.Keeps q := State.wput_keeps h
  have h2 : s2.Keeps q := State.fput_keeps h1
  have h3 : s3.Keeps q := State.each_keeps h2 (fun _ _ h4 => ite_keeps (State.bringFrame_keeps h4) h4)
  exact ite_keeps h3 (State.raise_keeps h3)

theorem State.bringRegs_keeps {bs} (h : s.Keeps q) :
    State.Keeps q (State.bringRegs s bs) := by
  unfold State.bringRegs
  refine State.each_keeps h (fun _ _ h1 => ?_)
  · extract_lets
    exact State.each_keeps h1 (fun _ _ h3 => State.bringFrame_keeps h3)

theorem State.bringCables_keeps {b} (h : s.Keeps q) :
    State.Keeps q (State.bringCables s b) := by
  unfold State.bringCables
  extract_lets _ s2
  have h2 : s2.Keeps q := State.bringFrame_keeps h
  exact ite_keeps (ite_keeps h2 (State.each_keeps (State.showLoops_keeps h2) (fun _ _ h3 => State.fput_keeps h3))) h

theorem State.bringup_keeps {bs} (h : s.Keeps q) :
    State.Keeps q (State.bringup s bs) := by
  unfold State.bringup
  extract_lets s1 s2 s4
  have h1 : s1.Keeps q := State.fput_keeps (State.fput_keeps h)
  have h2 : s2.Keeps q := State.each_keeps h1 (fun _ _ h3 => State.bringId_keeps h3)
  have h4 : s4.Keeps q := foldl_keeps (State.bringRegs_keeps h2) (fun _ _ h5 => State.bringCables_keeps h5)
  exact ite_keeps h (ite_keeps (State.trainBegin_keeps h4) (keeps_mk h4))

theorem State.trainDone_keeps {taps} (h : s.Keeps q) :
    State.Keeps q (State.trainDone s taps) := by
  unfold State.trainDone
  extract_lets s1
  have h1 : s1.Keeps q := State.trainEnd_keeps h
  exact ite_keeps h (ite_keeps h1 (keeps_mk h1))

theorem State.startupComplete_keeps (h : s.Keeps q) :
    State.Keeps q (State.startupComplete s) := by
  unfold State.startupComplete
  extract_lets _ s2
  have h2 : s2.Keeps q := State.fput_keeps (State.fput_keeps h)
  exact ite_keeps (ite_keeps h2 (keeps_mk h2)) h

end Sys2Proof.Machine
end

