-- ==== Sys2Proof/Laws/KeepsBoot.lean ====
section
/-!
SUPPORT. Every function of `BootOps`, `VideoOps`, `LinkOps`, `SenseOps`, `TwbOps` keeps the state sound, the queue and the fuses.
-/

namespace Sys2Proof.Machine

variable {q : List Instr × Fuses} {s : State}

theorem State.causeReset_keeps {powerOn} (h : s.Keeps q) :
    State.Keeps q (State.causeReset s powerOn) := by
  unfold State.causeReset
  extract_lets
  exact keeps_mk h

theorem State.afterReset_keeps {brownout powerOn} (h : s.Keeps q) : State.Keeps q (State.afterReset s brownout powerOn) :=
  ⟨⟨⟨.nil, by simp [State.afterReset, State.reset]⟩, ⟨.nil, by simp [State.afterReset, State.reset]⟩, by simp [State.afterReset, State.reset, EvqSt.init, EvqSt.taken]⟩, h.rest⟩

theorem State.keepDebug_keeps {r} (h : r.Keeps q) : State.Keeps q (State.keepDebug s r) := by
  unfold State.keepDebug
  exact ite_keeps (State.fput_keeps (State.fput_keeps (State.fput_keeps (State.latchCause_keeps h)))) h

theorem State.resetApply_keeps (h : s.Keeps q) :
    State.Keeps q (State.resetApply s) := by
  unfold State.resetApply
  split
  · exact h
  · exact State.afterReset_keeps h
  · exact State.keepDebug_keeps (State.afterReset_keeps h)

theorem State.brownoutHold_keeps {io} (h : s.Keeps q) :
    State.Keeps q (State.brownoutHold s io) := by
  unfold State.brownoutHold
  exact State.afterReset_keeps (State.railOut_keeps h)

theorem State.brownoutRelease_keeps (h : s.Keeps q) :
    State.Keeps q (State.brownoutRelease s) := by
  unfold State.brownoutRelease
  extract_lets
  exact keeps_mk h

theorem State.resetRelease_keeps {vsel addr refUs} (h : s.Keeps q) : State.Keeps q (State.resetRelease s vsel addr refUs) := by
  unfold State.resetRelease
  extract_lets _ _ _ s4 s5
  have h4 : s4.Keeps q := ⟨⟨h.sound.mem, h.sound.regs, h.sound.staging⟩, h.rest⟩
  exact ite_keeps h (State.levelCauses_keeps (State.fput_keeps (State.fput_keeps (State.fputB_keeps h4))))

theorem State.flashRead_keeps {addr len} (h : s.Keeps q) :
    State.Keeps q (State.flashRead s addr len) := by
  unfold State.flashRead
  exact State.out_keeps h

theorem State.askBurst_keeps {i} (h : s.Keeps q) :
    State.Keeps q (State.askBurst s i) := by
  unfold State.askBurst
  refine ite_keeps (State.out_keeps h) (ite_keeps (State.flashRead_keeps h) ?_)
  · split
    · exact State.flashRead_keeps h
    · exact h

theorem State.askTo_keeps {n} (h : s.Keeps q) :
    State.Keeps q (State.askTo s n) := by
  unfold State.askTo
  extract_lets _ s2 s3
  have h2 : s2.Keeps q := ite_keeps (State.out_keeps (State.out_keeps h)) h
  have h3 : s3.Keeps q := State.each_keeps h2 (fun _ _ h4 => State.askBurst_keeps h4)
  exact keeps_mk h3

theorem State.flashReady_keeps {dens prof} (h : s.Keeps q) :
    State.Keeps q (State.flashReady s dens prof) := by
  unfold State.flashReady
  extract_lets s1 _ s3 s4 _ s6
  have h1 : s1.Keeps q := State.askTo_keeps h
  have h3 : s3.Keeps q := keeps_mk h1
  have h4 : s4.Keeps q := State.fput_keeps h3
  have h6 : s6.Keeps q := keeps_mk h4
  refine ite_keeps h ?_
  · split
    · extract_lets s7 _ s10
      have h7 : s7.Keeps q := foldl_keeps h4 (fun _ _ h8 => State.out_keeps h8)
      have h10 : s10.Keeps q := keeps_mk h7
      exact State.fput_keeps (State.fput_keeps (State.fput_keeps h10))
    · exact State.fput_keeps (State.fput_keeps (State.fput_keeps h6))

theorem State.flashEnd_keeps (h : s.Keeps q) :
    State.Keeps q (State.flashEnd s) := by
  unfold State.flashEnd
  extract_lets s1
  have h1 : s1.Keeps q := State.out_keeps h
  exact keeps_mk h1

theorem State.loadStops_keeps (h : s.Keeps q) :
    State.Keeps q (State.loadStops s) := by
  unfold State.loadStops
  exact State.fput_keeps (State.flashEnd_keeps h)

theorem State.copyBad_keeps {c cause sec} (h : s.Keeps q) :
    State.Keeps q (State.copyBad s c cause sec) := by
  unfold State.copyBad
  exact State.raise_keeps (State.fput_keeps h)

theorem State.stopSafe_keeps {c} (h : s.Keeps q) :
    State.Keeps q (State.stopSafe s c) := by
  unfold State.stopSafe
  exact ite_keeps (State.safeOutputs_keeps (State.enterSafe_keeps (State.loadStops_keeps h))) (State.enterSafe_keeps (State.loadStops_keeps h))

theorem State.nextCopy_keeps {a} (h : s.Keeps q) :
    State.Keeps q (State.nextCopy s a) := by
  unfold State.nextCopy
  split
  · exact State.stopSafe_keeps h
  · extract_lets
    exact State.fput_keeps (keeps_mk h)

theorem State.headersRead_keeps {a b} (h : s.Keeps q) :
    State.Keeps q (State.headersRead s a b) := by
  unfold State.headersRead
  extract_lets s1 _ _ _ _ _ s7 s8 s9
  have h1 : s1.Keeps q := State.askTo_keeps h
  have h7 : s7.Keeps q := keeps_mk h1
  have h8 : s8.Keeps q := ite_keeps h7 (State.copyBad_keeps h7)
  have h9 : s9.Keeps q := ite_keeps h8 (State.copyBad_keeps h8)
  exact ite_keeps h (State.nextCopy_keeps h9)

theorem State.copyFails_keeps {cause sec} (h : s.Keeps q) :
    State.Keeps q (State.copyFails s cause sec) := by
  unfold State.copyFails
  split
  · exact h
  · exact State.nextCopy_keeps (State.copyBad_keeps h)

theorem State.burstFail_keeps {burst} (h : s.Keeps q) : State.Keeps q (State.burstFail s burst) := by
  unfold State.burstFail
  extract_lets _ _ _ i s1 _ set
  have h1 : s1.Keeps q := State.askTo_keeps h
  have hs : ∀ r, (set r).Keeps q := fun r => keeps_mk h1
  exact ite_keeps h (ite_keeps (State.askBurst_keeps (hs _)) (ite_keeps (State.askBurst_keeps (State.fput_keeps (hs 0))) (ite_keeps
    (State.nextCopy_keeps (State.copyBad_keeps (State.copyBad_keeps h1))) (State.copyFails_keeps h1))))

theorem State.tablesStored_keeps {b} (h : s.Keeps q) :
    State.Keeps q (State.tablesStored s b) := by
  unfold State.tablesStored
  exact foldl_keeps h (fun _ _ h1 => State.store_keeps h1)

theorem State.tablesZeroed_keeps {b} (h : s.Keeps q) :
    State.Keeps q (State.tablesZeroed s b) := by
  unfold State.tablesZeroed
  exact foldl_keeps h (fun _ _ h1 => State.store_keeps h1)

theorem State.applyQp_keeps {b} (h : s.Keeps q) :
    State.Keeps q (State.applyQp s b) := by
  unfold State.applyQp
  extract_lets _ s2 s3 s4 s5
  have h2 : s2.Keeps q := keeps_sec h rfl
  have h3 : s3.Keeps q := State.fput_keeps (State.fput_keeps (State.fput_keeps h2))
  have h4 : s4.Keeps q := State.fput_keeps (State.fput_keeps h3)
  have h5 : s5.Keeps q := by
    refine State.each_keeps h4 (fun _ _ h6 => ?_)
    · extract_lets _ s8 s10 s11 s12 s13
      have h8 : s8.Keeps q := State.each_keeps h6 (fun _ _ h9 => State.fputB_keeps h9)
      have h10 : s10.Keeps q := State.fputB_keeps (State.fputB_keeps h8)
      have h11 : s11.Keeps q := State.fput_keeps (State.fput_keeps h10)
      have h12 : s12.Keeps q := State.fput_keeps (State.fput_keeps h11)
      have h13 : s13.Keeps q := State.fput_keeps h12
      exact ite_keeps (State.fput_keeps (State.fput_keeps (State.fput_keeps h13))) h13
  exact State.fput_keeps h5

theorem State.applyRegs_keeps {l p} (h : s.Keeps q) :
    State.Keeps q (State.applyRegs s l p) := by
  unfold State.applyRegs
  extract_lets s1
  have h1 : s1.Keeps q := ite_keeps (State.fput_keeps (State.fput_keeps h)) h
  refine foldl_keeps h1 (fun _ _ h2 => ?_)
  · split
    · exact State.rput_keeps h2
    · exact h2

theorem State.applyTable_keeps {x b} (h : s.Keeps q) :
    State.Keeps q (State.applyTable s x b) := by
  unfold State.applyTable
  extract_lets s1
  have h1 : s1.Keeps q := State.outerStore_keeps h
  exact ite_keeps (State.store_keeps h1) h1

theorem State.startAxes_keeps (h : s.Keeps q) :
    State.Keeps q (State.startAxes s) := by
  unfold State.startAxes
  refine State.feedUnc_keeps (State.each_keeps h (fun _ _ h1 => ?_))
  · extract_lets s2
    have h2 : s2.Keeps q := State.fput_keeps (State.setAxis_keeps h1)
    exact ite_keeps (State.enableAxis_keeps h2) h2

theorem State.startLamps_keeps (h : s.Keeps q) :
    State.Keeps q (State.startLamps s) := by
  unfold State.startLamps
  extract_lets s1
  have h1 : s1.Keeps q := State.each_keeps h (fun _ _ h2 => State.busEnable_keeps h2)
  exact State.each_keeps h1 (fun _ _ h3 => ite_keeps (State.pingOn_keeps h3) (ite_keeps (State.pingOn_keeps h3) (State.raise_keeps (State.fput_keeps h3))))

theorem State.startVideo_keeps (h : s.Keeps q) :
    State.Keeps q (State.startVideo s) := by
  unfold State.startVideo
  extract_lets s1
  have h1 : s1.Keeps q := State.each_keeps h (fun _ _ h2 => ite_keeps (State.groupStartup_keeps (State.setAlive_keeps h2)) (State.groupDown_keeps (State.setAlive_keeps h2)))
  exact State.groupStartup_keeps h1

theorem State.startSense_keeps {shading} (h : s.Keeps q) :
    State.Keeps q (State.startSense s shading) := by
  unfold State.startSense
  extract_lets s1 _ s4
  have h1 : s1.Keeps q := State.each_keeps h (fun _ _ h2 => State.loadCoef_keeps h2)
  have h4 : s4.Keeps q := keeps_mk h1
  exact ite_keeps (State.checkStart_keeps (keeps_mk h4)) h4

theorem State.startEngines_keeps {t} (h : s.Keeps q) :
    State.Keeps q (State.startEngines s t) := by
  unfold State.startEngines
  refine foldl_keeps h (fun _ _ h1 => ?_)
  · split
    · exact State.engWrite_keeps h1
    · exact h1

theorem State.showCopy_keeps {c b} (h : s.Keeps q) :
    State.Keeps q (State.showCopy s c b) := by
  unfold State.showCopy
  extract_lets s1
  have h1 : s1.Keeps q := State.fput_keeps (State.fput_keeps (State.fput_keeps h))
  exact State.fput_keeps (State.wput_keeps (State.fput_keeps h1))

theorem State.applyImage_keeps {c b l claims} (h : s.Keeps q) :
    State.Keeps q (State.applyImage s c b l claims) := by
  unfold State.applyImage
  extract_lets _ s2 _ s4 s5 s6 s7 s9 s10 s11
  have h2 : s2.Keeps q := State.applyRegs_keeps (State.fput_keeps (State.showCopy_keeps h))
  have h4 : s4.Keeps q := keeps_mk h2
  have h5 : s5.Keeps q := ite_keeps (State.fput_keeps h4) h4
  have h6 : s6.Keeps q := State.applyQp_keeps h5
  have h7 : s7.Keeps q := foldl_keeps h6 (fun _ _ h8 => State.applyTable_keeps h8)
  have h9 : s9.Keeps q := State.raise_keeps h7
  have h10 : s10.Keeps q := State.fput_keeps (State.portModes_keeps (State.flashEnd_keeps h9))
  have h11 : s11.Keeps q := State.startEngines_keeps (State.startLamps_keeps (State.startAxes_keeps h10))
  exact State.startVideo_keeps (State.startSense_keeps h11)

theorem State.applyConflict_keeps {c b l k} (h : s.Keeps q) :
    State.Keeps q (State.applyConflict s c b l k) := by
  unfold State.applyConflict
  extract_lets s1 s2 s3 s4 s5
  have h1 : s1.Keeps q := State.applyRegs_keeps (State.fput_keeps (State.showCopy_keeps h))
  have h2 : s2.Keeps q := State.portModes_keeps (State.applyQp_keeps h1)
  have h3 : s3.Keeps q := State.fput_keeps (State.fput_keeps (State.fput_keeps h2))
  have h4 : s4.Keeps q := State.fput_keeps (State.fput_keeps h3)
  have h5 : s5.Keeps q := State.raise_keeps h4
  exact State.stopSafe_keeps h5

theorem State.copyVerified_keeps {b readOk} (h : s.Keeps q) :
    State.Keeps q (State.copyVerified s b readOk) := by
  unfold State.copyVerified
  split
  · exact h
  · extract_lets s1 s2
    have h1 : s1.Keeps q := State.askTo_keeps h
    have h2 : s2.Keeps q := State.tablesStored_keeps h1
    split
    · exact State.copyFails_keeps (ite_keeps (State.tablesZeroed_keeps h1) h1)
    · exact State.safeOutputs_keeps (State.loadStops_keeps (State.tablesStored_keeps h1))
    · extract_lets
      split
      · exact State.applyConflict_keeps h2
      · exact State.applyImage_keeps h2

theorem State.bankChecked_keeps {b} (h : s.Keeps q) :
    State.Keeps q (State.bankChecked s b) := by
  unfold State.bankChecked
  extract_lets _ s2 _ s4
  have h2 : s2.Keeps q := State.checkEnd_keeps h
  have h4 : s4.Keeps q := keeps_mk h2
  exact ite_keeps h (ite_keeps (ite_keeps (State.selectBank_keeps h4) h4) h2)

theorem State.fuseDone_keeps {ok} (h : s.Keeps q) :
    ∃ f, State.Keeps (q.1, f) (State.fuseDone s ok) := by
  unfold State.fuseDone
  split
  · exact ⟨q.2, h⟩
  · extract_lets _ s2 _ x
    have h2 : s2.Keeps q := keeps_sec h rfl
    clear_value s2 x
    split
    · exact ⟨q.2, State.fput_keeps h2⟩
    · exact ⟨x.fuses, State.fput_keeps ⟨⟨h2.sound.mem, h2.sound.regs, h2.sound.staging⟩, h2.rest.1, rfl⟩⟩

theorem State.sealDone_keeps (h : s.Keeps q) :
    State.Keeps q (State.sealDone s) := by
  unfold State.sealDone
  extract_lets _ _ _ _ _ s6 s7 s9 s11
  have h6 : s6.Keeps q := keeps_mk h
  have h7 : s7.Keeps q := State.each_keeps h6 (fun _ _ h8 => State.rput_keeps h8)
  have h9 : s9.Keeps q := State.each_keeps h7 (fun _ _ h10 => State.rput_keeps h10)
  have h11 : s11.Keeps q := State.each_keeps h9 (fun _ _ h12 => State.rput_keeps h12)
  exact ite_keeps h (State.fput_keeps (State.fput_keeps h11))

theorem State.zeroise_keeps (h : s.Keeps q) :
    State.Keeps q (State.zeroise s) := by
  unfold State.zeroise
  extract_lets _ s2 _ s4 s5 s7
  have h2 : s2.Keeps q := State.sealClear_keeps h
  clear_value s2
  have h4 : s4.Keeps q := keeps_sec h2 rfl
  have h5 : s5.Keeps q := State.each_keeps h4 (fun _ _ h6 => State.slotError_keeps h6)
  have h7 : s7.Keeps q := State.each_keeps h5 (fun _ _ h8 => State.fput_keeps h8)
  exact State.each_keeps h7 (fun _ _ h9 => State.portDown_keeps h9)

theorem State.zeroiseKeys_keeps (h : s.Keeps q) :
    State.Keeps q (State.zeroiseKeys s) := by
  unfold State.zeroiseKeys
  exact ite_keeps (State.zeroise_keeps h) h

theorem State.loopBroken_keeps {k t leg ua sample} (h : s.Keeps q) :
    State.Keeps q (State.loopBroken s k t leg ua sample) := by
  unfold State.loopBroken
  extract_lets
  exact ite_keeps h (State.fallbackDue_keeps (State.markBroken_keeps h))

theorem State.switchCheck_keeps {k} (h : s.Keeps q) :
    State.Keeps q (State.switchCheck s k) := by
  unfold State.switchCheck
  split
  · exact h
  · extract_lets
    exact ite_keeps (keeps_mk h) (ite_keeps h (State.voltDone_keeps h))

theorem State.scbSettle_keeps {s0} (h : s.Keeps q) : State.Keeps q (State.scbSettle s0 s) := by
  unfold State.scbSettle
  extract_lets s1
  have h1 : s1.Keeps q := State.each_keeps h (fun _ _ h2 => State.segGone_keeps h2)
  exact State.each_keeps h1 (fun _ _ h3 => State.switchCheck_keeps h3)

theorem State.scbAnswer_keeps {b status data good} (h : s.Keeps q) :
    State.Keeps q (State.scbAnswer s b status data good) := by
  unfold State.scbAnswer
  exact State.scbSettle_keeps (State.scbReply_keeps h)

theorem State.scbRetry_keeps {b} (h : s.Keeps q) :
    State.Keeps q (State.scbRetry s b) := by
  unfold State.scbRetry
  extract_lets
  split
  · exact ite_keeps (State.scbStart_keeps h) h
  · exact h

theorem State.sliceCal_keeps {n m} (h : s.Keeps q) :
    State.Keeps q (State.sliceCal s n m) := by
  unfold State.sliceCal
  extract_lets
  exact ite_keeps h (ite_keeps (State.calAccept_keeps h) (State.calReject_keeps h))

theorem State.idleStep_keeps {g} (h : s.Keeps q) :
    State.Keeps q (State.idleStep s g) := by
  unfold State.idleStep
  exact ite_keeps (State.handOver_keeps h) h

theorem State.gapAfterJob_keeps (h : s.Keeps q) :
    State.Keeps q (State.gapAfterJob s) := by
  unfold State.gapAfterJob
  split
  · exact h
  · extract_lets _ s2
    have h2 : s2.Keeps q := State.fillGrew_keeps (State.fput_keeps (State.gapClose_keeps h))
    exact ite_keeps (State.commitMarks_keeps h2) h

theorem State.dmaTimer_keeps {t} (h : s.Keeps q) :
    State.Keeps q (State.dmaTimer s t) := by
  unfold State.dmaTimer
  exact ite_keeps h (State.each_keeps h (fun _ _ h1 => ite_keeps (State.dmaTrigger_keeps h1) h1))

theorem State.dmaGranted_keeps {host poison} (h : s.Keeps q) :
    State.Keeps q (State.dmaGranted s host poison) := by
  unfold State.dmaGranted
  split
  · exact State.dmaBurst_keeps h
  · exact h

theorem State.evoEnd_keeps {k} (h : s.Keeps q) :
    State.Keeps q (State.evoEnd s k) := by
  unfold State.evoEnd
  extract_lets
  exact keeps_mk h

theorem State.absPeriodic_keeps {n ready} (h : s.Keeps q) :
    State.Keeps q (State.absPeriodic s n ready) := by
  unfold State.absPeriodic
  extract_lets _ s2
  have h2 : s2.Keeps q := State.absTrigger_keeps h
  exact ite_keeps h (ite_keeps (State.absNotReady_keeps h2) h2)

theorem State.absRecovered_keeps {n ready} (h : s.Keeps q) :
    State.Keeps q (State.absRecovered s n ready) := by
  unfold State.absRecovered
  extract_lets s1 _ s3
  have h1 : s1.Keeps q := State.fput_keeps h
  have h3 : s3.Keeps q := State.absHeld_keeps h1
  exact ite_keeps h (ite_keeps (State.absNotReady_keeps h3) h3)

theorem State.absEnded_keeps {n f} (h : s.Keeps q) :
    State.Keeps q (State.absEnded s n f) := by
  unfold State.absEnded
  extract_lets s1
  have h1 : s1.Keeps q := State.absFrame_keeps h
  exact ite_keeps h (ite_keeps (State.absNotReady_keeps h) (ite_keeps (State.posRestore_keeps h1) h1))

theorem State.bissFails_keeps {n err ld} (h : s.Keeps q) :
    State.Keeps q (State.bissFails s n err ld) := by
  unfold State.bissFails
  refine ite_keeps ?_ h
  · split
    · exact State.absFail_keeps (State.fput_keeps h)
    · exact State.absFail_keeps h

theorem State.qeiQuiet_keeps {n a b z} (h : s.Keeps q) :
    State.Keeps q (State.qeiQuiet s n a b z) := by
  unfold State.qeiQuiet
  extract_lets
  exact State.setQei_keeps (State.fput_keeps h)

theorem State.qeiEdge_keeps {n a b z} (h : s.Keeps q) :
    State.Keeps q (State.qeiEdge s n a b z) := by
  unfold State.qeiEdge
  extract_lets _ _ _ _ s5
  have h5 : s5.Keeps q := ite_keeps (State.qeiIllegal_keeps h) (ite_keeps h (State.feedCount_keeps (State.qeiCount_keeps h)))
  exact ite_keeps (State.qeiQuiet_keeps h) (State.qeiLevels_keeps h5)

theorem State.qeiZ_keeps {n z} (h : s.Keeps q) :
    State.Keeps q (State.qeiZ s n z) := by
  unfold State.qeiZ
  extract_lets
  exact State.qeiEdge_keeps h

theorem State.qeiWindowEnd_keeps {n} (h : s.Keeps q) :
    State.Keeps q (State.qeiWindowEnd s n) := by
  unfold State.qeiWindowEnd
  exact ite_keeps (State.qeiWindow_keeps h) h

theorem State.qeiStill_keeps {n} (h : s.Keeps q) :
    State.Keeps q (State.qeiStill s n) := by
  unfold State.qeiStill
  extract_lets _ s2
  have h2 : s2.Keeps q := State.setQei_keeps h
  exact ite_keeps h (ite_keeps (State.setSpd_keeps h2) h2)

theorem State.dieTimer_keeps (h : s.Keeps q) :
    State.Keeps q (State.dieTimer s) := by
  unfold State.dieTimer
  extract_lets
  exact ite_keeps (keeps_mk h) h

theorem State.monAged_keeps {n} (h : s.Keeps q) :
    State.Keeps q (State.monAged s n) := by
  unfold State.monAged
  extract_lets
  exact ite_keeps (State.showStale_keeps (State.setChan_keeps h)) h

theorem State.monCalTimer_keeps (h : s.Keeps q) :
    State.Keeps q (State.monCalTimer s) := by
  unfold State.monCalTimer
  extract_lets
  exact ite_keeps (keeps_mk h) h

theorem State.monSeqTimer_keeps (h : s.Keeps q) :
    State.Keeps q (State.monSeqTimer s) := by
  unfold State.monSeqTimer
  exact State.monTriggerBy_keeps h

theorem State.twbBytes_keeps {bytes} (h : s.Keeps q) :
    State.Keeps q (State.twbBytes s bytes) := by
  unfold State.twbBytes
  split
  · extract_lets _ _ _ s4
    have h4 : s4.Keeps q := keeps_mk h
    exact State.out_keeps h4
  · exact State.out_keeps h

theorem State.twbPhases_keeps {phases} (h : s.Keeps q) :
    State.Keeps q (State.twbPhases s phases) := by
  unfold State.twbPhases
  exact foldl_keeps h (fun _ _ h1 => State.twbBytes_keeps h1)

theorem State.serviceWrite_keeps {p a v} (h : s.Keeps q) :
    State.Keeps q (State.serviceWrite s p a v).2 := by
  unfold State.serviceWrite
  extract_lets _ _ s3
  have h3 : s3.Keeps q := State.raise_keeps h
  split
  · split
    · exact State.outerStore_keeps h
    · split
      · exact keeps_mk h
      · exact ite_keeps (State.raise_keeps h3) h3
  · exact State.regWrite_keeps h

theorem State.serviceRead_keeps {p a} (h : s.Keeps q) :
    State.Keeps q (State.serviceRead s p a).2 := by
  unfold State.serviceRead
  split
  · exact h
  · exact State.readReg_keeps h

theorem State.twbDiscard_keeps {n} (h : s.Keeps q) :
    State.Keeps q (State.twbDiscard s n) := by
  unfold State.twbDiscard
  exact State.bump_keeps h

theorem State.twbStop_keeps (h : s.Keeps q) :
    State.Keeps q (State.twbStop s) := by
  unfold State.twbStop
  extract_lets _ _ _ _ _ _ s7 x8 s14
  have h7 : s7.Keeps q := keeps_mk h
  have h8 : x8.2.Keeps q := by
    refine foldl_keeps2 h7 (fun _ _ h9 => ?_)
    · extract_lets _ s11 _ x13
      have h11 : s11.Keeps q := h9
      clear_value (eh13 : x13 = _)
      have h13 : x13.2.Keeps q := by rw [eh13]; exact State.serviceWrite_keeps h9
      split
      · exact ite_keeps (keeps_mk h11) h9
      · exact h13
  have h14 : s14.Keeps q := State.bump_keeps (State.twbDiscard_keeps h8)
  exact keeps_mk h14

theorem State.twbWrite_keeps {phases} (h : s.Keeps q) :
    State.Keeps q (State.twbWrite s phases) := by
  unfold State.twbWrite
  exact State.twbStop_keeps (State.twbPhases_keeps h)

theorem State.twbRead_keeps {head last stop} (h : s.Keeps q) :
    State.Keeps q (State.twbRead s head last stop) := by
  unfold State.twbRead
  extract_lets s1 _ s3 _ x5 _ _ s8 _ _ s11
  have h1 : s1.Keeps q := State.twbPhases_keeps h
  have h3 : s3.Keeps q := keeps_mk h1
  clear_value (eh5 : x5 = _)
  have h5 : x5.2.Keeps q := by
    rw [eh5]
    split
    · exact h3
    · exact State.serviceRead_keeps h3
  have h8 : s8.Keeps q := State.out_keeps h5
  have h11 : s11.Keeps q := keeps_mk h8
  exact ite_keeps (State.twbStop_keeps h11) h11

theorem State.twbDrop_keeps {phases} (h : s.Keeps q) :
    State.Keeps q (State.twbDrop s phases) := by
  unfold State.twbDrop
  extract_lets s1 _ s3
  have h1 : s1.Keeps q := State.twbPhases_keeps h
  have h3 : s3.Keeps q := State.twbDiscard_keeps h1
  exact keeps_mk h3

theorem State.twbStuck_keeps {ack phases} (h : s.Keeps q) :
    State.Keeps q (State.twbStuck s ack phases) := by
  unfold State.twbStuck
  extract_lets s1
  have h1 : s1.Keeps q := State.bump_keeps (State.twbDrop_keeps h)
  exact ite_keeps h (State.raise_keeps h1)

theorem State.tapRefused_keeps (h : s.Keeps q) :
    State.Keeps q (State.tapRefused s) := by
  unfold State.tapRefused
  exact State.bump_keeps h

theorem State.debugOpen_keeps {ir} (h : s.Keeps q) :
    State.Keeps q (State.debugOpen s ir) := by
  unfold State.debugOpen
  extract_lets s1 s2
  have h1 : s1.Keeps q := State.fput_keeps (State.zeroise_keeps h)
  have h2 : s2.Keeps q := State.fput_keeps (State.enterSafe_keeps h1)
  exact State.raise_keeps h2

theorem State.tapIr_keeps {ir cells} (h : s.Keeps q) :
    State.Keeps q (State.tapIr s ir cells) := by
  unfold State.tapIr
  extract_lets s1 _ s3
  have h1 : s1.Keeps q := State.fput_keeps (State.out_keeps h)
  have h3 : s3.Keeps q := keeps_mk h1
  exact ite_keeps (ite_keeps h3 (State.tapRefused_keeps h3)) (ite_keeps (ite_keeps (State.tapRefused_keeps h3) (ite_keeps h3 (State.debugOpen_keeps h3))) h3)

theorem State.tapReset_keeps (h : s.Keeps q) :
    State.Keeps q (State.tapReset s) := by
  unfold State.tapReset
  exact State.fput_keeps h

theorem State.drScan_keeps (h : s.Keeps q) :
    State.Keeps q (State.drScan s) := by
  unfold State.drScan
  split
  · exact State.out_keeps (keeps_mk h)
  · exact h

theorem State.dbgStart_keeps {dr} (h : s.Keeps q) :
    State.Keeps q (State.dbgStart s dr) := by
  unfold State.dbgStart
  extract_lets s1
  have h1 : s1.Keeps q := State.drScan_keeps h
  exact ite_keeps h1 (keeps_mk h1)

theorem State.dbgEnd_keeps (h : s.Keeps q) :
    State.Keeps q (State.dbgEnd s) := by
  unfold State.dbgEnd
  split
  · exact h
  · extract_lets _ s2 x3 s4
    have h2 : s2.Keeps q := keeps_mk h
    clear_value (eh3 : x3 = _)
    have h3 : x3.2.Keeps q := by rw [eh3]; exact State.serviceRead_keeps h2
    have h4 : s4.Keeps q := h3
    exact ite_keeps (State.serviceWrite_keeps h2) (keeps_mk h4)

end Sys2Proof.Machine
end

