-- ==== Sys2Proof/Laws/Exec.lean ====
section
/-!
SUPPORT. Every command but FUSE_DONE answers a next state that keeps the queue and the fuses and stays sound; FUSE_DONE
may change the fuses alone.
-/

namespace Sys2Proof.Machine

variable {q : List Instr × Fuses} {s : State}

theorem exec_keeps {c : Instr} (hc : ∀ ok, c ≠ .fuseDone ok) (h : s.Keeps q) : ∃ t, exec c s = .next t ∧ t.Keeps q := by
  cases c with
  | registerWrite => exact ⟨_, rfl, State.pathWrite_keeps h⟩
  | rcRead => exact ⟨_, rfl, State.pathRead_keeps h⟩
  | multiwordRead => exact ⟨_, rfl, State.pathRead_keeps h⟩
  | multiwordWrite => exact ⟨_, rfl, State.pathWrite_keeps h⟩
  | heartbeatTick => exact ⟨_, rfl, State.ctl_keeps h fun _ h => (State.heartbeat_keeps h)⟩
  | islandHeartbeatTimeout => exact ⟨_, rfl, State.ctl_keeps h fun _ h => (State.islandGone_keeps h)⟩
  | islandClockFault => exact ⟨_, rfl, State.ctl_keeps h fun _ h => (State.islandGone_keeps h)⟩
  | controlIslandLost => exact ⟨_, rfl, State.live_keeps h fun _ h => (State.controlLost_keeps h)⟩
  | controlIslandReturn => exact ⟨_, rfl, State.live_keeps h fun _ h => State.controlBack_keeps h⟩
  | commitHoldWrite => exact ⟨_, rfl, State.pathWrite_keeps h⟩
  | holdLong => exact ⟨_, rfl, State.ctl_keeps h fun _ h => State.holdLong_keeps h⟩
  | snapRequest => exact ⟨_, rfl, State.pathWrite_keeps h⟩
  | snapshotTake => exact ⟨_, rfl, State.ctl_keeps h fun _ h => State.snapshotTake_keeps h⟩
  | timeCorrection => exact ⟨_, rfl, State.ctl_keeps h fun _ h => State.timeCorrection_keeps h⟩
  | tsyncEdge => exact ⟨_, rfl, State.ctl_keeps h fun _ h => (State.tsyncEdge_keeps h)⟩
  | safeForce => exact ⟨_, rfl, State.pathWrite_keeps h⟩
  | safeNLow => exact ⟨_, rfl, State.ctl_keeps h fun _ h => State.safeNLow_keeps h⟩
  | refclkFault => exact ⟨_, rfl, State.refclkFault_keeps h⟩
  | supplyFault => exact ⟨_, rfl, State.supplyFault_keeps h⟩
  | thermFault => exact ⟨_, rfl, State.ctl_keeps h fun _ h => State.thermFault_keeps h⟩
  | portsDownTimeout => exact ⟨_, rfl, State.ctl_keeps h fun _ h => State.portsDown_keeps h⟩
  | motionParityError => exact ⟨_, rfl, State.ctl_keeps h fun _ h => (State.enterSafe_keeps h)⟩
  | lampbusTimeout => exact ⟨_, rfl, State.ctl_keeps h fun _ h => State.lampbusTimeout_keeps h⟩
  | safeAllOffRepeat => exact ⟨_, rfl, State.live_keeps h fun _ h => State.allOffRepeat_keeps h⟩
  | safeCauseClear => exact ⟨_, rfl, State.pathWrite_keeps h⟩
  | safeClear => exact ⟨_, rfl, State.ringCommand_keeps h fun _ h => (State.safeClearCmd_keeps h)⟩
  | safeClearEval => exact ⟨_, rfl, State.ctl_keeps h fun _ h => State.safeClearEval_keeps h⟩
  | lineStart => exact ⟨_, rfl, State.ctl_keeps h fun _ h => State.positionTrigger_keeps h⟩
  | heldLineRelease => exact ⟨_, rfl, State.ctl_keeps h fun _ h => State.releaseHeld_keeps h⟩
  | phaseStart => exact ⟨_, rfl, State.ctl_keeps h fun _ h => State.phaseStart_keeps h⟩
  | closingStartPulse => exact ⟨_, rfl, State.ctl_keeps h fun _ h => State.closeLine_keeps h⟩
  | strobeRise => exact ⟨_, rfl, State.live_keeps h fun _ h => State.strobeRise_keeps h⟩
  | strobeFall => exact ⟨_, rfl, State.live_keeps h fun _ h => (State.strobeFall_keeps h)⟩
  | lampEnOff => exact ⟨_, rfl, State.live_keeps h fun _ h => State.lampEnOff_keeps h⟩
  | readoutComplete => exact ⟨_, rfl, State.live_keeps h fun _ h => (State.readout_keeps h)⟩
  | flushPhases => exact ⟨_, rfl, State.ctl_keeps h fun _ h => State.flushPhases_keeps h⟩
  | trainStart => exact ⟨_, rfl, State.pathWrite_keeps h⟩
  | trainDone => exact ⟨_, rfl, State.ctl_keeps h fun _ h => (State.trainDone_keeps h)⟩
  | loopBroken => exact ⟨_, rfl, State.ctl_keeps h fun _ h => (State.loopBroken_keeps h)⟩
  | voltageModeSwitch => exact ⟨_, rfl, State.ctl_keeps h fun _ h => (State.voltageMode_keeps h)⟩
  | scbHostFrame => exact ⟨_, rfl, State.pathWrite_keeps h⟩
  | scbReply => exact ⟨_, rfl, State.ctl_keeps h fun _ h => (State.scbAnswer_keeps h)⟩
  | scbBusyRetry => exact ⟨_, rfl, State.ctl_keeps h fun _ h => (State.scbRetry_keeps h)⟩
  | segmentBringup => exact ⟨_, rfl, State.ctl_keeps h fun _ h => (State.bringup_keeps h)⟩
  | sliceCalDone => exact ⟨_, rfl, State.live_keeps h fun _ h => (State.sliceCal_keeps h)⟩
  | rotationStepIdle => exact ⟨_, rfl, State.live_keeps h fun _ h => (State.idleStep_keeps h)⟩
  | groupRetest => exact ⟨_, rfl, State.pathWrite_keeps h⟩
  | groupPark => exact ⟨_, rfl, State.pathWrite_keeps h⟩
  | adcFreeze => exact ⟨_, rfl, State.pathWrite_keeps h⟩
  | lampBusTransaction => exact ⟨_, rfl, State.live_keeps h fun _ h => (State.lbNext_keeps h)⟩
  | lampReply => exact ⟨_, rfl, State.live_keeps h fun _ h => (State.lbReply_keeps h)⟩
  | lampNoReply => exact ⟨_, rfl, State.live_keeps h fun _ h => (State.lbNoReply_keeps h)⟩
  | zonePingTimer => exact ⟨_, rfl, State.live_keeps h fun _ h => (State.zonePing_keeps h)⟩
  | busPingTimer => exact ⟨_, rfl, State.live_keeps h fun _ h => (State.busPing_keeps h)⟩
  | lampCommitSlot => exact ⟨_, rfl, State.live_keeps h fun _ h => State.commitSlot_keeps h⟩
  | lampAllOffWrite => exact ⟨_, rfl, State.pathWrite_keeps h⟩
  | tintResetf => exact ⟨_, rfl, State.pathWrite_keeps h⟩
  | zonePingWrite => exact ⟨_, rfl, State.pathWrite_keeps h⟩
  | zoneClearWrite => exact ⟨_, rfl, State.pathWrite_keeps h⟩
  | pxeTakeBlock => exact ⟨_, rfl, State.live_keeps h fun _ h => (State.pixelTake_keeps h)⟩
  | blockDone => exact ⟨_, rfl, State.live_keeps h fun _ h => (State.pixelDone_keeps h)⟩
  | engineParityError => exact ⟨_, rfl, State.live_keeps h fun _ h => (ite_keeps (State.engParity_keeps h) h)⟩
  | engineTestWrite => exact ⟨_, rfl, ite_keeps (State.pathWrite_keeps h) h⟩
  | engineHoldWrite => exact ⟨_, rfl, ite_keeps (State.pathWrite_keeps h) h⟩
  | engineTestDone => exact ⟨_, rfl, State.live_keeps h fun _ h => (ite_keeps (State.engTested_keeps h) h)⟩
  | lineCommit => exact ⟨_, rfl, State.live_keeps h fun _ h => State.commitNext_keeps h⟩
  | lineAnalysisRead => exact ⟨_, rfl, State.live_keeps h fun _ h => (State.analysisRead_keeps (State.flip_keeps h))⟩
  | bankSelectWrite => exact ⟨_, rfl, State.pathWrite_keeps h⟩
  | bankCommit => exact ⟨_, rfl, State.ringWork_keeps h fun _ h => (State.bankCommit_keeps h)⟩
  | calStart => exact ⟨_, rfl, State.ringWork_keeps h fun _ h => (State.calStart_keeps h)⟩
  | calPrepareDone => exact ⟨_, rfl, State.ctl_keeps h fun _ h => State.calPrepared_keeps h⟩
  | calPassEnd => exact ⟨_, rfl, State.ctl_keeps h fun _ h => State.calPassEnd_keeps h⟩
  | calShutterSettled => exact ⟨_, rfl, State.ctl_keeps h fun _ h => State.calSettled_keeps h⟩
  | calVerifyEnd => exact ⟨_, rfl, State.ctl_keeps h fun _ h => State.calVerifyEnd_keeps h⟩
  | calEnd => exact ⟨_, rfl, State.ctl_keeps h fun _ h => State.calEnd_keeps h⟩
  | calAbort => exact ⟨_, rfl, State.pathWrite_keeps h⟩
  | bankCheck => exact ⟨_, rfl, State.pathWrite_keeps h⟩
  | bankCheckDone => exact ⟨_, rfl, State.live_keeps h fun _ h => (State.bankChecked_keeps h)⟩
  | bankMbist => exact ⟨_, rfl, State.pathWrite_keeps h⟩
  | bankMbistDone => exact ⟨_, rfl, State.live_keeps h fun _ h => (State.mbistEnd_keeps h)⟩
  | nzlClear => exact ⟨_, rfl, State.pathWrite_keeps h⟩
  | bandLineWrite => exact ⟨_, rfl, State.pathWrite_keeps h⟩
  | eviEdge => exact ⟨_, rfl, State.live_keeps h fun _ h => (State.eviEdge_keeps h)⟩
  | nzeTakeChunk => exact ⟨_, rfl, State.live_keeps h fun _ h => (State.nozzleTake_keeps h)⟩
  | chunkDone => exact ⟨_, rfl, State.live_keeps h fun _ h => (State.nozzleDone_keeps h)⟩
  | contextExport => exact ⟨_, rfl, State.ringCommand_keeps h fun _ h => (State.contextExport_keeps h)⟩
  | exportDone => exact ⟨_, rfl, State.live_keeps h fun _ h => (State.exportDone_keeps h)⟩
  | windowPlaceWrite => exact ⟨_, rfl, State.pathWrite_keeps h⟩
  | tceTakeItem => exact ⟨_, rfl, State.live_keeps h fun _ h => (State.corrTake_keeps h)⟩
  | corrItemDone => exact ⟨_, rfl, State.live_keeps h fun _ h => (State.corrDone_keeps h)⟩
  | profileTick => exact ⟨_, rfl, State.live_keeps h fun _ h => State.profileTick_keeps h⟩
  | move => exact ⟨_, rfl, State.ringWork_keeps h fun _ h => (State.moveCmd_keeps h)⟩
  | axisHalt => exact ⟨_, rfl, State.pathWrite_keeps h⟩
  | axisStop => exact ⟨_, rfl, State.pathWrite_keeps h⟩
  | motionStopAll => exact ⟨_, rfl, State.pathWrite_keeps h⟩
  | drvFltFall => exact ⟨_, rfl, State.live_keeps h fun _ h => (State.fltFall_keeps h)⟩
  | drvFltRise => exact ⟨_, rfl, State.live_keeps h fun _ h => (State.fltRise_keeps h)⟩
  | axisFault => exact ⟨_, rfl, State.live_keeps h fun _ h => (State.axisFault_keeps h)⟩
  | holdCurrentDrop => exact ⟨_, rfl, State.live_keeps h fun _ h => (State.holdDrop_keeps h)⟩
  | moveStartDelay => exact ⟨_, rfl, State.live_keeps h fun _ h => (State.startDelay_keeps h)⟩
  | axisEnableWrite => exact ⟨_, rfl, State.pathWrite_keeps h⟩
  | phomeRise => exact ⟨_, rfl, State.live_keeps h fun _ h => (State.phomeRise_keeps h)⟩
  | phaseFail => exact ⟨_, rfl, State.live_keeps h fun _ h => (State.phaseFail_keeps h)⟩
  | phaseRestored => exact ⟨_, rfl, State.live_keeps h fun _ h => (State.phaseRestored_keeps h)⟩
  | setposWrite => exact ⟨_, rfl, State.pathWrite_keeps h⟩
  | encset => exact ⟨_, rfl, State.pathWrite_keeps h⟩
  | advance => exact ⟨_, rfl, State.ringWork_keeps h fun _ h => (State.advance_keeps h)⟩
  | advanceAccept => exact ⟨_, rfl, State.live_keeps h fun _ h => State.advanceTry_keeps h⟩
  | passBoundary => exact ⟨_, rfl, State.live_keeps h fun _ h => State.passBoundary_keeps h⟩
  | jobStart => exact ⟨_, rfl, State.ringCommand_keeps h fun _ h => (State.jobStart_keeps h)⟩
  | jobStop => exact ⟨_, rfl, State.ringWork_keeps h fun _ h => (State.jobStop_keeps h)⟩
  | jobEnd => exact ⟨_, rfl, State.live_keeps h fun _ h => (ite_keeps (State.jobEnd_keeps h) h)⟩
  | couchDwellEnd => exact ⟨_, rfl, State.live_keeps h fun _ h => State.couchDwell_keeps h⟩
  | couchRestart => exact ⟨_, rfl, State.live_keeps h fun _ h => State.couchForward_keeps h⟩
  | absReq => exact ⟨_, rfl, State.pathWrite_keeps h⟩
  | absPeriodicTrigger => exact ⟨_, rfl, State.live_keeps h fun _ h => (State.absPeriodic_keeps h)⟩
  | absRecoveryEnd => exact ⟨_, rfl, State.live_keeps h fun _ h => (State.absRecovered_keeps h)⟩
  | absFrameDone => exact ⟨_, rfl, State.live_keeps h fun _ h => (State.absEnded_keeps h)⟩
  | absAckTimeout => exact ⟨_, rfl, State.live_keeps h fun _ h => (State.bissFails_keeps h)⟩
  | absNoStart => exact ⟨_, rfl, State.live_keeps h fun _ h => (State.bissFails_keeps h)⟩
  | absBusyTimeout => exact ⟨_, rfl, State.live_keeps h fun _ h => (State.bissFails_keeps h)⟩
  | absClrunc => exact ⟨_, rfl, State.pathWrite_keeps h⟩
  | qeiCountEdge => exact ⟨_, rfl, State.live_keeps h fun _ h => (State.qeiEdge_keeps h)⟩
  | qeiIndexEdge => exact ⟨_, rfl, State.live_keeps h fun _ h => (State.qeiZ_keeps h)⟩
  | qeiSpeedWindow => exact ⟨_, rfl, State.live_keeps h fun _ h => (State.qeiWindowEnd_keeps h)⟩
  | qeiSpeedTimeout => exact ⟨_, rfl, State.live_keeps h fun _ h => (State.qeiStill_keeps h)⟩
  | qeiClrunc => exact ⟨_, rfl, State.pathWrite_keeps h⟩
  | qeiReidx => exact ⟨_, rfl, State.pathWrite_keeps h⟩
  | chopPeriodBoundary => exact ⟨_, rfl, State.live_keeps h fun _ h => (State.chopPeriod_keeps h)⟩
  | dieEntryTimer => exact ⟨_, rfl, State.live_keeps h fun _ h => State.dieTimer_keeps h⟩
  | monAgeStale => exact ⟨_, rfl, State.live_keeps h fun _ h => (State.monAged_keeps h)⟩
  | monCalWrite => exact ⟨_, rfl, State.pathWrite_keeps h⟩
  | monCalPeriodic => exact ⟨_, rfl, State.live_keeps h fun _ h => State.monCalTimer_keeps h⟩
  | monSeqReq => exact ⟨_, rfl, State.pathWrite_keeps h⟩
  | monSeqPeriodic => exact ⟨_, rfl, State.live_keeps h fun _ h => State.monSeqTimer_keeps h⟩
  | monInject => exact ⟨_, rfl, State.pathWrite_keeps h⟩
  | monLoad => exact ⟨_, rfl, State.pathWrite_keeps h⟩
  | monConfigWrite => exact ⟨_, rfl, State.pathWrite_keeps h⟩
  | blankAssert => exact ⟨_, rfl, State.live_keeps h fun _ h => State.blankOn_keeps h⟩
  | blankRelease => exact ⟨_, rfl, State.live_keeps h fun _ h => State.blankOff_keeps h⟩
  | blankStuck => exact ⟨_, rfl, State.live_keeps h fun _ h => State.blankLong_keeps h⟩
  | gapCloseAfterJob => exact ⟨_, rfl, State.live_keeps h fun _ h => State.gapAfterJob_keeps h⟩
  | packetIssue => exact ⟨_, rfl, State.live_keeps h fun _ h => (State.issuePacket_keeps (State.flip_keeps h))⟩
  | svcRead => exact ⟨_, rfl, State.pathRead_keeps (State.live_keeps h fun _ h => (State.flip_keeps h))⟩
  | sinkWrite => exact ⟨_, rfl, State.pathWrite_keeps h⟩
  | dmaStart => exact ⟨_, rfl, State.pathWrite_keeps h⟩
  | dmaStop => exact ⟨_, rfl, State.pathWrite_keeps h⟩
  | dmaTimerExpiry => exact ⟨_, rfl, State.live_keeps h fun _ h => (State.dmaTimer_keeps h)⟩
  | dmaDescStart => exact ⟨_, rfl, State.live_keeps h fun _ h => (State.dmaDescStart_keeps h)⟩
  | dmaBurstGrant => exact ⟨_, rfl, State.live_keeps h fun _ h => (State.dmaGranted_keeps h)⟩
  | dmaDescDone => exact ⟨_, rfl, State.live_keeps h fun _ h => (State.dmaDescDone_keeps h)⟩
  | evoPulseEnd => exact ⟨_, rfl, State.live_keeps h fun _ h => (State.evoEnd_keeps h)⟩
  | linkFault => exact ⟨_, rfl, State.live_keeps h fun _ h => (State.linkLost_keeps h)⟩
  | portLinkHoldExpiry => exact ⟨_, rfl, State.live_keeps h fun _ h => (State.linkHeld_keeps h)⟩
  | linkTrained => exact ⟨_, rfl, State.live_keeps h fun _ h => (State.linkTrained_keeps h)⟩
  | portSteady => exact ⟨_, rfl, State.live_keeps h fun _ h => (State.portSteady_keeps h)⟩
  | portForceDown => exact ⟨_, rfl, State.pathWrite_keeps h⟩
  | pfcStall => exact ⟨_, rfl, State.live_keeps h fun _ h => (State.pfcStall_keeps h)⟩
  | arpRequest => exact ⟨_, rfl, State.live_keeps h fun _ h => (State.rxFrame_keeps h fun _ h => (State.arp_keeps h))⟩
  | neighbourSolicit => exact ⟨_, rfl, State.live_keeps h fun _ h => (State.rxFrame_keeps h fun _ h => (State.neighbour_keeps h))⟩
  | pfcFrame => exact ⟨_, rfl, State.live_keeps h fun _ h => (State.rxFrame_keeps h fun _ h => (State.pfc_keeps h))⟩
  | frameDiscard => exact ⟨_, rfl, State.live_keeps h fun _ h => (State.discardFrame_keeps h)⟩
  | ackReceive => exact ⟨_, rfl, State.live_keeps h fun _ h => (State.rxPacket_keeps h fun _ h => (State.ack_keeps h))⟩
  | nakReceive => exact ⟨_, rfl, State.live_keeps h fun _ h => (State.rxPacket_keeps h fun _ h => (State.nak_keeps h))⟩
  | readResponse => exact ⟨_, rfl, State.live_keeps h fun _ h => (State.rxPacket_keeps h fun _ h => (State.readResponse_keeps h))⟩
  | cnpReceive => exact ⟨_, rfl, State.live_keeps h fun _ h => (State.rxPacket_keeps h fun _ h => (State.cnp_keeps h))⟩
  | qpAckTimeout => exact ⟨_, rfl, State.live_keeps h fun _ h => (State.ackTimeout_keeps h)⟩
  | qpReset => exact ⟨_, rfl, State.pathWrite_keeps h⟩
  | ecnAlphaTimer => exact ⟨_, rfl, State.live_keeps h fun _ h => (State.alphaDecay_keeps h)⟩
  | ecnRateTimer => exact ⟨_, rfl, State.live_keeps h fun _ h => (State.rateRise_keeps h)⟩
  | poll => exact ⟨_, rfl, State.ctl_keeps h fun _ h => State.poll_keeps h⟩
  | standbyPoll => exact ⟨_, rfl, State.ctl_keeps h fun _ h => State.standbyPoll_keeps h⟩
  | statusBlockTimer => exact ⟨_, rfl, State.ctl_keeps h fun _ h => State.statusBlock_keeps h⟩
  | eventWrite => exact ⟨_, rfl, State.ctl_keeps h fun _ h => State.writeEvent_keeps h⟩
  | hstCtrlWrite => exact ⟨_, rfl, State.pathWrite_keeps h⟩
  | nop => exact ⟨_, rfl, State.ringCommand_keeps h fun _ h => (State.nop_keeps h)⟩
  | regWrite => exact ⟨_, rfl, State.ringCommand_keeps h fun _ h => (State.regWriteCmd_keeps h)⟩
  | regRead => exact ⟨_, rfl, State.ringCommand_keeps h fun _ h => (State.regReadCmd_keeps h)⟩
  | tableLoad => exact ⟨_, rfl, State.ringCommand_keeps h fun _ h => (State.tableLoad_keeps h)⟩
  | indicate => exact ⟨_, rfl, State.ringWork_keeps h fun _ h => (State.indicate_keeps h)⟩
  | snapshot => exact ⟨_, rfl, State.ringCommand_keeps h fun _ h => (State.snapshotCmd_keeps h)⟩
  | unknownOpcode => exact ⟨_, rfl, ite_keeps h (State.ringCommand_keeps h fun _ h => (State.cmdRefuse_keeps h))⟩
  | powerOnReset => exact ⟨_, rfl, State.causeReset_keeps h⟩
  | resetPin => exact ⟨_, rfl, State.causeReset_keeps h⟩
  | cfgReset => exact ⟨_, rfl, State.pathWrite_keeps h⟩
  | resetApply => exact ⟨_, rfl, State.resetApply_keeps h⟩
  | resetRelease => exact ⟨_, rfl, State.resetRelease_keeps h⟩
  | flashReady => exact ⟨_, rfl, State.ctl_keeps h fun _ h => (State.flashReady_keeps h)⟩
  | flashBurstFail => exact ⟨_, rfl, State.ctl_keeps h fun _ h => (State.burstFail_keeps h)⟩
  | imageHeadersRead => exact ⟨_, rfl, State.ctl_keeps h fun _ h => (State.headersRead_keeps h)⟩
  | imageCopyVerified => exact ⟨_, rfl, State.ctl_keeps h fun _ h => (State.copyVerified_keeps h)⟩
  | startupComplete => exact ⟨_, rfl, State.ctl_keeps h fun _ h => State.startupComplete_keeps h⟩
  | fuseOperation => exact ⟨_, rfl, State.pathWrite_keeps h⟩
  | fuseDone ok => exact absurd rfl (hc ok)
  | sealDone => exact ⟨_, rfl, State.ctl_keeps h fun _ h => State.sealDone_keeps h⟩
  | zeroise => exact ⟨_, rfl, State.pathWrite_keeps h⟩
  | zeroiseKeys => exact ⟨_, rfl, State.ctl_keeps h fun _ h => State.zeroiseKeys_keeps h⟩
  | brownoutHold => exact ⟨_, rfl, State.brownoutHold_keeps h⟩
  | brownoutRelease => exact ⟨_, rfl, State.brownoutRelease_keeps h⟩
  | twbWriteTransaction => exact ⟨_, rfl, State.ctl_keeps h fun _ h => (State.twbWrite_keeps h)⟩
  | twbReadWord => exact ⟨_, rfl, State.ctl_keeps h fun _ h => (State.twbRead_keeps h)⟩
  | twbAbort => exact ⟨_, rfl, State.ctl_keeps h fun _ h => (State.twbDrop_keeps h)⟩
  | twbStuck => exact ⟨_, rfl, State.ctl_keeps h fun _ h => (State.twbStuck_keeps h)⟩
  | tapIrUpdate => exact ⟨_, rfl, State.ctl_keeps h fun _ h => (State.tapIr_keeps h)⟩
  | tapReset => exact ⟨_, rfl, State.ctl_keeps h fun _ h => State.tapReset_keeps h⟩
  | dbgAccess => exact ⟨_, rfl, State.ctl_keeps h fun _ h => (State.dbgStart_keeps h)⟩
  | dbgAccessDone => exact ⟨_, rfl, State.ctl_keeps h fun _ h => State.dbgEnd_keeps h⟩
  | indFrame => exact ⟨_, rfl, State.ctl_keeps h fun _ h => State.indFrame_keeps h⟩
  | indRowSlot => exact ⟨_, rfl, State.ctl_keeps h fun _ h => State.indRow_keeps h⟩
  | indPointerExpire => exact ⟨_, rfl, State.ctl_keeps h fun _ h => (State.pointerExpire_keeps h)⟩
  | safeBlinkToggle => exact ⟨_, rfl, State.ctl_keeps h fun _ h => State.blink_keeps h⟩
  | safeNRelease => exact ⟨_, rfl, State.ctl_keeps h fun _ h => State.safeNRelease_keeps h⟩
  | refclkRestored => exact ⟨_, rfl, State.refclkBack_keeps h⟩
  | supplyRestored => exact ⟨_, rfl, State.supplyBack_keeps h⟩
  | thermClear => exact ⟨_, rfl, State.ctl_keeps h fun _ h => State.thermClear_keeps h⟩
  | pcsRealign => exact ⟨_, rfl, State.live_keeps h fun _ h => (State.linkBack_keeps h)⟩
  | pfcPauseExpiry => exact ⟨_, rfl, State.live_keeps h fun _ h => (State.pauseEnd_keeps h)⟩
  | _ => exact ⟨_, rfl, State.pathWrite_keeps h⟩

theorem exec_total (c : Instr) (h : s.Keeps q) : ∃ f t, exec c s = .next t ∧ t.Keeps (q.1, f) := by
  by_cases hc : ∃ ok, c = .fuseDone ok
  · obtain ⟨ok, rfl⟩ := hc
    refine ⟨if s.cfg.held || s.sys.ctlLost then q.2 else (State.fuseDone_keeps (ok := ok) h).choose, _, rfl, ?_⟩
    unfold State.ctl
    split
    · exact h
    · exact (State.fuseDone_keeps h).choose_spec
  · obtain ⟨t, h1, h2⟩ := exec_keeps (fun ok e => hc ⟨ok, e⟩) h
    exact ⟨q.2, t, h1, h2⟩

end Sys2Proof.Machine
end

