-- ==== Sys2Proof/Laws/Regs.lean ====
section
/-!
SUPPORT. Reading after writing: bit fields of a number, registers, fields of registers, bytes of memory.
-/

namespace Sys2Proof.Machine

theorem pack_lt {x w y lo : Nat} (hx : x < 2 ^ w) (hy : y < 2 ^ lo) : x * 2 ^ lo + y < 2 ^ (lo + w) := by
  have h := Nat.mul_le_mul_right (2 ^ lo) (Nat.succ_le_of_lt hx)
  rw [Nat.succ_mul, Nat.mul_comm (2 ^ w), ← Nat.pow_add] at h
  omega

theorem putBits_lt {n lo w v : Nat} (hn : n < 2 ^ 32) (hw : lo + w ≤ 32) : putBits n lo w v < 2 ^ 32 := by
  unfold putBits
  have h1 : v % 2 ^ w < 2 ^ w := Nat.mod_lt _ (Nat.two_pow_pos w)
  have h2 : n % 2 ^ lo < 2 ^ lo := Nat.mod_lt _ (Nat.two_pow_pos lo)
  have h3 := pack_lt h1 h2
  have h4 : n / 2 ^ (lo + w) + 1 ≤ 2 ^ (32 - (lo + w)) := by
    apply Nat.div_lt_of_lt_mul
    rw [← Nat.pow_add]
    rwa [Nat.add_sub_cancel' hw]
  have h5 : 2 ^ (32 - (lo + w)) * 2 ^ (lo + w) = 2 ^ 32 := by
    rw [← Nat.pow_add, Nat.sub_add_cancel hw]
  have h6 := Nat.mul_le_mul_right (2 ^ (lo + w)) h4
  rw [h5, Nat.succ_mul] at h6
  omega

theorem bitsAt_putBits (n lo w v : Nat) : bitsAt (putBits n lo w v) lo w = v % 2 ^ w := by
  unfold bitsAt putBits
  have h2 : n % 2 ^ lo < 2 ^ lo := Nat.mod_lt _ (Nat.two_pow_pos lo)
  rw [show n / 2 ^ (lo + w) * 2 ^ (lo + w) + v % 2 ^ w * 2 ^ lo + n % 2 ^ lo
    = n % 2 ^ lo + 2 ^ lo * (v % 2 ^ w + 2 ^ w * (n / 2 ^ (lo + w))) by rw [Nat.pow_add]; ring]
  rw [Nat.add_mul_div_left _ _ (Nat.two_pow_pos lo), Nat.div_eq_of_lt h2, Nat.zero_add,
    Nat.add_mul_mod_self_left, Nat.mod_mod]

theorem bitsAt_putBits_below {n lo w v lo' w' : Nat} (h : lo' + w' ≤ lo) :
    bitsAt (putBits n lo w v) lo' w' = bitsAt n lo' w' := by
  unfold bitsAt putBits
  obtain ⟨d, rfl⟩ := Nat.exists_eq_add_of_le h
  have h1 : 2 ^ (lo' + w' + d) = 2 ^ lo' * (2 ^ w' * 2 ^ d) := by rw [Nat.pow_add, Nat.pow_add, Nat.mul_assoc]
  have e : n / 2 ^ (lo' + w' + d + w) * 2 ^ (lo' + w' + d + w) + v % 2 ^ w * 2 ^ (lo' + w' + d) + n % 2 ^ (lo' + w' + d)
      = n % 2 ^ (lo' + w' + d) + 2 ^ lo' * (2 ^ w' * (2 ^ d * (v % 2 ^ w + 2 ^ w * (n / 2 ^ (lo' + w' + d + w))))) := by
    rw [Nat.pow_add _ (lo' + w' + d), h1]; ring
  rw [e, Nat.add_mul_div_left _ _ (Nat.two_pow_pos lo'), Nat.add_mul_mod_self_left]
  conv_rhs => rw [← Nat.mod_add_div n (2 ^ (lo' + w' + d)), h1, Nat.mul_assoc, Nat.add_mul_div_left _ _ (Nat.two_pow_pos lo'),
    Nat.mul_assoc, Nat.add_mul_mod_self_left, ← h1]

theorem bitsAt_putBits_above {n lo w v lo' w' : Nat} (h : lo + w ≤ lo') :
    bitsAt (putBits n lo w v) lo' w' = bitsAt n lo' w' := by
  unfold bitsAt putBits
  congr 1
  obtain ⟨d, rfl⟩ := Nat.exists_eq_add_of_le h
  have h1 : v % 2 ^ w < 2 ^ w := Nat.mod_lt _ (Nat.two_pow_pos w)
  have h2 : n % 2 ^ lo < 2 ^ lo := Nat.mod_lt _ (Nat.two_pow_pos lo)
  have h3 := pack_lt h1 h2
  rw [Nat.pow_add _ (lo + w) d, ← Nat.div_div_eq_div_mul, ← Nat.div_div_eq_div_mul, Nat.add_assoc,
    Nat.add_comm, Nat.add_mul_div_right _ _ (Nat.two_pow_pos (lo + w)), Nat.div_eq_of_lt h3, Nat.zero_add]

variable {s : State}

/-- Reading a register after a write (R7). -/
theorem State.rget_rput {a : Nat} {w : Word} (h : Regs.wf s.regs) (b : Nat) :
    (s.rput a w).rget b = if b = a then w else s.rget b := tget_tput a w b h

theorem State.rget_rput_ne {a b : Nat} {w : Word} (h : Regs.wf s.regs) (hb : b ≠ a) : (s.rput a w).rget b = s.rget b := by
  rw [State.rget_rput h, if_neg hb]

theorem State.fput_regs {f : Fld} {v : Nat} (h : Regs.wf s.regs) : Regs.wf (s.fput f v).regs := tput_wf _ _ h

theorem State.rget_fput_ne {f : Fld} {v b : Nat} (h : Regs.wf s.regs) (hb : b ≠ f.addr) :
    (s.fput f v).rget b = s.rget b := State.rget_rput_ne h hb

theorem State.rget_fput {f : Fld} {v : Nat} (h : Regs.wf s.regs) (hw : f.lo + f.w ≤ 32) :
    ((s.fput f v).rget f.addr).toNat = putBits (s.rget f.addr).toNat f.lo f.w v := by
  unfold State.fput
  rw [State.rget_rput h, if_pos rfl, BitVec.toNat_ofNat, Nat.mod_eq_of_lt (putBits_lt (s.rget f.addr).isLt hw)]

/-- A field reads as what was put in it. -/
theorem State.fget_fput {f : Fld} {v : Nat} (h : Regs.wf s.regs) (hw : f.lo + f.w ≤ 32) :
    (s.fput f v).fget f = v % 2 ^ f.w := by
  unfold State.fget
  rw [State.rget_fput h hw, bitsAt_putBits]

theorem State.fget_fput_addr {f g : Fld} {v : Nat} (h : Regs.wf s.regs) (ha : g.addr ≠ f.addr) :
    (s.fput f v).fget g = s.fget g := by
  unfold State.fget
  rw [State.rget_fput_ne h ha]

/-- A field keeps its value when another field of its register is put. -/
theorem State.fget_fput_other {f g : Fld} {v : Nat} (h : Regs.wf s.regs) (hw : f.lo + f.w ≤ 32)
    (hd : g.addr ≠ f.addr ∨ g.lo + g.w ≤ f.lo ∨ f.lo + f.w ≤ g.lo) : (s.fput f v).fget g = s.fget g := by
  by_cases ha : g.addr = f.addr
  · unfold State.fget
    rw [ha, State.rget_fput h hw]
    rcases hd with hd | hd | hd
    · exact absurd ha hd
    · exact bitsAt_putBits_below hd
    · exact bitsAt_putBits_above hd
  · exact State.fget_fput_addr h ha

theorem tget_tputs {m : List Host.Cell} (h : Memory.wf m) (a : Nat) (bs : List Byte) (b : Nat) :
    tget memDefault (tputs memDefault m a bs) b = if a ≤ b ∧ b < a + bs.length then bs.getD (b - a) 0 else tget memDefault m b := by
  induction bs generalizing m a with
  | nil => simp [tputs, show ¬ (a ≤ b ∧ b < a) by omega]
  | cons x r ih =>
    unfold tputs
    rw [ih (tput_wf a x h), tget_tput a x b h]
    by_cases h1 : b = a
    · subst h1
      simp
    · by_cases h2 : a ≤ b ∧ b < a + (x :: r).length
      · have h3 : b - a = (b - (a + 1)) + 1 := by omega
        rw [if_pos h2, if_pos (by simp at h2; omega), h3, List.getD_cons_succ]
      · rw [if_neg h2, if_neg (by simp at h2; omega), if_neg h1]

/-- A byte of memory after a store (R3): the byte stored there, and every other byte as before. -/
theorem State.byte_store {a : Nat} {bs : List Byte} (h : Memory.wf s.mem) (b : Nat) :
    (s.store a bs).byte b = if a ≤ b ∧ b < a + bs.length then bs.getD (b - a) 0 else s.byte b := tget_tputs h a bs b

end Sys2Proof.Machine
end

