-- ==== Sys2Proof/Laws/State.lean ====
section
/-!
SUPPORT. What the basic updates leave as it was: one lemma per field and update.
-/

namespace Sys2Proof.Machine

variable {s : State}

@[simp] theorem State.rput_mem {a : Nat} {w : Word} : (s.rput a w).mem = s.mem := rfl
@[simp] theorem State.rput_pend {a : Nat} {w : Word} : (s.rput a w).pend = s.pend := rfl
@[simp] theorem State.rput_sys {a : Nat} {w : Word} : (s.rput a w).sys = s.sys := rfl
@[simp] theorem State.rput_evq {a : Nat} {w : Word} : (s.rput a w).evq = s.evq := rfl
@[simp] theorem State.rput_seq {a : Nat} {w : Word} : (s.rput a w).seq = s.seq := rfl
@[simp] theorem State.rput_vfe {a : Nat} {w : Word} : (s.rput a w).vfe = s.vfe := rfl
@[simp] theorem State.rput_adc {a : Nat} {w : Word} : (s.rput a w).adc = s.adc := rfl
@[simp] theorem State.rput_lmp {a : Nat} {w : Word} : (s.rput a w).lmp = s.lmp := rfl
@[simp] theorem State.rput_pxe {a : Nat} {w : Word} : (s.rput a w).pxe = s.pxe := rfl
@[simp] theorem State.rput_eng {a : Nat} {w : Word} : (s.rput a w).eng = s.eng := rfl
@[simp] theorem State.rput_shd {a : Nat} {w : Word} : (s.rput a w).shd = s.shd := rfl
@[simp] theorem State.rput_nzl {a : Nat} {w : Word} : (s.rput a w).nzl = s.nzl := rfl
@[simp] theorem State.rput_trk {a : Nat} {w : Word} : (s.rput a w).trk = s.trk := rfl
@[simp] theorem State.rput_fed {a : Nat} {w : Word} : (s.rput a w).fed = s.fed := rfl
@[simp] theorem State.rput_mot {a : Nat} {w : Word} : (s.rput a w).mot = s.mot := rfl
@[simp] theorem State.rput_pos {a : Nat} {w : Word} : (s.rput a w).pos = s.pos := rfl
@[simp] theorem State.rput_mon {a : Nat} {w : Word} : (s.rput a w).mon = s.mon := rfl
@[simp] theorem State.rput_lff {a : Nat} {w : Word} : (s.rput a w).lff = s.lff := rfl
@[simp] theorem State.rput_dma {a : Nat} {w : Word} : (s.rput a w).dma = s.dma := rfl
@[simp] theorem State.rput_hst {a : Nat} {w : Word} : (s.rput a w).hst = s.hst := rfl
@[simp] theorem State.rput_cmd {a : Nat} {w : Word} : (s.rput a w).cmd = s.cmd := rfl
@[simp] theorem State.rput_cfg {a : Nat} {w : Word} : (s.rput a w).cfg = s.cfg := rfl
@[simp] theorem State.rput_sec {a : Nat} {w : Word} : (s.rput a w).sec = s.sec := rfl
@[simp] theorem State.rput_twb {a : Nat} {w : Word} : (s.rput a w).twb = s.twb := rfl
@[simp] theorem State.rput_dbg {a : Nat} {w : Word} : (s.rput a w).dbg = s.dbg := rfl
@[simp] theorem State.rput_ind {a : Nat} {w : Word} : (s.rput a w).ind = s.ind := rfl
@[simp] theorem State.rput_sent {a : Nat} {w : Word} : (s.rput a w).sent = s.sent := rfl
@[simp] theorem State.rput_fresh {a : Nat} {w : Word} : (s.rput a w).fresh = s.fresh := rfl
@[simp] theorem State.rput_pending {a : Nat} {w : Word} : (s.rput a w).pending = s.pending := rfl

@[simp] theorem State.fput_mem {f : Fld} {v : Nat} : (s.fput f v).mem = s.mem := rfl
@[simp] theorem State.fput_pend {f : Fld} {v : Nat} : (s.fput f v).pend = s.pend := rfl
@[simp] theorem State.fput_sys {f : Fld} {v : Nat} : (s.fput f v).sys = s.sys := rfl
@[simp] theorem State.fput_evq {f : Fld} {v : Nat} : (s.fput f v).evq = s.evq := rfl
@[simp] theorem State.fput_seq {f : Fld} {v : Nat} : (s.fput f v).seq = s.seq := rfl
@[simp] theorem State.fput_vfe {f : Fld} {v : Nat} : (s.fput f v).vfe = s.vfe := rfl
@[simp] theorem State.fput_adc {f : Fld} {v : Nat} : (s.fput f v).adc = s.adc := rfl
@[simp] theorem State.fput_lmp {f : Fld} {v : Nat} : (s.fput f v).lmp = s.lmp := rfl
@[simp] theorem State.fput_pxe {f : Fld} {v : Nat} : (s.fput f v).pxe = s.pxe := rfl
@[simp] theorem State.fput_eng {f : Fld} {v : Nat} : (s.fput f v).eng = s.eng := rfl
@[simp] theorem State.fput_shd {f : Fld} {v : Nat} : (s.fput f v).shd = s.shd := rfl
@[simp] theorem State.fput_nzl {f : Fld} {v : Nat} : (s.fput f v).nzl = s.nzl := rfl
@[simp] theorem State.fput_trk {f : Fld} {v : Nat} : (s.fput f v).trk = s.trk := rfl
@[simp] theorem State.fput_fed {f : Fld} {v : Nat} : (s.fput f v).fed = s.fed := rfl
@[simp] theorem State.fput_mot {f : Fld} {v : Nat} : (s.fput f v).mot = s.mot := rfl
@[simp] theorem State.fput_pos {f : Fld} {v : Nat} : (s.fput f v).pos = s.pos := rfl
@[simp] theorem State.fput_mon {f : Fld} {v : Nat} : (s.fput f v).mon = s.mon := rfl
@[simp] theorem State.fput_lff {f : Fld} {v : Nat} : (s.fput f v).lff = s.lff := rfl
@[simp] theorem State.fput_dma {f : Fld} {v : Nat} : (s.fput f v).dma = s.dma := rfl
@[simp] theorem State.fput_hst {f : Fld} {v : Nat} : (s.fput f v).hst = s.hst := rfl
@[simp] theorem State.fput_cmd {f : Fld} {v : Nat} : (s.fput f v).cmd = s.cmd := rfl
@[simp] theorem State.fput_cfg {f : Fld} {v : Nat} : (s.fput f v).cfg = s.cfg := rfl
@[simp] theorem State.fput_sec {f : Fld} {v : Nat} : (s.fput f v).sec = s.sec := rfl
@[simp] theorem State.fput_twb {f : Fld} {v : Nat} : (s.fput f v).twb = s.twb := rfl
@[simp] theorem State.fput_dbg {f : Fld} {v : Nat} : (s.fput f v).dbg = s.dbg := rfl
@[simp] theorem State.fput_ind {f : Fld} {v : Nat} : (s.fput f v).ind = s.ind := rfl
@[simp] theorem State.fput_sent {f : Fld} {v : Nat} : (s.fput f v).sent = s.sent := rfl
@[simp] theorem State.fput_fresh {f : Fld} {v : Nat} : (s.fput f v).fresh = s.fresh := rfl
@[simp] theorem State.fput_pending {f : Fld} {v : Nat} : (s.fput f v).pending = s.pending := rfl

@[simp] theorem State.wput_mem {a v : Nat} : (s.wput a v).mem = s.mem := rfl
@[simp] theorem State.wput_pend {a v : Nat} : (s.wput a v).pend = s.pend := rfl
@[simp] theorem State.wput_sys {a v : Nat} : (s.wput a v).sys = s.sys := rfl
@[simp] theorem State.wput_evq {a v : Nat} : (s.wput a v).evq = s.evq := rfl
@[simp] theorem State.wput_seq {a v : Nat} : (s.wput a v).seq = s.seq := rfl
@[simp] theorem State.wput_vfe {a v : Nat} : (s.wput a v).vfe = s.vfe := rfl
@[simp] theorem State.wput_adc {a v : Nat} : (s.wput a v).adc = s.adc := rfl
@[simp] theorem State.wput_lmp {a v : Nat} : (s.wput a v).lmp = s.lmp := rfl
@[simp] theorem State.wput_pxe {a v : Nat} : (s.wput a v).pxe = s.pxe := rfl
@[simp] theorem State.wput_eng {a v : Nat} : (s.wput a v).eng = s.eng := rfl
@[simp] theorem State.wput_shd {a v : Nat} : (s.wput a v).shd = s.shd := rfl
@[simp] theorem State.wput_nzl {a v : Nat} : (s.wput a v).nzl = s.nzl := rfl
@[simp] theorem State.wput_trk {a v : Nat} : (s.wput a v).trk = s.trk := rfl
@[simp] theorem State.wput_fed {a v : Nat} : (s.wput a v).fed = s.fed := rfl
@[simp] theorem State.wput_mot {a v : Nat} : (s.wput a v).mot = s.mot := rfl
@[simp] theorem State.wput_pos {a v : Nat} : (s.wput a v).pos = s.pos := rfl
@[simp] theorem State.wput_mon {a v : Nat} : (s.wput a v).mon = s.mon := rfl
@[simp] theorem State.wput_lff {a v : Nat} : (s.wput a v).lff = s.lff := rfl
@[simp] theorem State.wput_dma {a v : Nat} : (s.wput a v).dma = s.dma := rfl
@[simp] theorem State.wput_hst {a v : Nat} : (s.wput a v).hst = s.hst := rfl
@[simp] theorem State.wput_cmd {a v : Nat} : (s.wput a v).cmd = s.cmd := rfl
@[simp] theorem State.wput_cfg {a v : Nat} : (s.wput a v).cfg = s.cfg := rfl
@[simp] theorem State.wput_sec {a v : Nat} : (s.wput a v).sec = s.sec := rfl
@[simp] theorem State.wput_twb {a v : Nat} : (s.wput a v).twb = s.twb := rfl
@[simp] theorem State.wput_dbg {a v : Nat} : (s.wput a v).dbg = s.dbg := rfl
@[simp] theorem State.wput_ind {a v : Nat} : (s.wput a v).ind = s.ind := rfl
@[simp] theorem State.wput_sent {a v : Nat} : (s.wput a v).sent = s.sent := rfl
@[simp] theorem State.wput_fresh {a v : Nat} : (s.wput a v).fresh = s.fresh := rfl
@[simp] theorem State.wput_pending {a v : Nat} : (s.wput a v).pending = s.pending := rfl

@[simp] theorem State.store_regs {a : Nat} {bs : List Byte} : (s.store a bs).regs = s.regs := rfl
@[simp] theorem State.store_pend {a : Nat} {bs : List Byte} : (s.store a bs).pend = s.pend := rfl
@[simp] theorem State.store_sys {a : Nat} {bs : List Byte} : (s.store a bs).sys = s.sys := rfl
@[simp] theorem State.store_evq {a : Nat} {bs : List Byte} : (s.store a bs).evq = s.evq := rfl
@[simp] theorem State.store_seq {a : Nat} {bs : List Byte} : (s.store a bs).seq = s.seq := rfl
@[simp] theorem State.store_vfe {a : Nat} {bs : List Byte} : (s.store a bs).vfe = s.vfe := rfl
@[simp] theorem State.store_adc {a : Nat} {bs : List Byte} : (s.store a bs).adc = s.adc := rfl
@[simp] theorem State.store_lmp {a : Nat} {bs : List Byte} : (s.store a bs).lmp = s.lmp := rfl
@[simp] theorem State.store_pxe {a : Nat} {bs : List Byte} : (s.store a bs).pxe = s.pxe := rfl
@[simp] theorem State.store_eng {a : Nat} {bs : List Byte} : (s.store a bs).eng = s.eng := rfl
@[simp] theorem State.store_shd {a : Nat} {bs : List Byte} : (s.store a bs).shd = s.shd := rfl
@[simp] theorem State.store_nzl {a : Nat} {bs : List Byte} : (s.store a bs).nzl = s.nzl := rfl
@[simp] theorem State.store_trk {a : Nat} {bs : List Byte} : (s.store a bs).trk = s.trk := rfl
@[simp] theorem State.store_fed {a : Nat} {bs : List Byte} : (s.store a bs).fed = s.fed := rfl
@[simp] theorem State.store_mot {a : Nat} {bs : List Byte} : (s.store a bs).mot = s.mot := rfl
@[simp] theorem State.store_pos {a : Nat} {bs : List Byte} : (s.store a bs).pos = s.pos := rfl
@[simp] theorem State.store_mon {a : Nat} {bs : List Byte} : (s.store a bs).mon = s.mon := rfl
@[simp] theorem State.store_lff {a : Nat} {bs : List Byte} : (s.store a bs).lff = s.lff := rfl
@[simp] theorem State.store_dma {a : Nat} {bs : List Byte} : (s.store a bs).dma = s.dma := rfl
@[simp] theorem State.store_hst {a : Nat} {bs : List Byte} : (s.store a bs).hst = s.hst := rfl
@[simp] theorem State.store_cmd {a : Nat} {bs : List Byte} : (s.store a bs).cmd = s.cmd := rfl
@[simp] theorem State.store_cfg {a : Nat} {bs : List Byte} : (s.store a bs).cfg = s.cfg := rfl
@[simp] theorem State.store_sec {a : Nat} {bs : List Byte} : (s.store a bs).sec = s.sec := rfl
@[simp] theorem State.store_twb {a : Nat} {bs : List Byte} : (s.store a bs).twb = s.twb := rfl
@[simp] theorem State.store_dbg {a : Nat} {bs : List Byte} : (s.store a bs).dbg = s.dbg := rfl
@[simp] theorem State.store_ind {a : Nat} {bs : List Byte} : (s.store a bs).ind = s.ind := rfl
@[simp] theorem State.store_sent {a : Nat} {bs : List Byte} : (s.store a bs).sent = s.sent := rfl
@[simp] theorem State.store_fresh {a : Nat} {bs : List Byte} : (s.store a bs).fresh = s.fresh := rfl
@[simp] theorem State.store_pending {a : Nat} {bs : List Byte} : (s.store a bs).pending = s.pending := rfl

@[simp] theorem State.clear_regs {a n : Nat} : (s.clear a n).regs = s.regs := rfl
@[simp] theorem State.clear_pend {a n : Nat} : (s.clear a n).pend = s.pend := rfl
@[simp] theorem State.clear_sys {a n : Nat} : (s.clear a n).sys = s.sys := rfl
@[simp] theorem State.clear_evq {a n : Nat} : (s.clear a n).evq = s.evq := rfl
@[simp] theorem State.clear_seq {a n : Nat} : (s.clear a n).seq = s.seq := rfl
@[simp] theorem State.clear_vfe {a n : Nat} : (s.clear a n).vfe = s.vfe := rfl
@[simp] theorem State.clear_adc {a n : Nat} : (s.clear a n).adc = s.adc := rfl
@[simp] theorem State.clear_lmp {a n : Nat} : (s.clear a n).lmp = s.lmp := rfl
@[simp] theorem State.clear_pxe {a n : Nat} : (s.clear a n).pxe = s.pxe := rfl
@[simp] theorem State.clear_eng {a n : Nat} : (s.clear a n).eng = s.eng := rfl
@[simp] theorem State.clear_shd {a n : Nat} : (s.clear a n).shd = s.shd := rfl
@[simp] theorem State.clear_nzl {a n : Nat} : (s.clear a n).nzl = s.nzl := rfl
@[simp] theorem State.clear_trk {a n : Nat} : (s.clear a n).trk = s.trk := rfl
@[simp] theorem State.clear_fed {a n : Nat} : (s.clear a n).fed = s.fed := rfl
@[simp] theorem State.clear_mot {a n : Nat} : (s.clear a n).mot = s.mot := rfl
@[simp] theorem State.clear_pos {a n : Nat} : (s.clear a n).pos = s.pos := rfl
@[simp] theorem State.clear_mon {a n : Nat} : (s.clear a n).mon = s.mon := rfl
@[simp] theorem State.clear_lff {a n : Nat} : (s.clear a n).lff = s.lff := rfl
@[simp] theorem State.clear_dma {a n : Nat} : (s.clear a n).dma = s.dma := rfl
@[simp] theorem State.clear_hst {a n : Nat} : (s.clear a n).hst = s.hst := rfl
@[simp] theorem State.clear_cmd {a n : Nat} : (s.clear a n).cmd = s.cmd := rfl
@[simp] theorem State.clear_cfg {a n : Nat} : (s.clear a n).cfg = s.cfg := rfl
@[simp] theorem State.clear_sec {a n : Nat} : (s.clear a n).sec = s.sec := rfl
@[simp] theorem State.clear_twb {a n : Nat} : (s.clear a n).twb = s.twb := rfl
@[simp] theorem State.clear_dbg {a n : Nat} : (s.clear a n).dbg = s.dbg := rfl
@[simp] theorem State.clear_ind {a n : Nat} : (s.clear a n).ind = s.ind := rfl
@[simp] theorem State.clear_sent {a n : Nat} : (s.clear a n).sent = s.sent := rfl
@[simp] theorem State.clear_fresh {a n : Nat} : (s.clear a n).fresh = s.fresh := rfl
@[simp] theorem State.clear_pending {a n : Nat} : (s.clear a n).pending = s.pending := rfl

@[simp] theorem State.out_regs {o : Output} : (s.out o).regs = s.regs := rfl
@[simp] theorem State.out_mem {o : Output} : (s.out o).mem = s.mem := rfl
@[simp] theorem State.out_pend {o : Output} : (s.out o).pend = s.pend := rfl
@[simp] theorem State.out_sys {o : Output} : (s.out o).sys = s.sys := rfl
@[simp] theorem State.out_evq {o : Output} : (s.out o).evq = s.evq := rfl
@[simp] theorem State.out_seq {o : Output} : (s.out o).seq = s.seq := rfl
@[simp] theorem State.out_vfe {o : Output} : (s.out o).vfe = s.vfe := rfl
@[simp] theorem State.out_adc {o : Output} : (s.out o).adc = s.adc := rfl
@[simp] theorem State.out_lmp {o : Output} : (s.out o).lmp = s.lmp := rfl
@[simp] theorem State.out_pxe {o : Output} : (s.out o).pxe = s.pxe := rfl
@[simp] theorem State.out_eng {o : Output} : (s.out o).eng = s.eng := rfl
@[simp] theorem State.out_shd {o : Output} : (s.out o).shd = s.shd := rfl
@[simp] theorem State.out_nzl {o : Output} : (s.out o).nzl = s.nzl := rfl
@[simp] theorem State.out_trk {o : Output} : (s.out o).trk = s.trk := rfl
@[simp] theorem State.out_fed {o : Output} : (s.out o).fed = s.fed := rfl
@[simp] theorem State.out_mot {o : Output} : (s.out o).mot = s.mot := rfl
@[simp] theorem State.out_pos {o : Output} : (s.out o).pos = s.pos := rfl
@[simp] theorem State.out_mon {o : Output} : (s.out o).mon = s.mon := rfl
@[simp] theorem State.out_lff {o : Output} : (s.out o).lff = s.lff := rfl
@[simp] theorem State.out_dma {o : Output} : (s.out o).dma = s.dma := rfl
@[simp] theorem State.out_hst {o : Output} : (s.out o).hst = s.hst := rfl
@[simp] theorem State.out_cmd {o : Output} : (s.out o).cmd = s.cmd := rfl
@[simp] theorem State.out_cfg {o : Output} : (s.out o).cfg = s.cfg := rfl
@[simp] theorem State.out_sec {o : Output} : (s.out o).sec = s.sec := rfl
@[simp] theorem State.out_twb {o : Output} : (s.out o).twb = s.twb := rfl
@[simp] theorem State.out_dbg {o : Output} : (s.out o).dbg = s.dbg := rfl
@[simp] theorem State.out_ind {o : Output} : (s.out o).ind = s.ind := rfl
@[simp] theorem State.out_fresh {o : Output} : (s.out o).fresh = s.fresh := rfl
@[simp] theorem State.out_pending {o : Output} : (s.out o).pending = s.pending := rfl

end Sys2Proof.Machine
end

