-- ==== Sys2Proof/WellFormed.lean ====
section
/-!
DEFINITION. Well-formed commands: the shapes of the operands that the rules fix and the types leave open. The meanings are
total and do not rest on these checks.
-/

namespace Sys2Proof

/-- Number of engines of a kind (R140, R187, R200). -/
def EngKind.count : EngKind → Nat
  | .pixel => 48
  | .nozzle => 24
  | .correlator => 16

/-- A command entry holds argument words 0 to 12 (R343). -/
def CmdEntry.wf (e : CmdEntry) : Bool := e.args.length == 13

/-- What a tap shows (R41): 8 sable samples, at least one active sample, codes of 14 bits. -/
def TapRead.wf (r : TapRead) : Bool :=
  r.sable.length == 8 && !r.active.isEmpty && (r.sable ++ r.active).all (fun c => decide (c < 2 ^ 14))

/-- A readout brings four taps (R41). -/
def Readout.wf (r : Readout) : Bool := r.taps.length == 4 && r.taps.all TapRead.wf

/-- A training brings 64 coarse points, 16 rows of 32 fine points and 64 final points (R50), each not measured or of two
readouts of 1,280 samples. -/
def TapTrain.wf (t : TapTrain) : Bool :=
  t.coarse.length == 64 && t.fine.length == 16 && t.fine.all (fun r => r.length == 32) && t.final.length == 64 &&
    (t.coarse ++ t.fine.flatten ++ t.final).all (fun p => p.isEmpty || p.length == 2560)

/-- A segment's bring-up brings the levels and the common modes of four taps (R63, R64). -/
def SegBringup.wf (b : SegBringup) : Bool := b.levels.length == 4 && b.loop.length == 4

/-- An absolute frame brings at least one sample (R257). -/
def AbsFrame.wf (f : AbsFrame) : Bool := !f.samples.isEmpty

/-- A chop period brings the 125 codes of each role of each half (R271), and the common-mode readings of 16 channels
(R286). -/
def ChopIn.wf (c : ChopIn) : Bool :=
  c.cm.length == 16 && [c.plus0, c.plus1, c.minus0, c.minus1].all (fun l => l.length == 125)

/-- A response of entries brings entries of 64 bytes, at most 8 (R339, R343). -/
def ReadData.wf : ReadData → Bool
  | .credits _ _ => true
  | .entries es => decide (es.length ≤ 8) && es.all (fun e => e.length == 64)
  | .data bytes => decide (bytes.length ≤ 4096)

/-- A register address is a multiple of 4 (R7). -/
def wordAddr (a : Word) : Bool := a.toNat % 4 == 0

/-- Well-formed commands. -/
def Instr.wf : Instr → Bool
  | .registerWrite _ a _ => wordAddr a
  | .rcRead _ a => wordAddr a
  | .multiwordRead _ a => wordAddr a
  | .multiwordWrite _ a _ => wordAddr a
  | .safeClear e => e.wf
  | .readoutComplete _ r => r.wf
  | .voltageModeSwitch _ _ _ _ _ loop => loop.length == 4
  | .trainDone ts => ts.all TapTrain.wf
  | .segmentBringup bs => bs.all SegBringup.wf
  | .engineParityError k e => decide (e.val < k.count)
  | .engineTestWrite _ k e _ => decide (e.val < k.count)
  | .engineHoldWrite _ k e _ => decide (e.val < k.count)
  | .engineTestDone k e _ _ => decide (e.val < k.count)
  | .bankCommit e => e.wf
  | .calStart e => e.wf
  | .contextExport e => e.wf
  | .move e => e.wf
  | .advance e => e.wf
  | .jobStart e => e.wf
  | .jobStop e => e.wf
  | .absFrameDone _ f => f.wf
  | .chopPeriodBoundary c => c.wf
  | .dmaDescStart _ b => decide (b.length ≤ 64)
  | .dmaBurstGrant b _ => decide (b.length ≤ 4096)
  | .readResponse _ _ r => r.wf
  | .nop e => e.wf
  | .regWrite e => e.wf
  | .regRead e => e.wf
  | .tableLoad e => e.wf
  | .indicate e => e.wf
  | .snapshot e => e.wf
  | .unknownOpcode op e => decide (0x0E ≤ op.toNat) && e.wf
  | .imageHeadersRead a b => decide (a.length ≤ 128) && decide (b.length ≤ 128)
  | _ => true

end Sys2Proof
end

