-- ==== Sys2Proof/Tests/Slice0.lean ====
section
/-!
SUPPORT. The tests: each check of WellFormed refuses an ill-formed command; the witnesses of the statements' hypotheses, one
theorem for each statement that has hypotheses, with a state and operands for each of its clauses.
-/

namespace Sys2Proof.Machine

/-- An entry with thirteen argument words of 0. -/
def goodEntry : CmdEntry := { tag := 7, flags := 0, args := List.replicate 13 0 }

/-- An entry without argument words. -/
def badEntry : CmdEntry := { tag := 7, flags := 0, args := [] }

theorem test_wf_entry_good : (Instr.nop goodEntry).wf = true := by decide
theorem test_wf_register_write : (Instr.registerWrite .ring 2 0).wf = false := by decide
theorem test_wf_rc_read : (Instr.rcRead .ring 3 ).wf = false := by decide
theorem test_wf_multiword_read : (Instr.multiwordRead .twb 1).wf = false := by decide
theorem test_wf_multiword_write : (Instr.multiwordWrite .twb 1 0).wf = false := by decide
theorem test_wf_entries : [Instr.safeClear badEntry, .bankCommit badEntry, .calStart badEntry, .contextExport badEntry,
    .move badEntry, .advance badEntry, .jobStart badEntry, .jobStop badEntry, .nop badEntry, .regWrite badEntry,
    .regRead badEntry, .tableLoad badEntry, .indicate badEntry, .snapshot badEntry, .unknownOpcode 0x0E badEntry].all
      (fun c => !c.wf) = true := by decide
theorem test_wf_unknown_opcode : (Instr.unknownOpcode 0x0D goodEntry).wf = false := by decide
theorem test_wf_readout : (Instr.readoutComplete 0 { taps := [] }).wf = false := by decide
theorem test_wf_tap : TapRead.wf { sable := List.replicate 8 0, active := [2 ^ 14], errEven := none, errOdd := none, loopUa := 0 } = false := by
  decide
theorem test_wf_train : (Instr.trainDone [{ seg := 0, tap := 0, coarse := [], fine := [], final := [], loopUa := 0 }]).wf = false := by decide
theorem test_wf_bringup : (Instr.segmentBringup [{ seg := 0, replies := [], idHi := 0, idLo := 0, caps := 0, levels := [], loop := [] }]).wf
    = false := by decide
theorem test_wf_engine_parity : (Instr.engineParityError .correlator 16).wf = false := by decide
theorem test_wf_engine_test : (Instr.engineTestWrite .ring .nozzle 24 0).wf = false := by decide
theorem test_wf_engine_hold : (Instr.engineHoldWrite .ring .nozzle 24 0).wf = false := by decide
theorem test_wf_engine_done : (Instr.engineTestDone .correlator 16 true 0).wf = false := by decide
theorem test_wf_chop : (Instr.chopPeriodBoundary ⟨[], [], [], [], false, false, []⟩).wf = false := by decide
theorem test_wf_chop_codes : (Instr.chopPeriodBoundary ⟨[], [], [], [], false, false, List.replicate 16 []⟩).wf = false := by
  decide
theorem test_wf_burst : (Instr.dmaBurstGrant (List.replicate 4097 0) false).wf = false := by
  show decide ((List.replicate 4097 (0 : BitVec 8)).length ≤ 4096) = false
  rw [List.length_replicate]; rfl
theorem test_wf_frame : AbsFrame.wf ⟨true, [], 0⟩ = false := by decide
theorem test_wf_desc : (Instr.dmaDescStart 0 (List.replicate 65 0)).wf = false := by decide
/-- A frame received without error, to every station. -/
def wFrameIn : RxFrame := { dmac := 0xFFFFFFFFFFFF, vlan := none, corr := 0, uncorr := 0 }

theorem test_wf_response : (Instr.readResponse 0 wFrameIn (.entries [[]])).wf = false := by decide
theorem test_wf_headers : (Instr.imageHeadersRead (List.replicate 129 0) []).wf = false := by
  simp [Instr.wf]

/-- A word with a field at a value and every other bit 0. -/
def wWord (f : Fld) (v : Nat) : Word := BitVec.ofNat 32 (v * 2 ^ f.lo)

/-- The state after reset with an image in force, so that every block answers (R382). -/
def wOn : State := State.reset.fput Reg.sysState_loaded 1

/-- `wOn` with fields at given values. -/
def wSet (l : List (Fld × Nat)) : State := l.foldl (fun s x => s.fput x.1 x.2) wOn

/-- An entry whose first argument words are given, the rest 0. -/
def wEntry (l : List Nat) : CmdEntry :=
  { tag := 7, flags := 0, args := (l.map (fun x => (BitVec.ofNat 32 x : Word))) ++ List.replicate (13 - l.length) 0 }

/-- A state with one command at the head of the ring. -/
def wHead (s : State) (op : Nat) (e : CmdEntry) : State :=
  { s with cmd := { s.cmd with taken := [{ op := op, entry := e, bad := false }] } }

theorem witness_sound : State.reset.Sound := ⟨by decide, by decide, by decide⟩

theorem witness_sound_on : wOn.Sound := ⟨by decide, by decide, by decide⟩

theorem witness_EmptyQueueIdles :
    (State.reset.pending = [] ∧ State.reset.cfg.held = false) ∧ (∃ s : State, s.pending = [] ∧ s.cfg.held = true) :=
  ⟨⟨rfl, rfl⟩, { State.reset with cfg := { CfgSt.init with held := true } }, rfl, rfl⟩

theorem witness_OnlyFuseDoneChangesFuses :
    State.reset.Sound ∧ ∀ ok, Instr.refclkFault = .fuseDone ok →
      ok = false ∨ State.reset.sec.burning = none ∨ State.reset.cfg.held = true ∨ State.reset.sys.ctlLost = true :=
  ⟨witness_sound, fun _ _ => .inr (.inl rfl)⟩

theorem witness_RegisterWriteSetsRwFields :
    (State.reset.accepts .ring Reg.sysTsyncCtrl 3 ∧
      (findReg (0xFFFFFFFC : Word).toNat = none ∧ wOn.accepts .twb (0xFFFFFFFC : Word).toNat 1)) ∧
    (∃ a v : Word, ∃ d : RegDesc, wOn.Sound ∧ findReg a.toNat = some d ∧ d.writes = true ∧ writeGroup a.toNat = none ∧
      chanAt a.toNat = none ∧ a.toNat ≠ Reg.sysSafeCause ∧ a.toNat ≠ Reg.shdBank ∧ wOn.accepts .ring a.toNat v ∧
      ∃ f ∈ d.flds, f.acc = .rw ∧ (wOn.running = true → famIx Reg.lmpZoneCfg 64 a.toNat = none)) :=
  ⟨by decide, BitVec.ofNat 32 (Reg.lmpZoneCfg 63), 1, (findReg (Reg.lmpZoneCfg 63)).get (by decide), witness_sound_on, by decide⟩

theorem witness_RefusedWriteRaisesRegRefused :
    (State.reset.reaches .ring ∧ State.reset.regReason .ring Reg.pxeDeckle0 0 ≠ 0 ∧ writeGroup 0xFFFFFFFC = none) ∧
      (State.reset.reaches .twb ∧ State.reset.regReason .twb Reg.lmpCtrl 0 ≠ 0 ∧ writeGroup Reg.lmpCtrl = none) := by
  decide

theorem witness_RcReadAnswersAndClears :
    State.reset.reaches .ring ∧ State.reset.viewOn .ring = false ∧ State.reset.Sound :=
  ⟨by decide, by decide, witness_sound⟩

theorem witness_MultiwordWriteHeldUntilHighest :
    wOn.accepts .ring Reg.pxeDeckle0 0 ∧ wOn.accepts .ring Reg.pxeDeckle1 256 := by decide

theorem witness_HeartbeatBringsBackIslands :
    (State.reset.Sound ∧ State.reset.controlled) ∧
    (∃ i : Fin 76, 64 ≤ i.val ∧ i.val < 73 ∧ State.reset.controlled ∧ State.reset.beats i.val = true ∧
      State.reset.alive i.val = true) ∧
    (∃ i : Fin 76, 73 < i.val ∧ State.reset.controlled ∧ State.reset.beats i.val = true ∧
      State.reset.alive i.val = true) ∧
    (∃ s : State, ∃ i : Fin 76, i.val < 64 ∧ s.controlled ∧ s.beats i.val = true ∧ s.alive i.val = true) ∧
    (State.reset.up ∧ State.reset.sys.ctlLost = false) ∧ (∃ s : State, s.up ∧ s.sys.ctlLost = true) :=
  ⟨⟨witness_sound, by decide⟩, ⟨64, by decide⟩, ⟨75, by decide⟩,
    ⟨(wSet [(⟨Reg.vfeSegEn0, 0, 1⟩, 1)]).setAlive 0 true, 0, by decide⟩, by decide,
    ⟨{ wOn with sys := { wOn.sys with ctlLost := true } }, by decide⟩⟩

theorem witness_CommitHold :
    State.reset.accepts .ring Reg.sysCommitHold 1 ∧ (∃ s : State, s.controlled ∧ 65536 < s.sys.lbHoldLines) ∧
      (State.reset.controlled ∧ State.reset.sys.lbHoldLines ≤ 65536) ∧
    (∃ s : State, s.holds .mb 7 = true) ∧
    (∃ s : State, ∃ p, s.holds .mb 7 = false ∧ s.Sound ∧ s.pend = [p] ∧ p.isOf .mb 7 = true ∧
      (s.pend.filter (fun q => q.isOf .mb 7 && q.addr == p.addr)).length = 1 ∧ p.addr ≠ Reg.motAxSpeed 6) :=
  ⟨by decide, ⟨{ wOn with sys := { wOn.sys with lbHoldLines := 65537 } }, by decide⟩, by decide,
    ⟨wSet [(Reg.sysCommitHold_mb, 128)], by decide⟩,
    ⟨{ wSet [(Reg.sysCommitHold_mb, 127)] with
        pend := [{ cls := .mb, axis := 7, addr := Reg.motAxSpeed 7, mask := 1, val := 1, stuck := false }] },
      { cls := .mb, axis := 7, addr := Reg.motAxSpeed 7, mask := 1, val := 1, stuck := false }, by decide, ⟨by decide, by decide, by decide⟩,
      by decide⟩⟩

theorem witness_SnapshotRequestAndTake :
    (State.reset.accepts .ring Reg.sysSnapCtrl (wWord Reg.sysSnapCtrl_req 1) ∧
      fld (wWord Reg.sysSnapCtrl_req 1).toNat Reg.sysSnapCtrl_req = 1) ∧
    (∃ s : State, s.Sound ∧ s.controlled ∧ s.sys.snapPend = true) ∧
    (State.reset.accepts .twb Reg.sysSnapCtrl (wWord Reg.sysSnapCtrl_req 1 ||| wWord Reg.sysSnapCtrl_view 1) ∧
      fld (wWord Reg.sysSnapCtrl_req 1 ||| wWord Reg.sysSnapCtrl_view 1).toNat Reg.sysSnapCtrl_req = 1) ∧
    (wHead wOn 0x0C (wEntry [])).atHead 0x0C (wEntry []) [] :=
  ⟨by decide, ⟨{ State.reset with sys := { State.reset.sys with snapPend := true } },
    ⟨by decide, by decide, by decide⟩, by decide, rfl⟩, by decide, by decide⟩

theorem witness_TsyncEdge :
    (∃ s : State, s.Sound ∧ s.controlled ∧ s.flag Reg.sysTsyncCtrl_en = true ∧ s.flag Reg.sysTsyncCtrl_pol = false ∧
      s.sys.tsyncLast = none) ∧
    (∃ s : State, s.Sound ∧ s.controlled ∧ s.flag Reg.sysTsyncCtrl_en = true ∧ s.flag Reg.sysTsyncCtrl_pol = false ∧
      s.sys.tsyncLast = some 0 ∧ 0 + 1000 ≤ s.sys.now) ∧
    (∃ s : State, s.Sound ∧ s.controlled ∧ s.flag Reg.sysTsyncCtrl_en = true ∧ s.flag Reg.sysTsyncCtrl_pol = false ∧
      s.sys.tsyncLast = some 0 ∧ s.sys.now < 0 + 1000) ∧
    (State.reset.Sound ∧ State.reset.controlled ∧ State.reset.flag Reg.sysTsyncCtrl_en = false) := by
  refine ⟨⟨wSet [(Reg.sysTsyncCtrl_en, 1)], ⟨?_, ?_, ?_⟩, ?_⟩,
    ⟨{ wSet [(Reg.sysTsyncCtrl_en, 1)] with sys := { SysSt.init with tsyncLast := some 0, now := 1000 } },
      ⟨?_, ?_, ?_⟩, ?_⟩,
    ⟨{ wSet [(Reg.sysTsyncCtrl_en, 1)] with sys := { SysSt.init with tsyncLast := some 0, now := 998 } },
      ⟨?_, ?_, ?_⟩, ?_⟩, witness_sound, ?_⟩ <;> decide

theorem witness_TimeCorrection : State.reset.controlled := by decide

theorem witness_ExternalSafe :
    (State.reset.controlled ∧ State.reset.sys.safeNLow = false) ∧ (∃ s : State, s.controlled ∧ s.sys.safeNLow = true) :=
  ⟨by decide, { wOn with sys := { wOn.sys with safeNLow := true } }, by decide⟩

theorem witness_SafeCausesArise :
    (∃ s : State, s.controlled ∧ s.running = true ∧ s.portUp 0 = false ∧ s.portUp 1 = false) ∧
    (∃ s : State, s.controlled ∧ s.lampOn = true) ∧
    State.reset.accepts .ring Reg.sysSafeForce 0x5AFE0001 :=
  ⟨⟨wSet [(Reg.sysState_run, 1)], by decide⟩,
    ⟨({ wOn with lmp := { wOn.lmp with str := [(0, { StrSt.init with force := { StrVal.init with i := 1, t := 1 } })] } }.fput
      Reg.lmpStat_lamp_en 1).fput (Reg.lmpZoneCfg_en 0) 1, by decide⟩, by decide⟩

theorem witness_EnterSafeLeaves : State.reset.Sound ∧ State.reset.isSafe = false := ⟨witness_sound, by decide⟩

theorem witness_SafeConditionsEnd :
    (∃ s : State, s.Sound ∧ s.controlled ∧ s.sys.refOut = true) ∧
      (∃ s : State, s.Sound ∧ s.controlled ∧ s.sys.railsOut = [.core]) :=
  ⟨⟨{ State.reset with sys := { SysSt.init with refOut := true } }, ⟨by decide, by decide, by decide⟩, by decide⟩,
    ⟨{ State.reset with sys := { SysSt.init with railsOut := [.core] } }, ⟨by decide, by decide, by decide⟩, by decide⟩⟩

theorem witness_SafeClearSequence :
    (wHead wOn 0x0D (wEntry [])).atHead 0x0D (wEntry []) [] ∧
    (∃ s : State, s.controlled ∧ s.sys.safeClear = some (wEntry []) ∧ s.sys.extLow = false) ∧
    (State.reset.Sound ∧ State.reset.accepts .ring Reg.sysSafeCause 1) ∧
    (∃ s : State, s.up ∧ s.isSafe = true) :=
  ⟨by decide, ⟨{ wOn with sys := { wOn.sys with safeClear := some (wEntry []) } }, by decide⟩,
    ⟨witness_sound, by decide⟩, ⟨wSet [(Reg.sysState_safe, 1)], by decide⟩⟩

theorem witness_LineStart :
    (∃ s : State, s.controlled ∧ s.triggerLine = some (0, false) ∧ s.linesByEdge = false ∧ s.linePos 0 * 2 ^ 32 < s.mot.f ∧
      s.seq.held = none ∧ ({ s with seq := { s.seq with next := 1 } } : State).lineBusy = false) ∧
    (∃ s : State, s.controlled ∧ s.triggerLine = some (0, false) ∧ s.linesByEdge = false ∧ s.linePos 0 * 2 ^ 32 < s.mot.f ∧
      s.seq.held = none ∧ ({ s with seq := { s.seq with next := 1 } } : State).lineBusy = true) ∧
    (∃ s : State, s.controlled ∧ s.triggerLine = some (0, false) ∧ s.linesByEdge = false ∧ s.linePos 0 * 2 ^ 32 < s.mot.f ∧
      s.seq.held ≠ none) ∧
    (∃ s : State, s.controlled ∧ s.seq.held = some (3, 0, 0) ∧ s.seq.waitFlush = false ∧ s.vfe.flush = 0 ∧
      (s.seq.cur ≠ none → s.seq.phases ≤ s.seq.started) ∧ (s.seq.cur = none → s.vfe.reads = [])) := by
  let r := wSet [(Reg.sysState_run, 1), (Reg.sysState_regime, 1)]
  let r : State := { r with mot := { r.mot with f := 1 } }
  exact ⟨⟨{ r with seq := { SeqSt.init with armed := true } }, by decide⟩,
    ⟨{ r with seq := { SeqSt.init with armed := true, cur := some 7 } }, by decide⟩,
    ⟨{ r with seq := { SeqSt.init with armed := true, held := some (0, 0, 0) } }, by decide⟩,
    ⟨{ r with seq := { SeqSt.init with held := some (3, 0, 0) } }, by decide⟩⟩

/-- A state once the clamps of a segment's taps have been updated without a sum. -/
def wClamped (s : State) (seg k : Nat) : State := (List.range 4).foldl (fun s t => (s.clampUpdate seg t k none).2) s

/-- Line 7 in staging, with a block of tap 3 of segment 63 to do. -/
def wPline : PLine :=
  { n := 7, cfg := LineCfg.init, left := [(0, .tap 63 3)], due := [], wait := [], resv := 0, suspect := false, runs := [],
    edges := [], drift := [], part := [], lastStaged := none }

/-- A staging unit in use. -/
def wUnit : StageUnit := { seg := 0, line := 0, phase := 0, left := [0], clamp := [], nodata := [] }

theorem witness_PhasesAndStrobes :
    (∃ s : State, s.controlled ∧ s.seq.cur = some 0 ∧ s.seq.started < s.seq.phases) ∧
    (∃ s : State, s.controlled ∧ s.seq.cur = some 0 ∧ s.seq.phases ≤ s.seq.started ∧ s.seq.held = none ∧ s.isSafe = false ∧
      s.vfe.stopping = false) ∧
    (∃ s : State, s.controlled ∧ s.lmp.rise = some 0) ∧
    (∃ s : State, s.controlled ∧ s.lmp.offArmed = true ∧ s.lmp.strobe = [] ∧ s.lmp.rise = none) ∧
    (∃ s : State, s.up ∧ tget (fun _ => []) s.vfe.reads 63 = [{ charge := .idle, slices := [] }]) ∧
    (∃ s : State, s.up ∧ tget (fun _ => []) s.vfe.reads 63 = []) ∧
    (∃ s : State, s.up ∧ tget (fun _ => []) s.vfe.reads 63 = [{ charge := .line 7 3, slices := [] }]) ∧
    (∃ s : State, s.up ∧ tget (fun _ => []) s.vfe.reads 63 = [{ charge := .cal 7 0, slices := [] }]) ∧
    (∃ s : State, tget (fun _ => none) s.pxe.acc (16 * 63 + 4 * 3 + 3) = some (-1)) ∧
    (∃ s : State, tget (fun _ => none) s.pxe.acc (16 * 63 + 4 * 3 + 3) = none) ∧
    (∃ s : State, ∃ q, s.pline 7 = some q ∧ (wClamped s 63 0).freeUnit = none) ∧
    (∃ s : State, ∃ q, s.pline 7 = some q ∧ (wClamped s 63 0).freeUnit = some 0 ∧ (0, BlkKind.tap 63 3) ∈ q.left) ∧
    (∃ s : State, s.controlled ∧ s.vfe.flush ≠ 0 ∧ s.lmp.delivering = false ∧ s.isSafe = false ∧ s.vfe.toVolt = []) := by
  let reads (l : List Pulse) : State := { wOn with vfe := { VfeSt.init with reads := [(63, l)] } }
  exact ⟨⟨{ wOn with seq := { SeqSt.init with cur := some 0, phases := 1 } }, by decide⟩,
    ⟨{ wOn with seq := { SeqSt.init with cur := some 0, phases := 1, started := 1 } }, by decide⟩,
    ⟨{ wOn with lmp := { LmpSt.init with rise := some 0 } }, by decide⟩,
    ⟨{ wOn with lmp := { LmpSt.init with offArmed := true } }, by decide⟩,
    ⟨reads [{ charge := .idle, slices := [] }], by decide⟩, ⟨wOn, by decide⟩,
    ⟨reads [{ charge := .line 7 3, slices := [] }], by decide⟩, ⟨reads [{ charge := .cal 7 0, slices := [] }], by decide⟩,
    ⟨{ wOn with pxe := { PxeSt.init with acc := [(1023, some (-1))] } }, by decide⟩, ⟨wOn, by decide⟩,
    ⟨{ wOn with pxe := { PxeSt.init with lines := [wPline], unit := (List.range 204).map (fun u => (u, some wUnit)) } }, wPline,
      by decide +kernel⟩,
    ⟨{ wOn with pxe := { PxeSt.init with lines := [wPline] } }, wPline, by decide +kernel⟩,
    ⟨{ wOn with vfe := { VfeSt.init with flush := 2 } }, by decide⟩⟩

theorem witness_TrainingRuns :
    (∃ s : State, s.accepts .ring Reg.vfeCtrl (wWord Reg.vfeCtrl_train 1) ∧
      fld (wWord Reg.vfeCtrl_train 1).toNat Reg.vfeCtrl_train = 1) ∧
    (∃ s : State, s.controlled ∧ s.flag Reg.vfeStat_busy = true) ∧ (∃ s : State, s.controlled ∧ s.bringDue = true) :=
  ⟨⟨(wSet [(Reg.cfgStat_ready, 1)]), by decide⟩, ⟨wSet [(Reg.vfeStat_busy, 1)], by decide⟩,
    ⟨wSet [(Reg.adcStat_start_done, 1), (Reg.cfgStat_step, 8)], by decide⟩⟩

/-- A couch in progress. -/
def wCouch : Couch := { n := 0, pc := 0, back := 0, backDone := true, overlap := 0 }

theorem witness_LoopBrokenAndFallback :
    (∃ s : State, s.controlled ∧ s.segEn 0 = true ∧ s.segPresent 0 = true ∧ s.alive 0 = true ∧ s.loopOutside 0 5001 = true ∧
      s.inVolt 0 = false ∧ s.fget (Reg.vfeTapTrain_result 0 3) ≠ 3) ∧
    (∃ s : State, s.controlled ∧ s.segEn 0 = true ∧ s.segPresent 0 = true ∧ s.alive 0 = true ∧ s.loopOutside 0 199 = true ∧
      s.inVolt 0 = true ∧ tget (fun _ => false) s.vfe.vbad 3 = false) ∧
    (∃ s : State, s.controlled ∧ s.vfe.toVolt.contains 63 = true ∧ s.switching 63 = none ∧ s.seq.cur = none ∧
      s.mot.couch = none ∧ s.seq.waitFlush = true) ∧
    (∃ s : State, s.controlled ∧ s.vfe.toVolt.contains 63 = true ∧ s.switching 63 = none ∧ s.seq.cur = none ∧
      s.mot.couch ≠ none ∧ 3 ≤ s.couchStep ∧ s.couchStep ≤ 5 ∧ tget (fun _ => []) s.vfe.reads 63 = []) ∧
    (∃ s : State, ∃ ok, s.controlled ∧ s.switching 63 = some ok ∧ s.segPresent 63 = true ∧
      (tget (fun _ => ScbBus.init) s.vfe.scb 3).cur = none ∧ (tget (fun _ => ScbBus.init) s.vfe.scb 3).queue = []) := by
  let on (l : List (Fld × Nat)) : State :=
    (wSet ([(⟨Reg.vfeSegEn0, 0, 1⟩, 1), (⟨Reg.vfeSegPresent0, 0, 1⟩, 1), (Reg.vfeSegLoopwin_hi 0, 5000)] ++ l)).setAlive 0 true
  exact ⟨⟨on [], by decide⟩, ⟨on [(Reg.vfeSegStat_state 0, 3)], by decide⟩,
    ⟨{ wOn with seq := { SeqSt.init with waitFlush := true }, vfe := { VfeSt.init with toVolt := [63] } }, by decide⟩,
    ⟨{ wSet [(Reg.motStat_couch, 5)] with mot := { MotSt.init with couch := some wCouch }, vfe := { VfeSt.init with toVolt := [63] } },
      by decide⟩,
    ⟨{ wSet [(⟨Reg.vfeSegPresent0 + 4, 31, 1⟩, 1)] with vfe := { VfeSt.init with switch := [(63, some [true, true, true, true])] } }, _,
      by decide, rfl, by decide⟩⟩

/-- A segment control bus with a device frame in progress. -/
def wScb (waiting : Bool) (f : ScbFrame) : State :=
  { wOn with vfe := { VfeSt.init with scb := [(3, { ScbBus.init with cur := some f, waiting := waiting })] } }

theorem witness_SegmentControlFrames :
    (wOn.accepts .ring (Reg.vfeScbCmd 3) 0x80000000 ∧ fld (0x80000000 : Word).toNat (Reg.vfeScbCmd_go 3) = 1) ∧
    (∃ s : State, ∃ f, s.controlled ∧ (tget (fun _ => ScbBus.init) s.vfe.scb 3).cur = some f ∧
      (tget (fun _ => ScbBus.init) s.vfe.scb 3).waiting = true) ∧
    (wOn.controlled ∧ (tget (fun _ => ScbBus.init) wOn.vfe.scb 3).cur = none) ∧
    (∃ s : State, ∃ f, s.controlled ∧ (tget (fun _ => ScbBus.init) s.vfe.scb 3).cur = some f ∧
      (tget (fun _ => ScbBus.init) s.vfe.scb 3).waiting = false ∧ (tget (fun _ => ScbBus.init) s.vfe.scb 3).busies < 100 ∧
      (tget (fun _ => ScbBus.init) s.vfe.scb 3).repeats < 3 ∧ f.rd = false ∧ f.forSwitch = false) ∧
    (∃ s : State, ∃ f, s.controlled ∧ (tget (fun _ => ScbBus.init) s.vfe.scb 3).cur = some f ∧
      (tget (fun _ => ScbBus.init) s.vfe.scb 3).waiting = false ∧ 100 ≤ (tget (fun _ => ScbBus.init) s.vfe.scb 3).busies ∧
      3 ≤ (tget (fun _ => ScbBus.init) s.vfe.scb 3).repeats ∧ f.rd = true) ∧
    (∃ s : State, ∃ f, s.controlled ∧ (tget (fun _ => ScbBus.init) s.vfe.scb 3).cur = some f ∧
      (tget (fun _ => ScbBus.init) s.vfe.scb 3).waiting = false ∧ f.forSwitch = true ∧ s.switching (16 * 3 + f.addr) ≠ none) ∧
    (∃ (status : BitVec 4) (data : BitVec 16) (check : BitVec 8), status = 10 ∧
      (crc8 (bitsMsb 4 status.toNat ++ bitsMsb 16 data.toNat) == check.toNat) = true) ∧
    (∃ (status : BitVec 4) (data : BitVec 16) (check : BitVec 8), status = 10 ∧
      (crc8 (bitsMsb 4 status.toNat ++ bitsMsb 16 data.toNat) == check.toNat) = false) := by
  let fr (rd sw : Bool) : ScbFrame := { addr := 15, rd := rd, reg := 3, data := 0, host := !sw }
  let bus (x : ScbBus) : State := { wOn with vfe := { VfeSt.init with scb := [(3, x)], switch := [(63, some [])] } }
  exact ⟨by decide, ⟨wScb true { addr := 0, rd := false, reg := 0, data := 0, host := true }, _, by decide, rfl, by decide⟩,
    by decide, ⟨bus { ScbBus.init with cur := some (fr false false) }, _, by decide, rfl, by decide⟩,
    ⟨bus { ScbBus.init with cur := some (fr true false), busies := 100, repeats := 3 }, _, by decide, rfl, by decide⟩,
    ⟨bus { ScbBus.init with cur := some (fr false true) }, _, by decide, rfl, by decide⟩,
    ⟨10, 0, BitVec.ofNat 8 (crc8 (bitsMsb 4 10 ++ bitsMsb 16 0)), by decide +kernel⟩,
    ⟨10, 0, BitVec.ofNat 8 (crc8 (bitsMsb 4 10 ++ bitsMsb 16 0) + 1), by decide +kernel⟩⟩

theorem witness_ConverterGroups :
    (∃ s : State, s.up ∧ s.calibrating (groupOf 578) (localOf 578) = true) ∧
    (∃ s : State, s.up ∧ s.vfe.clocks = false) ∧
    (wOn.accepts .ring (Reg.adcGrpCtrl 63) (wWord (Reg.adcGrpCtrl_retest 63) 1) ∧
      fld (wWord (Reg.adcGrpCtrl_retest 63) 1).toNat (Reg.adcGrpCtrl_retest 63) = 1) ∧
    wOn.accepts .ring Reg.adcCtrl (wWord Reg.adcCtrl_freeze 1) :=
  ⟨⟨{ wOn with adc := { AdcSt.init with grp := [(64, { Grp.init with startup := [2] })] } }, by decide⟩, ⟨wOn, by decide⟩,
    by decide, by decide⟩

/-- A lamp bus with given contents. -/
def wBus (l : List (Fld × Nat)) (b : Nat) (x : LBus) : State := (wSet l).setLbus b x

theorem witness_LampBusTransactions :
    (∃ s : State, s.up ∧ (s.lbus 1).cur = none ∧ s.fget (Reg.lmpBusStat_state 1) ≠ 0 ∧ 0 < (s.lbus 1).allOffDue) ∧
    (∃ s : State, s.up ∧ (s.lbus 1).cur = none ∧ s.fget (Reg.lmpBusStat_state 1) ≠ 0 ∧ (s.lbus 1).allOffDue = 0 ∧
      (s.lbus 1).retry = [LbReq.plain .ping 63] ∧ (s.busUp 1 = true ∨ s.busUp (1 - 1) = false) ∧ s.lbMay .ping = true) ∧
    (∃ s : State, s.up ∧ (s.lbus 1).cur = none ∧ s.fget (Reg.lmpBusStat_state 1) ≠ 0 ∧ (s.lbus 1).allOffDue = 0 ∧
      (s.lbus 1).retry = [] ∧ s.busUp 1 = true ∧ s.lbMay .config = true ∧ s.serves 1 3 = true ∧ (s.zone 3).configDue = true ∧
      ∀ y < 3, ¬ (s.serves 1 y = true ∧ (s.zone y).configDue = true)) ∧
    (∃ s : State, s.up ∧ (s.lbus 1).cur = none ∧ s.fget (Reg.lmpBusStat_state 1) ≠ 0 ∧ (s.lbus 1).allOffDue = 0 ∧
      (s.lbus 1).retry = [] ∧ s.busUp 1 = true ∧ (∀ y < 64, (s.zone y).configDue = false) ∧ s.valuesMay = true ∧
      roundRobin (s.lbus 1).rrValue (fun z => s.serves 1 z && s.zoneState z == 1 && (s.zone z).need) = some 3) ∧
    (∃ s : State, s.up ∧ (s.lbus 1).cur = none ∧ s.fget (Reg.lmpBusStat_state 1) ≠ 0 ∧ (s.lbus 1).allOffDue = 0 ∧
      (s.lbus 1).retry = [] ∧ s.busUp 1 = true ∧ s.lbMay .config = false ∧ s.valuesMay = true ∧
      roundRobin (s.lbus 1).rrValue (fun z => s.serves 1 z && s.zoneState z == 1 && (s.zone z).need) = some 3) ∧
    (∃ s : State, s.up ∧ (s.lbus 1).cur = none ∧ s.fget (Reg.lmpBusStat_state 1) ≠ 0 ∧ (s.lbus 1).allOffDue = 0 ∧
      (s.lbus 1).retry = [] ∧ s.busUp 1 = false ∧ s.lmp.delivering = false ∧ (s.lbus 1).pingDue = [5]) ∧
    (∃ s : State, s.up ∧ (s.lbus 1).cur = none ∧ s.fget (Reg.lmpBusStat_state 1) ≠ 0 ∧ (s.lbus 1).allOffDue = 0 ∧
      (s.lbus 1).retry = [] ∧ s.busUp 1 = true ∧ (∀ y < 64, (s.zone y).configDue = false) ∧ (∀ y < 64, (s.zone y).need = false) ∧
      s.reporting = true ∧ roundRobin (s.lbus 1).rrReport (fun z => s.serves 1 z && s.zoneState z == 1) = some 3) ∧
    (∃ s : State, s.up ∧ (s.lbus 1).cur = none ∧ s.fget (Reg.lmpBusStat_state 1) ≠ 0 ∧ (s.lbus 1).allOffDue = 0 ∧
      (s.lbus 1).retry = [] ∧ (s.lbRegular 1).isNone = true ∧ s.lmp.delivering = false ∧ s.busUp 1 = true ∧ (s.lbus 1).pingDue = [] ∧
      s.serves 1 3 = true ∧ s.zoneState 3 = 1 ∧ (s.zone 3).diagDue = true ∧
      ∀ y < 3, ¬ (s.serves 1 y = true ∧ s.zoneState y = 1 ∧ (s.zone y).diagDue = true)) ∧
    (∃ s : State, s.up ∧ (s.lbus 1).cur = none ∧ s.fget (Reg.lmpBusStat_state 1) ≠ 0 ∧ (s.lbus 1).allOffDue = 0 ∧
      (s.lbus 1).retry = [] ∧ (s.lbRegular 1).isNone = true ∧ s.lmp.delivering = false ∧ s.busUp 1 = true ∧ (s.lbus 1).pingDue = [] ∧
      s.serves 1 3 = true ∧ (s.zone 3).clearDue ≠ 0 ∧ (∀ y < 3, ¬ (s.serves 1 y = true ∧ (s.zone y).clearDue ≠ 0)) ∧
      ∀ y < 64, (s.zone y).diagDue = false) := by
  let up (z : ZoneSt) : State := (wBus [(Reg.lmpBusStat_state 1, 1), (Reg.lmpZoneStat_state 3, 1)] 1 LBus.init).setZone 3 z
  let shows : State := { wSet [(Reg.lmpBusStat_state 1, 1), (Reg.lmpZoneStat_state 3, 1), (Reg.lmpStat_lamp_en, 1)] with
    seq := { SeqSt.init with cur := some 0 } }
  let need : State := (wBus [(Reg.lmpBusStat_state 1, 1), (Reg.lmpZoneStat_state 3, 1)] 1 LBus.init).setZone 3
    { ZoneSt.init with need := true }
  exact ⟨⟨wBus [(Reg.lmpBusStat_state 1, 2)] 1 { LBus.init with allOffDue := 1 }, by decide⟩,
    ⟨wBus [(Reg.lmpBusStat_state 1, 2)] 1 { LBus.init with retry := [LbReq.plain .ping 63] }, by decide⟩,
    ⟨(wBus [(Reg.lmpBusStat_state 1, 1)] 1 LBus.init).setZone 3 { ZoneSt.init with configDue := true }, by decide⟩,
    ⟨need, by decide⟩, ⟨{ need with lmp := { need.lmp with rise := some 0 } }, by decide⟩,
    ⟨wBus [(Reg.lmpBusStat_state 1, 2)] 1 { LBus.init with pingDue := [5] }, by decide⟩, ⟨shows, by decide⟩,
    ⟨up { ZoneSt.init with diagDue := true }, by decide +kernel⟩, ⟨up { ZoneSt.init with clearDue := 1 }, by decide +kernel⟩⟩

/-- A reply of zone 0 with its CRC (R108, R110). -/
def wReply (op st crc : Nat) : List Byte :=
  [0x80, BitVec.ofNat 8 op, 2, 0, BitVec.ofNat 8 st, BitVec.ofNat 8 crc, BitVec.ofNat 8 (crc / 256)]

theorem witness_LampReplies :
    (∃ s : State, s.up ∧ (s.lbus 0).cur = some (LbReq.plain .ping 0)) ∧
    leAt ([] : List Byte) (3 + leAt ([] : List Byte) 2 1) 2 ≠ crc16 (([] : List Byte).take (3 + leAt ([] : List Byte) 2 1)) ∧
    (∃ fr : List Byte, fr.length = 5 + leAt fr 2 1 ∧ leAt fr (3 + leAt fr 2 1) 2 = crc16 (fr.take (3 + leAt fr 2 1)) ∧
      leAt fr 0 1 = 0x80 + 0 ∧ leAt fr 1 1 = LbOp.ping.code ∧ bitAt (leAt fr 3 2) 12 = true) ∧
    (∃ fr : List Byte, fr.length = 5 + leAt fr 2 1 ∧ leAt fr (3 + leAt fr 2 1) 2 = crc16 (fr.take (3 + leAt fr 2 1)) ∧
      leAt fr 0 1 = 0x80 + 0 ∧ leAt fr 1 1 = LbOp.ping.code ∧ bitAt (leAt fr 3 2) 12 = false ∧
      bitAt (leAt fr 3 2) 11 = false) ∧
    (∃ fr : List Byte, fr.length = 5 + leAt fr 2 1 ∧ leAt fr (3 + leAt fr 2 1) 2 = crc16 (fr.take (3 + leAt fr 2 1)) ∧
      leAt fr 0 1 = 0x80 + 0 ∧ leAt fr 1 1 = LbOp.ping.code ∧ bitAt (leAt fr 3 2) 11 = true) ∧
    (∃ s : State, ∃ fr : List Byte, s.up ∧ (s.lbus 0).cur = some (LbReq.plain .report 0) ∧
      fr.length = 5 + leAt fr 2 1 ∧ leAt fr (3 + leAt fr 2 1) 2 = crc16 (fr.take (3 + leAt fr 2 1)) ∧
      leAt fr 0 1 = 0x80 + 0 ∧ leAt fr 1 1 = LbOp.report.code ∧ bitAt (leAt fr 3 2) 12 = false ∧
      bitAt (leAt fr 3 2) 11 = false) ∧
    (∃ s : State, ∃ fr : List Byte, s.up ∧ (s.lbus 0).cur = some (LbReq.plain .value 0) ∧
      fr.length = 5 + leAt fr 2 1 ∧ leAt fr (3 + leAt fr 2 1) 2 = crc16 (fr.take (3 + leAt fr 2 1)) ∧
      leAt fr 0 1 = 0x80 + 0 ∧ leAt fr 1 1 = LbOp.value.code ∧ bitAt (leAt fr 3 2) 12 = false ∧
      bitAt (leAt fr 3 2) 11 = false) ∧
    (∃ s : State, ∃ fr : List Byte, s.up ∧ (s.lbus 0).cur = some (LbReq.plain .getDiag 0) ∧
      fr.length = 5 + leAt fr 2 1 ∧ leAt fr (3 + leAt fr 2 1) 2 = crc16 (fr.take (3 + leAt fr 2 1)) ∧
      leAt fr 0 1 = 0x80 + 0 ∧ leAt fr 1 1 = LbOp.getDiag.code ∧ bitAt (leAt fr 3 2) 12 = false ∧
      bitAt (leAt fr 3 2) 11 = false) :=
  ⟨⟨wBus [] 0 { LBus.init with cur := some (LbReq.plain .ping 0) }, by decide +kernel⟩, by decide +kernel,
    ⟨wReply 1 0x10 14649, by decide +kernel⟩, ⟨wReply 1 0 11016, by decide +kernel⟩, ⟨wReply 1 8 43520, by decide +kernel⟩,
    ⟨wBus [] 0 { LBus.init with cur := some (LbReq.plain .report 0) }, wReply 3 0 50784, by decide +kernel⟩,
    ⟨wBus [] 0 { LBus.init with cur := some (LbReq.plain .value 0) }, wReply 3 0 50784, by decide +kernel⟩,
    ⟨wBus [] 0 { LBus.init with cur := some (LbReq.plain .getDiag 0) }, wReply 7 0 3217, by decide +kernel⟩⟩

theorem witness_LampTimersAndSlot :
    (∃ s : State, s.up ∧ s.zoneState 63 = 2) ∧
    (∃ s : State, s.up ∧ s.fget (Reg.lmpBusStat_state 1) = 2 ∧ s.zoneEn 2 = true ∧ s.zoneState 2 = 1 ∧
      ∀ y < 2, ¬ (s.zoneEn y = true ∧ s.zoneState y = 1)) ∧
    (∃ s : State, s.up ∧ s.seq.cur = some 0 ∧ isOverlap 0 = false ∧ s.seq.started = s.colourPhases ∧ s.lmp.rise = none ∧ s.lmp.commitDue = true ∧
      s.lmp.delivering = false ∧ ∀ b < 2, s.busUp b = true → (s.lbus b).cur = none) ∧
    (wOn.accepts .ring Reg.lmpCtrl (wWord Reg.lmpCtrl_all_off 1) ∧
      fld (wWord Reg.lmpCtrl_all_off 1).toNat Reg.lmpCtrl_all_off = 1) ∧
    (wOn.accepts .ring Reg.lmpTint (wWord Reg.lmpTint_resetf 1) ∧
      fld (wWord Reg.lmpTint_resetf 1).toNat Reg.lmpTint_resetf = 1) ∧
    (∃ s : State, ∃ v, s.accepts .ring (Reg.lmpZoneCtrl 63) v ∧ (s.stored (Reg.lmpZoneCtrl 63) v).zoneEn 63 = true ∧
      fld v.toNat (Reg.lmpZoneCtrl_ping 63) = 1) ∧
    (∃ s : State, ∃ v, s.accepts .ring (Reg.lmpZoneCtrl 63) v ∧ (s.stored (Reg.lmpZoneCtrl 63) v).zoneEn 63 = true ∧
      fld v.toNat (Reg.lmpZoneCtrl_ping 63) = 0) :=
  ⟨⟨wSet [(Reg.lmpZoneStat_state 63, 2)], by decide⟩,
    ⟨wSet [(Reg.lmpBusStat_state 1, 2), (Reg.lmpZoneCfg_en 2, 1), (Reg.lmpZoneStat_state 2, 1)], by decide⟩,
    ⟨{ wSet [(Reg.lmpBusStat_state 1, 1)] with seq := { SeqSt.init with cur := some 0 }
                                               lmp := { LmpSt.init with commitDue := true } }, by decide⟩,
    by decide, by decide,
    ⟨wSet [(Reg.lmpZoneCfg_en 63, 1)], wWord (Reg.lmpZoneCtrl_ping 63) 1, by decide⟩,
    ⟨wSet [(Reg.lmpZoneCfg_en 63, 1)], wWord (Reg.lmpZoneCtrl_clear 63) 15, by decide⟩⟩

/-- A block of tap 0 of segment 0. -/
def wBlk : Blk := { kind := .tap 0 0, line := 0, phase := 0, age := 0, fails := 0 }

/-- A chunk of a band. -/
def wChunk : Chunk := { stream := 0, num := 0, desc := 0, idx := 0, age := 0, fails := 0 }

/-- A couch comparison that an engine works on. -/
def wCorr : CorrItem := { kind := .couch 0, age := 0, fails := 0 }

/-- A table entry of a window. -/
def wEnt : WinEntry :=
  { x0 := 0, kind := 0, chan := 0, side := 0, geom := false, src := 0, g := 0, qmin := 0, lofs := 0, exp := 0, tmin := 0, bad := false }

/-- A patch of a window. -/
def wPatch : Patch := { ent := wEnt, anew := false, first := 0, k := 0, got := 0, whole := true, feed := 0, trig := .periodic, com := 0 }

theorem witness_EnginesTakeWork :
    (∃ s : State, s.up ∧ s.engNext .pixel = some 0 ∧ s.queue 0 = [wBlk]) ∧
    (∃ s : State, s.up ∧ s.engNext .pixel = some 0 ∧ s.queue 0 = [] ∧ s.stealFrom 0 = some 15 ∧ s.queue 15 = [wBlk]) ∧
    (∃ s : State, s.up ∧ s.engNext .nozzle = some 0 ∧ s.chunkNext = some wChunk) ∧
    (∃ s : State, s.up ∧ s.engNext .correlator = some 0 ∧ s.trk.queue = [wCorr]) ∧
    (∃ s : State, s.up ∧ s.engLeave .pixel 47 = none) ∧ (∃ s : State, s.up ∧ s.engLeave .pixel 0 = some 1) ∧
    (∃ s : State, s.up ∧ tget (fun _ => none) s.pxe.hold 47 = some wBlk) ∧
    (∃ s : State, s.up ∧ tget (fun _ => none) s.nzl.hold 23 = some wChunk) ∧
    (∃ s : State, ∃ h, s.up ∧ tget (fun _ => none) s.trk.hold 15 = some h ∧ h.item.kind = .chain 0 wPatch wPatch) ∧
    (∃ s : State, ∃ h, s.up ∧ tget (fun _ => none) s.trk.hold 15 = some h ∧ h.item.kind = .tick 0 wPatch) ∧
    (∃ s : State, ∃ h, s.up ∧ tget (fun _ => none) s.trk.hold 15 = some h ∧ h.item.kind = .couch 0) :=
  ⟨⟨{ wOn with pxe := { PxeSt.init with queue := [(0, [wBlk])] } }, by decide⟩,
    ⟨{ wOn with pxe := { PxeSt.init with queue := [(15, [wBlk])] } }, by decide⟩,
    ⟨{ wOn with nzl := { NzlSt.init with queue := [wChunk] } }, by decide⟩,
    ⟨{ wOn with trk := { TrkSt.init with queue := [wCorr] } }, by decide⟩,
    ⟨wOn, by decide⟩, ⟨wOn.setLeave .pixel 0 (some 1), by decide⟩,
    ⟨wOn.setHoldP 47 (some wBlk), by decide⟩, ⟨wOn.setHoldN 23 (some wChunk), by decide⟩,
    ⟨wOn.setHoldC 15 (some { item := { wCorr with kind := .chain 0 wPatch wPatch }, ref := [], cur := [] }), _, by decide,
      rfl, rfl⟩,
    ⟨wOn.setHoldC 15 (some { item := { wCorr with kind := .tick 0 wPatch }, ref := [], cur := [] }), _, by decide, rfl, rfl⟩,
    ⟨wOn.setHoldC 15 (some { item := wCorr, ref := [], cur := [] }), _, by decide, rfl, rfl⟩⟩

theorem witness_EngineTestAndHold :
    ((23 : Fin 48).val < engCount .nozzle) ∧
    (∃ s : State, ∃ v, s.accepts .ring (engCtrl .pixel 47) v ∧ bitAt v.toNat 31 = true ∧
      (let t := (s.stored (engCtrl .pixel 47) v).fputB (engHoldF .pixel 47) (bitAt v.toNat 0)
       t.fget (engStateF .pixel 47) = 0 ∧ t.engLeave .pixel 47 = none ∧ t.engWork .pixel 47 = false)) ∧
    (∃ s : State, ∃ v, s.accepts .ring (engCtrl .pixel 47) v ∧ bitAt v.toNat 31 = true ∧
      (let t := (s.stored (engCtrl .pixel 47) v).fputB (engHoldF .pixel 47) (bitAt v.toNat 0)
       t.fget (engStateF .pixel 47) = 0 ∧ t.engLeave .pixel 47 = none ∧ t.engWork .pixel 47 = true)) ∧
    (∃ s : State, ∃ v, s.accepts .ring (engCtrl .pixel 47) v ∧ bitAt v.toNat 31 = false ∧ bitAt v.toNat 0 = true ∧
      (let t := (s.stored (engCtrl .pixel 47) v).fputB (engHoldF .pixel 47) (bitAt v.toNat 0)
       t.fget (engStateF .pixel 47) = 0 ∧ t.engLeave .pixel 47 = none ∧ t.engWork .pixel 47 = false)) ∧
    (∃ s : State, ∃ v, s.accepts .ring (engCtrl .pixel 47) v ∧ bitAt v.toNat 31 = false ∧ bitAt v.toNat 0 = true ∧
      (let t := (s.stored (engCtrl .pixel 47) v).fputB (engHoldF .pixel 47) (bitAt v.toNat 0)
       t.fget (engStateF .pixel 47) = 0 ∧ t.engLeave .pixel 47 = none ∧ t.engWork .pixel 47 = true)) ∧
    (∃ s : State, s.up ∧ s.engWork .pixel 47 = true) ∧
    (∃ s : State, s.up ∧ s.fget (engStateF .correlator 15) = 2 ∧ s.flag (engHoldF .correlator 15) = true) ∧
    (∃ s : State, s.up ∧ s.fget (engStateF .correlator 15) = 2 ∧ s.flag (engHoldF .correlator 15) = false) :=
  ⟨by decide, ⟨wOn, 0x80000000, by decide⟩, ⟨wOn.setHoldP 47 (some wBlk), 0x80000000, by decide⟩,
    ⟨wOn, 1, by decide⟩, ⟨wOn.setHoldP 47 (some wBlk), 1, by decide⟩, ⟨wOn.setHoldP 47 (some wBlk), by decide⟩,
    ⟨wSet [(engStateF .correlator 15, 2), (engHoldF .correlator 15, 1)], by decide⟩,
    ⟨wSet [(engStateF .correlator 15, 2)], by decide⟩⟩

/-- Settings of a line. -/
def wResv : Resv :=
  { pos := 0, items := 8, kind := .line 5, handed := true, wait := false, flags := 0, cfg := LineCfg.init, drift := [], runs := [] }

/-- A committed line. -/
def wImg : LineImg := { n := 0, cfg := LineCfg.init, runs := [], com := 0 }

theorem witness_LineCommitAndAnalysis :
    (∃ s : State, ∃ r, s.up ∧ s.nextCommit = some (5, r) ∧ r.cfg.paced = false) ∧
    (∃ s : State, ∃ r, s.up ∧ s.nextCommit = some (5, r) ∧ r.cfg.paced = true) ∧
    (∃ s : State, s.up ∧ s.lff.analysis = [(0, wImg), (8, wImg)]) ∧ (wOn.up ∧ wOn.lff.analysis = []) := by
  let paced : Resv := { wResv with cfg := { LineCfg.init with paced := true } }
  exact ⟨⟨{ wOn with lff := { LffSt.init with resv := [wResv] } }, wResv, by decide +kernel⟩,
    ⟨{ wOn with lff := { LffSt.init with resv := [paced] } }, paced, by decide +kernel⟩,
    ⟨{ wOn with lff := { LffSt.init with analysis := [(0, wImg), (8, wImg)] } }, by decide⟩, by decide⟩

/-- A memory byte written. -/
def wMem (s : State) (a : Nat) (b : Byte) : State := { s with mem := [(a, b)] }

theorem witness_BankSelections :
    (wOn.accepts .ring Reg.shdBank 0 ∧ fld (0 : Word).toNat Reg.shdBank_sel = wOn.fget Reg.shdBank_sel) ∧
    (∃ s : State, s.accepts .ring Reg.shdBank 1 ∧ fld (1 : Word).toNat Reg.shdBank_sel ≠ s.fget Reg.shdBank_sel) ∧
    (∃ s : State, ∃ e, s.atHead 8 e [] ∧ s.isSafe = false ∧ (s.popped []).selectReason (commitBank e) = 0) ∧
    (∃ s : State, ∃ e, s.atHead 8 e [] ∧ s.isSafe = false ∧ (s.popped []).selectReason (commitBank e) ≠ 0) :=
  ⟨by decide, ⟨wMem wOn (bankBase 1 + 0x780002) 2, by decide⟩, ⟨wHead wOn 8 (wEntry [0]), wEntry [0], by decide⟩,
    ⟨wHead wOn 8 (wEntry [1]), wEntry [1], by decide⟩⟩

/-- A calibration at a step. -/
def wCal (step : CalStep) (kind : Nat) (aborting : Bool) : Cal :=
  { step := step, kind := kind, n := 1, auto := true, src := false, clrdef := false, target := 1, trusted := false
    lat := List.replicate 7 0, pass := 0, lines := 0, base := 0, phase := 0, counts := [], excl := [], darkFail := []
    failed := 0, kept := 0, marked := 0, total := 0, tf := [], tseg := [], tsegSet := false, used := [], aborting := aborting
    outcome := none }

/-- A state with a calibration. -/
def wCalOn (c : Cal) : State := { wOn with shd := { ShdSt.init with cal := some c } }

theorem witness_CalibrationStarts :
    (∃ s : State, ∃ e, s.atHead 9 e [] ∧ s.isSafe = false ∧ (s.popped []).calReason e ≠ 0) ∧
    (∃ s : State, ∃ e, s.atHead 9 e [] ∧ s.isSafe = false ∧ (s.popped []).calReason e = 0 ∧ calKind e = 4) ∧
    (∃ s : State, ∃ e, s.atHead 9 e [] ∧ s.isSafe = false ∧ (s.popped []).calReason e = 0 ∧ calKind e ≠ 4) ∧
    (∃ s : State, ∃ c, s.controlled ∧ s.shd.cal = some c ∧ c.step = .preparing ∧ s.bankHeld c.target = false) := by
  let r := wSet [(Reg.cfgStat_ready, 1)]
  exact ⟨⟨wHead wOn 9 (wEntry [0]), wEntry [0], by decide⟩, ⟨wHead r 9 (wEntry [0x14]), wEntry [0x14], by decide⟩,
    ⟨wHead r 9 (wEntry [0x11]), wEntry [0x11], by decide⟩, ⟨wCalOn (wCal .preparing 1 false), _, by decide, rfl, by decide⟩⟩

theorem witness_CalibrationPasses :
    (∃ s : State, ∃ c, s.controlled ∧ s.shd.cal = some c ∧ s.calWarmed c = c ∧ s.calPassEnds c = true ∧ c.aborting = false ∧ c.step = .dark ∧
      s.calLastPass c = false) ∧
    (∃ s : State, ∃ c, s.controlled ∧ s.shd.cal = some c ∧ s.calWarmed c = c ∧ s.calPassEnds c = true ∧ c.aborting = false ∧ c.step = .dark ∧
      s.calLastPass c = true ∧ c.kind = 1) ∧
    (∃ s : State, ∃ c, s.controlled ∧ s.shd.cal = some c ∧ s.calWarmed c = c ∧ s.calPassEnds c = true ∧ c.aborting = false ∧ c.step = .dark ∧
      s.calLastPass c = true ∧ c.kind ≠ 1) ∧
    (∃ s : State, ∃ c, s.controlled ∧ s.shd.cal = some c ∧ s.calWarmed c = c ∧ s.calPassEnds c = true ∧ c.aborting = false ∧ c.step = .gain ∧
      s.calLastPass c = false) ∧
    (∃ s : State, ∃ c, s.controlled ∧ s.shd.cal = some c ∧ s.calWarmed c = c ∧ s.calPassEnds c = true ∧ c.aborting = false ∧ c.step = .gain ∧
      s.calLastPass c = true) ∧
    (∃ s : State, ∃ c, s.controlled ∧ s.shd.cal = some c ∧ s.calWarmed c = c ∧ s.calPassEnds c = true ∧ c.aborting = false ∧ c.step = .verify ∧
      s.calLastPass c = false) ∧
    (∃ s : State, ∃ c, s.controlled ∧ s.shd.cal = some c ∧ s.calWarmed c = c ∧ s.calPassEnds c = true ∧ c.aborting = false ∧ c.step = .verify ∧
      s.calLastPass c = true) ∧
    (∃ s : State, ∃ c, s.controlled ∧ s.shd.cal = some c ∧ s.calWarmed c = c ∧ s.calPassEnds c = true ∧ c.aborting = true) ∧
    (∃ s : State, ∃ c, s.controlled ∧ s.shd.cal = some c ∧ c.step = .shutter ∧ s.lmp.delivering = false ∧
      s.flag Reg.shdCtrl_shutter = false) ∧
    (∃ s : State, ∃ c, s.controlled ∧ s.shd.cal = some c ∧ c.step = .returning ∧ s.flag Reg.shdCtrl_shutter = false ∧
      s.sys.ctlLost = false ∧ c.auto = true ∧ c.outcome = none ∧ c.target < 2 ∧ c.target ≠ s.fget Reg.shdBank_sel) ∧
    (∃ s : State, ∃ c, s.shd.cal = some c ∧ s.accepts .ring Reg.shdCtrl (wWord Reg.shdCtrl_cal_abort 1) ∧
      fld (wWord Reg.shdCtrl_cal_abort 1).toNat Reg.shdCtrl_cal_abort = 1 ∧ c.step = .returning) ∧
    (∃ s : State, ∃ c, s.shd.cal = some c ∧ s.accepts .ring Reg.shdCtrl (wWord Reg.shdCtrl_cal_abort 1) ∧
      c.step ≠ .returning ∧ c.step ≠ .dark ∧ c.step ≠ .gain ∧ c.step ≠ .verify) ∧
    (∃ s : State, ∃ c, s.shd.cal = some c ∧ s.accepts .ring Reg.shdCtrl (wWord Reg.shdCtrl_cal_abort 1) ∧ c.step = .dark ∧
      (s.stored Reg.shdCtrl (wWord Reg.shdCtrl_cal_abort 1)).calPassEnds { c with aborting := true, outcome := some 3 } =
        false) ∧
    (∃ s : State, ∃ c, s.controlled ∧ s.shd.cal = some c ∧ c.step = .writing ∧ (s.calWarmed c).step = .verify ∧
      s.calPassEnds (s.calWarmed c) = true ∧ (s.calWarmed c).aborting = false ∧ s.calLastPass (s.calWarmed c) = true) := by
  let three (c : Cal) : State := { wCalOn c with seq := { SeqSt.init with phases := 3 } }
  exact ⟨⟨three { wCal .dark 1 false with lines := 1000000 }, _, by decide, rfl, by decide⟩,
    ⟨wCalOn (wCal .dark 1 false), _, by decide, rfl, by decide⟩, ⟨wCalOn (wCal .dark 2 false), _, by decide, rfl, by decide⟩,
    ⟨three { wCal .gain 2 false with lines := 1000000 }, _, by decide, rfl, by decide⟩,
    ⟨wCalOn (wCal .gain 2 false), _, by decide, rfl, by decide⟩,
    ⟨three { wCal .verify 2 false with lines := 1000000 }, _, by decide, rfl, by decide⟩,
    ⟨wCalOn (wCal .verify 2 false), _, by decide, rfl, by decide⟩, ⟨wCalOn (wCal .gain 2 true), _, by decide, rfl, by decide⟩,
    ⟨wCalOn (wCal .shutter 2 false), _, by decide, rfl, by decide⟩,
    ⟨wCalOn (wCal .returning 2 false), _, by decide, rfl, by decide⟩,
    ⟨wCalOn (wCal .returning 2 false), _, rfl, by decide⟩, ⟨wCalOn (wCal .shutter 2 false), _, rfl, by decide⟩,
    ⟨wCalOn { wCal .dark 2 false with phase := 1 }, _, rfl, by decide⟩, ⟨wCalOn (wCal .writing 2 false), _, by decide, rfl, by decide⟩⟩

theorem witness_BankTests :
    (∃ s : State, ∃ v, s.accepts .ring (Reg.shdBankCtrl 1) v ∧ fld v.toNat (Reg.shdBankCtrl_check 1) = 1 ∧
      fld v.toNat (Reg.shdBankCtrl_mbist 1) = 0) ∧
    (∃ s : State, ∃ v, s.accepts .ring (Reg.shdBankCtrl 1) v ∧ fld v.toNat (Reg.shdBankCtrl_check 1) = 0 ∧
      fld v.toNat (Reg.shdBankCtrl_mbist 1) = 1) ∧
    (∃ s : State, s.up ∧ s.shd.check.contains 1 = true ∧ s.cfg.bankCheck = false) ∧
    (∃ s : State, s.up ∧ s.shd.mbist.contains 1 = true) :=
  ⟨⟨wOn, wWord (Reg.shdBankCtrl_check 1) 1, by decide⟩, ⟨wOn, wWord (Reg.shdBankCtrl_mbist 1) 1, by decide⟩,
    ⟨{ wOn with shd := { ShdSt.init with check := [1] } }, by decide⟩,
    ⟨{ wOn with shd := { ShdSt.init with mbist := [1] } }, by decide⟩⟩

theorem witness_NozzleAndTrackWrites :
    (∃ s : State, ∃ v, s.accepts .ring Reg.nzlCtrl v ∧ fld v.toNat Reg.nzlCtrl_clear = 1) ∧
    (wOn.accepts .ring Reg.trkCtrl (wWord Reg.trkCtrl_place 1) ∧ fld (wWord Reg.trkCtrl_place 1).toNat Reg.trkCtrl_place = 1) ∧
    wOn.accepts .ring (Reg.nzlBandLine0 3) 1 ∧
    (∃ s : State, ∃ low : Word, s.accepts .ring (Reg.nzlBandLine1 3) 0 ∧ s.lowPart .ring (Reg.nzlBandLine0 3) = low.toNat) ∧
    (∃ s : State, s.up ∧ tget (fun _ => false) s.seq.evi 3 = true) ∧
    (∃ s : State, s.up ∧ tget (fun _ => false) s.seq.evi 3 = false ∧
      (let high : State := { s with seq := { s.seq with evi := tput (fun _ => false) s.seq.evi 3 true } }
       let u := ((high.bandEvi 3).trackEvi 3).evstop 3
       let w := if bitsAt u.seqCtl 26 2 = 3 then u.monTriggerBy 2 else u
       w.linesByEdge = true ∧ w.fget Reg.motCtrl_levi = 3)) ∧
    (State.reset.up ∧ tget (fun _ => false) State.reset.seq.evi 3 = false ∧
      (let high : State := { State.reset with seq := { State.reset.seq with evi := tput (fun _ => false) State.reset.seq.evi 3 true } }
       let u := ((high.bandEvi 3).trackEvi 3).evstop 3
       let w := if bitsAt u.seqCtl 26 2 = 3 then u.monTriggerBy 2 else u
       w.linesByEdge = false)) :=
  ⟨⟨{ wOn with cfg := { wOn.cfg with claims := [{ cls := 3, idx := 0, owner := 10, fixed := true }] } }, 0x20000011, by decide⟩,
    by decide, by decide, ⟨wOn, wOn.lowPart .ring (Reg.nzlBandLine0 3), by decide⟩,
    ⟨{ wOn with seq := { SeqSt.init with evi := [(3, true)] } }, by decide⟩,
    ⟨wSet [(Reg.sysState_regime, 3), (Reg.motCtrl_lsrc, 1), (Reg.motCtrl_levi, 3)], by decide +kernel⟩, by decide +kernel⟩

/-- A state with a context export that has taken its contexts. -/
def wExp (dst : Nat) : State :=
  { wOn with nzl := { NzlSt.init with exp := some { first := 0, count := 4, dst := dst, taken := true, line := 0, time := 0, band := 0, data := zeros 64 } } }

theorem witness_ContextExports :
    (∃ s : State, ∃ e, s.atHead 0x0A e [] ∧ (s.popped []).exportReason e ≠ 0) ∧
    (∃ s : State, ∃ e, s.atHead 0x0A e [] ∧ (s.popped []).exportReason e = 0 ∧ (s.popped []).nzl.exp = none) ∧
    (∃ s : State, ∃ e, s.atHead 0x0A e [] ∧ (s.popped []).exportReason e = 0 ∧ (s.popped []).nzl.exp ≠ none) ∧
    (∃ s : State, ∃ x, s.up ∧ s.nzl.exp = some x ∧ x.taken = true ∧ isHost x.dst = true) ∧
    (∃ s : State, ∃ x, s.up ∧ s.nzl.exp = some x ∧ x.taken = true ∧ isHost x.dst = false ∧
      s.dstRule x.dst (64 + 16 * x.count) ≠ .refuse) ∧
    (∃ s : State, ∃ x, s.up ∧ s.nzl.exp = some x ∧ x.taken = true ∧ isHost x.dst = false ∧
      s.dstRule x.dst (64 + 16 * x.count) = .refuse) := by
  let own (s : State) : State := { s with cfg := { s.cfg with claims := [{ cls := 3, idx := 0, owner := 10, fixed := true }] } }
  let e := wEntry [0, 4, bankBase 0, 0]
  exact ⟨⟨wHead wOn 0x0A (wEntry [0]), wEntry [0], by decide⟩, ⟨wHead (own wOn) 0x0A e, e, by decide⟩,
    ⟨wHead (own (wExp 0)) 0x0A e, e, by decide⟩, ⟨wExp (2 ^ 63), _, by decide, rfl, by decide⟩,
    ⟨wExp (bankBase 1), _, by decide, rfl, by decide⟩, ⟨wExp (bankBase 0), _, by decide, rfl, by decide⟩⟩

theorem witness_absValid {s : State} (h : Regs.wf s.regs) (hf : s.flag (Reg.posAbsStat_func 3) = false) (w : Nat) :
    (s.absValid 3 w).flag (Reg.posAbsStat_valid 3) = true := by
  unfold State.absValid
  extract_lets x t time u v y
  have hu : u.regs = s.regs := rfl
  have hv : Regs.wf v.regs := tput_wf _ _ (tput_wf _ _ (tput_wf _ _ (hu ▸ h)))
  have hvr : v.rget (Reg.posAbsStat_func 3).addr = s.rget (Reg.posAbsStat_func 3).addr :=
    (State.rget_rput_ne (tput_wf _ _ (tput_wf _ _ (hu ▸ h))) (by decide)).trans
      ((State.rget_rput_ne (tput_wf _ _ (hu ▸ h)) (by decide)).trans (State.rget_rput_ne (hu ▸ h) (by decide)))
  have hy : y.flag (Reg.posAbsStat_func 3) = false := by
    rw [← hf]
    unfold State.flag
    rw [State.fget_fput_other hv (by decide) (by decide), State.fget, hvr]; rfl
  rw [hy]
  have : y.fget (Reg.posAbsStat_valid 3) = 1 := State.fget_fput hv (by decide)
  simp [State.flag, this]

/-- A frame that ends well. -/
def wFrame : AbsFrame := { ready := true, samples := [false], ld := 0 }

/-- A port with a frame in progress. -/
def wPort : AbsPort := { AbsPort.init with frame := true }

theorem witness_absFrame {s : State} (h : s.absPort 3 = wPort) : s.absFrame 3 wFrame = s.absValid 3 0 := by
  have b : cfgBiss wPort.cfg = false := by decide
  have c : wFrame.samples.getD (cfgLead wPort.cfg + cfgDlen wPort.cfg) false = false := by decide
  have d : cfgWord wPort.cfg (AbsFrame.at wFrame.samples (cfgLead wPort.cfg) (cfgDlen wPort.cfg)) = 0 := by decide
  unfold State.absFrame State.ssiFrame
  rw [h, b, if_neg (by decide)]
  dsimp only
  rw [c, d, if_neg (by decide)]
  unfold State.absJump
  rw [h]
  rfl

theorem witness_ProfileTick :
    State.reset.up ∧
    (∃ x : Axis, (((x.tgt * one48 - x.p).natAbs : Nat) : Int) ≤ max x.v x.vst) ∧
    (∃ x : Axis, max x.v x.vst < (((x.tgt * one48 - x.p).natAbs : Nat) : Int) ∧ x.p ≤ x.tgt * one48) ∧
    (∃ x : Axis, max x.v x.vst < (((x.tgt * one48 - x.p).natAbs : Nat) : Int) ∧ x.tgt * one48 < x.p) ∧
    (∃ x : Axis, max x.v x.vst < (((x.tgt * one48 - x.p).natAbs : Nat) : Int) ∧ x.j = 0 ∧ x.braking = false ∧
      brake x.v x.a x.dec x.j + x.v < (((x.tgt * one48 - x.p).natAbs : Nat) : Int) ∧ x.v < x.vmax ∧ 0 < x.acc) ∧
    (∃ x : Axis, max x.v x.vst < (((x.tgt * one48 - x.p).natAbs : Nat) : Int) ∧ x.j = 0 ∧ 0 < x.dec ∧
      (((x.tgt * one48 - x.p).natAbs : Nat) : Int) ≤ brake x.v x.a x.dec x.j + x.v) :=
  ⟨by decide, ⟨Axis.init, by decide⟩, ⟨{ Axis.init with tgt := 1 }, by decide⟩, ⟨{ Axis.init with tgt := -1 }, by decide⟩,
    ⟨{ Axis.init with tgt := 1, vmax := 10, acc := 1, dec := 1 }, by decide⟩,
    ⟨{ Axis.init with tgt := 1000, v := 100 * one48, dec := one48 }, by decide⟩⟩

/-- Axis 7 referenced and enabled. -/
def wAxis (l : List (Fld × Nat)) : State := wSet ([(Reg.motAxCtrl_ena 7, 1), (Reg.motAxStat_ref 7, 1)] ++ l)

theorem witness_MoveHaltStop :
    (∃ s : State, ∃ e, s.atHead 6 e [] ∧ s.isSafe = false ∧ (s.popped []).moveReason e ≠ 0) ∧
    (∃ s : State, ∃ e, s.atHead 6 e [] ∧ s.isSafe = false ∧ (s.popped []).moveReason e = 0 ∧
      ((s.popped []).cmdFinish 6 e 0).moving (moveAxis e) = true) ∧
    (∃ s : State, ∃ e, s.atHead 6 e [] ∧ s.isSafe = false ∧ (s.popped []).moveReason e = 0 ∧
      ((s.popped []).cmdFinish 6 e 0).moving (moveAxis e) = false) ∧
    (∃ s : State, ∃ v, s.accepts .ring (Reg.motAxCtrl 7) v ∧
      (s.stored (Reg.motAxCtrl 7) v).flag (Reg.motAxCtrl_ena 7) = s.flag (Reg.motAxCtrl_ena 7) ∧
      fld v.toNat (Reg.motAxCtrl_encset 7) = 0 ∧ fld v.toNat (Reg.motAxCtrl_stop 7) = 1) ∧
    (∃ s : State, ∃ v, s.accepts .ring (Reg.motAxCtrl 7) v ∧
      (s.stored (Reg.motAxCtrl 7) v).flag (Reg.motAxCtrl_ena 7) = s.flag (Reg.motAxCtrl_ena 7) ∧
      fld v.toNat (Reg.motAxCtrl_encset 7) = 0 ∧ fld v.toNat (Reg.motAxCtrl_stop 7) = 0 ∧
      fld v.toNat (Reg.motAxCtrl_halt 7) = 1) ∧
    (wOn.accepts .ring Reg.motCtrl (wWord Reg.motCtrl_stop 1) ∧ fld (wWord Reg.motCtrl_stop 1).toNat Reg.motCtrl_stop = 1) :=
  ⟨⟨wHead wOn 6 (wEntry [7]), wEntry [7], by decide⟩,
    ⟨wHead (wAxis [(⟨Reg.motStat_moving.addr, Reg.motStat_moving.lo + 7, 1⟩, 1)]) 6 (wEntry [7]), wEntry [7], by decide +kernel⟩,
    ⟨wHead (wAxis []) 6 (wEntry [7]), wEntry [7], by decide +kernel⟩,
    ⟨wOn, wWord (Reg.motAxCtrl_stop 7) 1, by decide⟩, ⟨wOn, wWord (Reg.motAxCtrl_halt 7) 1, by decide⟩, by decide⟩

theorem witness_AxisEnaDrivesEn :
    (∃ s : State, ∃ v, s.Sound ∧ s.accepts .ring (Reg.motAxCtrl 7) v ∧ fld v.toNat (Reg.motAxCtrl_stop 7) = 0 ∧
      fld v.toNat (Reg.motAxCtrl_halt 7) = 0 ∧ fld v.toNat (Reg.motAxCtrl_encset 7) = 0 ∧
      s.flag (Reg.motAxCtrl_ena 7) = true ∧ fld v.toNat (Reg.motAxCtrl_ena 7) = 0) ∧
    (∃ s : State, s.Sound ∧ s.reaches .ring ∧ s.bare = false ∧ s.flag (Reg.motAxCtrl_ena 1) = true ∧ s.running = true) ∧
    (∃ s : State, s.Sound ∧ s.reaches .ring ∧ s.bare = false ∧ s.flag (Reg.motAxCtrl_ena 7) = true ∧ s.moving 7 = true) :=
  ⟨⟨wSet [(Reg.motAxCtrl_ena 7, 1)], 0, ⟨by decide, by decide, by decide⟩, by decide⟩,
    ⟨wSet [(Reg.motAxCtrl_ena 1, 1), (Reg.sysState_run, 1)], ⟨by decide, by decide, by decide⟩, by decide⟩,
    ⟨wSet [(Reg.motAxCtrl_ena 7, 1), (Reg.motStat_moving, 128)], ⟨by decide, by decide, by decide⟩, by decide⟩⟩

theorem witness_AxisEnableAndPosition :
    (∃ s : State, ∃ v, s.accepts .ring (Reg.motAxCtrl 1) v ∧ fld v.toNat (Reg.motAxCtrl_stop 1) = 0 ∧
      fld v.toNat (Reg.motAxCtrl_halt 1) = 0 ∧ fld v.toNat (Reg.motAxCtrl_encset 1) = 0 ∧
      s.flag (Reg.motAxCtrl_ena 1) = false ∧ (s.stored (Reg.motAxCtrl 1) v).flag (Reg.motAxCtrl_ena 1) = true) ∧
    (∃ s : State, ∃ v, s.accepts .ring (Reg.motAxCtrl 1) v ∧ fld v.toNat (Reg.motAxCtrl_stop 1) = 0 ∧
      fld v.toNat (Reg.motAxCtrl_halt 1) = 0 ∧ fld v.toNat (Reg.motAxCtrl_encset 1) = 0 ∧
      s.flag (Reg.motAxCtrl_ena 1) = true ∧ (s.stored (Reg.motAxCtrl 1) v).flag (Reg.motAxCtrl_ena 1) = false) ∧
    (∃ s : State, ∃ v, s.accepts .ring (Reg.motAxCtrl 1) v ∧ fld v.toNat (Reg.motAxCtrl_stop 1) = 0 ∧
      fld v.toNat (Reg.motAxCtrl_halt 1) = 0 ∧ fld v.toNat (Reg.motAxCtrl_encset 1) = 1 ∧
      (s.stored (Reg.motAxCtrl 1) v).flag (Reg.motAxCtrl_ena 1) = s.flag (Reg.motAxCtrl_ena 1) ∧
      (s.stored (Reg.motAxCtrl 1) v).absWord ((s.stored (Reg.motAxCtrl 1) v).fget (Reg.motAxEnc_port 1)) = some (0, 0)) ∧
    wOn.accepts .ring (Reg.motAxSetpos1 7) 0xFFFF ∧
    (∃ s : State, s.up ∧ (s.axis 1).restore = some .seek) ∧ (∃ s : State, s.up ∧ (s.axis 1).restore = some .done) :=
  ⟨⟨wOn, wWord (Reg.motAxCtrl_ena 1) 1, by decide⟩, ⟨wSet [(Reg.motAxCtrl_ena 1, 1)], 0, by decide⟩,
    ⟨(wSet [(Reg.motAxEnc_en 1, 1)]).setAbs 0 { AbsPort.init with has := true }, wWord (Reg.motAxCtrl_encset 1) 1, by decide⟩,
    by decide, ⟨wOn.setAxis 1 { Axis.init with restore := some .seek }, by decide⟩,
    ⟨wOn.setAxis 1 { Axis.init with restore := some .done }, by decide⟩⟩

theorem witness_AxisFaultsAndCurrent :
    (∃ s : State, s.up ∧ s.flag (Reg.motAxStat_flt 7) = true ∧ (s.axis 7).faulted = false ∧
      s.flag (Reg.motAxCtrl_ena 7) = false) ∧
    (∃ s : State, s.up ∧ s.flag (Reg.motAxStat_flt 7) = true ∧ (s.axis 7).faulted = false ∧
      s.flag (Reg.motAxCtrl_ena 7) = true) ∧
    (∃ s : State, s.up ∧ s.moving 7 = false) :=
  ⟨⟨wSet [(Reg.motAxStat_flt 7, 1)], by decide⟩, ⟨wAxis [(Reg.motAxStat_flt 7, 1)], by decide⟩, ⟨wOn, by decide⟩⟩

/-- A running job in a regime. -/
def wRun (regime : Nat) : State := wSet [(Reg.sysState_run, 1), (Reg.sysState_regime, regime)]

/-- An advance in progress. -/
def wAdv : Adv := { pass := 0, a := 0, s0 := 0, s1 := 0, p0 := 0, p1 := 0, f0 := 0, settling := true }

theorem witness_JobStart_refused :
    ∃ s : State, ∃ e, s.atHead 3 e [] ∧
      (let q := s.popped []
       let t := q.jobTrial e
       let least := (q.jobSettings e).leadMin
       let f := if jobRegime e = 1 then t.fitWindows least else ([], t)
       q.jobCheck f.2 least e = some (1, 1, 0)) :=
  ⟨wHead wOn 3 (wEntry [0]), wEntry [0], by decide, by decide +kernel⟩

theorem witness_JobStart_begins :
    ∃ s : State, ∃ e, s.atHead 3 e [] ∧
      (let q := s.popped []
       let t := q.jobTrial e
       let least := (q.jobSettings e).leadMin
       let f := if jobRegime e = 1 then t.fitWindows least else ([], t)
       q.jobCheck f.2 least e = none) :=
  ⟨wHead (wSet [(Reg.cfgStat_ready, 1), (Reg.lmpPhaseWin_width 0, 400), (Reg.lmpPhaseWin_lead 0, 400), (Reg.hstLineSlot_val, 4000000)]) 3
    (wEntry [2, 2 ^ 28 + 10000]), wEntry [2, 2 ^ 28 + 10000], by decide, by decide +kernel⟩

theorem witness_JobStartStopEnd :
    (∃ s : State, ∃ e, s.atHead 4 e [] ∧ s.isSafe = false ∧ (s.popped []).running = true ∧ s.mot.stopping = none ∧
      (let t := (((s.popped []).cmdAccept 4 e).fput Reg.motStat_adv_held 0).fput Reg.motStat_couch 0
       let t : State := { t with mot := { t.mot with stopping := some e, held := none, heldCmd := none, couch := none } }
       t.regime = 2 ∧ t.mot.adv ≠ none)) ∧
    (∃ s : State, ∃ e, s.atHead 4 e [] ∧ s.isSafe = false ∧ (s.popped []).running = true ∧ s.mot.stopping = none ∧
      (let t := (((s.popped []).cmdAccept 4 e).fput Reg.motStat_adv_held 0).fput Reg.motStat_couch 0
       let t : State := { t with mot := { t.mot with stopping := some e, held := none, heldCmd := none, couch := none } }
       t.regime = 2 ∧ t.mot.adv = none)) ∧
    (∃ s : State, ∃ e, s.atHead 4 e [] ∧ s.isSafe = false ∧ (s.popped []).running = true ∧ s.mot.stopping = none ∧
      (let t := (((s.popped []).cmdAccept 4 e).fput Reg.motStat_adv_held 0).fput Reg.motStat_couch 0
       let t : State := { t with mot := { t.mot with stopping := some e, held := none, heldCmd := none, couch := none } }
       t.regime = 1)) ∧
    (∃ s : State, s.up ∧ s.running = true ∧ s.mot.stopping ≠ none ∧ s.seq.cur = none ∧ s.regime = 2 ∧ s.mot.adv = none) ∧
    (∃ s : State, s.up ∧ s.running = true ∧ s.mot.stopping ≠ none ∧ s.seq.cur = none ∧ s.regime ≠ 2 ∧ s.moving 0 = false ∧
      (s.axis 0).queued = none) :=
  ⟨⟨wHead { wRun 2 with mot := { MotSt.init with adv := some wAdv } } 4 (wEntry []), wEntry [], by decide +kernel⟩,
    ⟨wHead (wRun 2) 4 (wEntry []), wEntry [], by decide +kernel⟩, ⟨wHead (wRun 1) 4 (wEntry []), wEntry [], by decide +kernel⟩,
    ⟨{ wRun 2 with mot := { MotSt.init with stopping := some (wEntry []) } }, by decide⟩,
    ⟨{ wRun 1 with mot := { MotSt.init with stopping := some (wEntry []) } }, by decide⟩⟩

theorem witness_Advances :
    (∃ s : State, ∃ e, s.atHead 5 e [] ∧ s.isSafe = false ∧ (s.popped []).running = true ∧ (s.popped []).regime = 2 ∧
      s.mot.stopping = none ∧ (s.axis 0).restore = none ∧ (s.axis 1).restore = none ∧ s.mot.held = none) ∧
    (∃ s : State, s.controlled ∧ s.mot.held = some (0, 1) ∧ s.mot.heldCmd = some (wEntry []) ∧ s.running = true ∧ s.mot.adv = none ∧
      s.moving 0 = false ∧ s.moving 1 = false ∧ (s.axis 0).restore = none ∧
      (s.axis 1).restore = none ∧ s.flag Reg.lffStat_above = false) ∧
    (∃ s : State, s.controlled ∧ s.mot.adv = some wAdv ∧ wAdv.settling = true ∧ s.owed 0 = 0 ∧ s.owed 1 = 0 ∧
      (let t := ((s.setF (wAdv.f0 + wAdv.a * 2 ^ 32)).boundary .pb 0).reclaim
       let t := t.mapCommit (t.flag Reg.sysCommitHold_pb)
       let t := (t.bandPb).trackPb wAdv.pass
       let t := ({ t with mot := { t.mot with adv := none } } : State).fput Reg.motStat_adv_run 0
       t.mot.stopping = none)) ∧
    (∃ s : State, s.controlled ∧ s.mot.adv = some wAdv ∧ wAdv.settling = true ∧ s.owed 0 = 0 ∧ s.owed 1 = 0 ∧
      (let t := ((s.setF (wAdv.f0 + wAdv.a * 2 ^ 32)).boundary .pb 0).reclaim
       let t := t.mapCommit (t.flag Reg.sysCommitHold_pb)
       let t := (t.bandPb).trackPb wAdv.pass
       let t := ({ t with mot := { t.mot with adv := none } } : State).fput Reg.motStat_adv_run 0
       t.mot.stopping ≠ none)) ∧
    (∃ s : State, s.controlled ∧ s.mot.couch = some wCouch ∧ s.couchStep = 3) ∧
    (∃ s : State, s.controlled ∧ s.mot.couch = some wCouch ∧ s.couchStep = 4 ∧ wCouch.backDone = true) ∧
    (∃ s : State, s.controlled ∧ s.mot.couch = some wCouch ∧ s.couchStep = 5 ∧ s.flag Reg.lffStat_above = false ∧
      s.vfe.toVolt = []) := by
  let couch (n : Nat) : State := { wSet [(Reg.motStat_couch, n)] with mot := { MotSt.init with couch := some wCouch } }
  exact ⟨⟨wHead (wRun 2) 5 (wEntry []), wEntry [], by decide⟩,
    ⟨{ wRun 2 with mot := { MotSt.init with held := some (0, 1), heldCmd := some (wEntry []) } }, by decide⟩,
    ⟨{ wRun 2 with mot := { MotSt.init with adv := some wAdv } }, by decide, rfl, rfl, by decide, by decide, by decide +kernel⟩,
    ⟨{ wRun 2 with mot := { MotSt.init with adv := some wAdv, stopping := some (wEntry []) } }, by decide, rfl, rfl,
      by decide, by decide, by decide +kernel⟩,
    ⟨couch 3, by decide⟩, ⟨couch 4, by decide⟩, ⟨couch 5, by decide⟩⟩

theorem witness_AbsTriggers :
    (∃ t : State, t.absRuns 3 = true ∧ t.flag (Reg.posAbsStat_busy 3) = false) ∧
    (∃ t : State, t.absRuns 3 = true ∧ t.flag (Reg.posAbsStat_busy 3) = true ∧
      t.flag (Reg.posAbsStat_pend 3) = false) ∧
    (∃ t : State, t.absRuns 3 = true ∧ t.flag (Reg.posAbsStat_busy 3) = true ∧
      t.flag (Reg.posAbsStat_pend 3) = true) ∧
    (∃ v, wOn.accepts .ring (Reg.posAbsCtrl 3) v ∧ fld v.toNat (Reg.posAbsCtrl_clrunc 3) = 0 ∧
      fld v.toNat (Reg.posAbsCtrl_req 3) = 1) ∧
    (∃ v, wOn.accepts .ring (Reg.posAbsCtrl 3) v ∧ fld v.toNat (Reg.posAbsCtrl_clrunc 3) = 1 ∧
      fld v.toNat (Reg.posAbsCtrl_req 3) = 0) ∧
    (∃ s : State, s.up ∧ s.fget (Reg.posAbsTrig_per 3) ≠ 0 ∧ s.absRuns 3 = true ∧
      s.flag (Reg.posAbsStat_busy 3) = false) ∧
    (∃ s : State, s.up ∧ s.flag (Reg.posAbsStat_busy 3) = true ∧ (s.absPort 3).frame = false ∧
      (s.fput (Reg.posAbsStat_busy 3) 0).flag (Reg.posAbsStat_pend 3) = false) ∧
    (∃ s : State, s.up ∧ s.flag (Reg.posAbsStat_busy 3) = true ∧ (s.absPort 3).frame = false ∧
      (let u := s.fput (Reg.posAbsStat_busy 3) 0
       u.flag (Reg.posAbsStat_pend 3) = true ∧ (u.fput (Reg.posAbsStat_pend 3) 0).flag (Reg.posAbsCfg_en 3) = true)) ∧
    (∃ s : State, s.up ∧ s.flag (Reg.posAbsStat_busy 3) = true ∧ (s.absPort 3).frame = false ∧
      (let u := s.fput (Reg.posAbsStat_busy 3) 0
       u.flag (Reg.posAbsStat_pend 3) = true ∧ (u.fput (Reg.posAbsStat_pend 3) 0).flag (Reg.posAbsCfg_en 3) = false)) ∧
    (∃ s : State, ∃ f : AbsFrame, s.up ∧ (s.absPort 3).frame = true ∧ f.ready = false) ∧
    (∃ s : State, ∃ f : AbsFrame, s.up ∧ (s.absPort 3).frame = true ∧ f.ready = true ∧
      (s.absFrame 3 f).flag (Reg.posAbsStat_valid 3) = true) ∧
    (∃ s : State, ∃ f : AbsFrame, s.up ∧ (s.absPort 3).frame = true ∧ f.ready = true ∧
      (s.absFrame 3 f).flag (Reg.posAbsStat_valid 3) = false ∧ cfgBiss (s.absPort 3).cfg = false ∧
      f.samples.getD (cfgLead (s.absPort 3).cfg + cfgDlen (s.absPort 3).cfg) false = true) ∧
    (∃ s : State, ∃ f : AbsFrame, s.up ∧ (s.absPort 3).frame = true ∧ cfgBiss (s.absPort 3).cfg = false ∧
      f.samples.getD (cfgLead (s.absPort 3).cfg + cfgDlen (s.absPort 3).cfg) false = false ∧
      cfgLead (s.absPort 3).cfg + cfgDlen (s.absPort 3).cfg ≤ f.samples.length) ∧
    (∃ s : State, s.up ∧ (s.absPort 3).frame = true ∧ cfgBiss (s.absPort 3).cfg = true) := by
  let good := wFrame
  let port := wPort
  exact ⟨⟨wSet [(Reg.posAbsCfg_en 3, 1)], by decide⟩, ⟨wSet [(Reg.posAbsCfg_en 3, 1), (Reg.posAbsStat_busy 3, 1)], by decide⟩,
    ⟨wSet [(Reg.posAbsCfg_en 3, 1), (Reg.posAbsStat_busy 3, 1), (Reg.posAbsStat_pend 3, 1)], by decide⟩,
    ⟨wWord (Reg.posAbsCtrl_req 3) 1, by decide⟩, ⟨wWord (Reg.posAbsCtrl_clrunc 3) 1, by decide⟩,
    ⟨wSet [(Reg.posAbsCfg_en 3, 1), (Reg.posAbsTrig_per 3, 100)], by decide⟩,
    ⟨wSet [(Reg.posAbsStat_busy 3, 1)], by decide⟩,
    ⟨wSet [(Reg.posAbsStat_busy 3, 1), (Reg.posAbsStat_pend 3, 1), (Reg.posAbsCfg_en 3, 1)], by decide⟩,
    ⟨wSet [(Reg.posAbsStat_busy 3, 1), (Reg.posAbsStat_pend 3, 1)], by decide⟩,
    ⟨wOn.setAbs 3 port, { good with ready := false }, by decide⟩, ⟨(wSet [(Reg.posAbsStat_func 3, 0)]).setAbs 3 port, good, by decide, by decide, by decide,
      (witness_absFrame (s := (wSet [(Reg.posAbsStat_func 3, 0)]).setAbs 3 wPort) (by decide)).symm ▸
        witness_absValid (by decide) (by decide) 0⟩,
    ⟨wOn.setAbs 3 port, { good with samples := [true] }, by decide +kernel⟩,
    ⟨wOn.setAbs 3 { port with cfg := 63 * 2 ^ 16 + 3 * 2 ^ 25 }, { good with samples := List.replicate 66 true }, by decide +kernel⟩,
    ⟨wOn.setAbs 3 { port with cfg := 2 ^ 30 }, by decide⟩⟩

theorem witness_QeiPorts :
    (∃ s : State, s.up ∧ s.flag (Reg.posQeiCfg_en 3) = true) ∧
    (∃ v, wOn.accepts .ring (Reg.posQeiCtrl 3) v ∧ fld v.toNat (Reg.posQeiCtrl_clrunc 3) = 1 ∧
      fld v.toNat (Reg.posQeiCtrl_reidx 3) = 0) ∧
    (∃ v, wOn.accepts .ring (Reg.posQeiCtrl 3) v ∧ fld v.toNat (Reg.posQeiCtrl_clrunc 3) = 0 ∧
      fld v.toNat (Reg.posQeiCtrl_reidx 3) = 1) :=
  ⟨⟨wSet [(Reg.posQeiCfg_en 3, 1)], by decide⟩, ⟨wWord (Reg.posQeiCtrl_clrunc 3) 1, by decide⟩,
    ⟨wWord (Reg.posQeiCtrl_reidx 3) 1, by decide⟩⟩

theorem witness_MonitorPeriodsAndTimers :
    (∃ s : State, s.up ∧ s.flag Reg.monCtrl_en = true ∧ (s.grp 64).startup = [] ∧ s.flag Reg.monStat_blanked = false ∧
      s.flag Reg.monBlank_en = false) ∧
    (∃ s : State, s.up ∧ s.flag Reg.monCtrl_en = true ∧ (s.grp 64).startup = [] ∧ s.flag Reg.monStat_blanked = false ∧
      s.flag Reg.monStat_blank_ign = true) ∧
    (∃ s : State, s.up ∧ s.flag Reg.monCtrl_en = true ∧ (s.grp 64).startup = [] ∧ s.flag Reg.monBlank_en = true ∧
      s.flag Reg.monStat_blank_ign = false ∧ s.blankActive = true) ∧
    (∃ s : State, s.up ∧ s.flag Reg.monCtrl_en = true ∧ (s.grp 64).startup = [] ∧ s.flag Reg.monStat_blanked = true ∧
      s.blankActive = false ∧ s.mon.resumeAt ≤ s.sys.now) ∧
    (∃ s : State, s.up ∧ s.flag Reg.monCtrl_en = true ∧ s.fget Reg.monCtrl_cal_per ≠ 0 ∧
      s.flag Reg.monStat_cal_busy = false) ∧
    (∃ s : State, s.up ∧ s.fget Reg.monCtrl_age ≠ 0 ∧ s.flag (Reg.monChRes_valid 15) = true) ∧
    (∃ s : State, s.up ∧ bitsAt s.seqCtl 28 2 = 3) ∧
    (∃ s : State, s.up ∧ bitAt s.seqCtl 30 = true ∧ s.mon.inPass = false) ∧
    (∃ s : State, s.up ∧ s.blankActive = true ∧ s.flag Reg.monBlank_en = true ∧ s.fget Reg.monBlank_max ≠ 0 ∧
      s.flag Reg.monStat_blank_ign = false) :=
  ⟨⟨wSet [(Reg.monCtrl_en, 1)], by decide⟩, ⟨wSet [(Reg.monCtrl_en, 1), (Reg.monStat_blank_ign, 1)], by decide⟩,
    ⟨{ wSet [(Reg.monCtrl_en, 1), (Reg.monBlank_en, 1)] with mon := { MonSt.init with blank := true } }, by decide⟩,
    ⟨wSet [(Reg.monCtrl_en, 1), (Reg.monStat_blanked, 1)], by decide⟩,
    ⟨wSet [(Reg.monCtrl_en, 1), (Reg.monCtrl_cal_per, 1)], by decide⟩,
    ⟨wSet [(Reg.monCtrl_age, 1), (Reg.monChRes_valid 15, 1)], by decide⟩,
    ⟨wSet [(Reg.monSeqCtrl_tsrc, 3), (Reg.monSeqCtrl_per, 1)], by decide⟩, ⟨wSet [(Reg.monSeqCtrl_mode, 1)], by decide⟩,
    ⟨{ wSet [(Reg.monBlank_en, 1), (Reg.monBlank_max, 1)] with mon := { MonSt.init with blank := true } }, by decide⟩⟩

theorem witness_MonitorWrites :
    (∃ v, wOn.accepts .ring Reg.monCtrl v ∧ fld v.toNat Reg.monCtrl_cal = 1) ∧
    (∃ v, wOn.accepts .ring Reg.monSeqCtrl v ∧ fld v.toNat Reg.monSeqCtrl_req = 1 ∧
      bitsAt (wOn.stored Reg.monSeqCtrl v).seqCtl 28 2 = 0) ∧
    (∃ s : State, ∃ v, s.accepts .ring Reg.monInj v ∧ fld v.toNat Reg.monInj_go = 1) ∧
    (∃ v, wOn.accepts .ring (Reg.monChCtrl 15) v ∧ fld v.toNat (Reg.monChCtrl_load 15) = 1) ∧
    (∃ v, wOn.accepts .ring (Reg.monChCfg 15) v ∧ chanKey 15 (wOn.rget (Reg.monChCfg 15)).toNat =
      chanKey 15 ((wOn.stored (Reg.monChCfg 15) v).rget (Reg.monChCfg 15)).toNat) ∧
    (∃ v, wOn.accepts .ring (Reg.monChCfg 15) v ∧ chanKey 15 (wOn.rget (Reg.monChCfg 15)).toNat ≠
      chanKey 15 ((wOn.stored (Reg.monChCfg 15) v).rget (Reg.monChCfg 15)).toNat) ∧
    (∃ v, wOn.accepts .ring (Reg.monChCmwin 15) v ∧ wOn.rget (Reg.monChCmwin 15) ≠
      (wOn.stored (Reg.monChCmwin 15) v).rget (Reg.monChCmwin 15)) :=
  ⟨⟨wWord Reg.monCtrl_cal 1 ||| wWord Reg.monCtrl_caln 4, by decide⟩, ⟨wWord Reg.monSeqCtrl_req 1, by decide⟩,
    ⟨wSet [(Reg.monChCfg_en 0, 1)], wWord Reg.monInj_go 1, by decide⟩, ⟨wWord (Reg.monChCtrl_load 15) 1, by decide⟩,
    ⟨wOn.rget (Reg.monChCfg 15) ||| wWord (Reg.monChCfg_n 15) 1, by decide⟩, ⟨wOn.rget (Reg.monChCfg 15) ||| wWord (Reg.monChCfg_n 15) 1 ||| wWord (Reg.monChCfg_en 15) 1, by decide⟩,
    ⟨1, by decide⟩⟩

theorem witness_FifoRows :
    (∃ s : State, ∃ g, s.up ∧ s.lff.gap = some g ∧ s.lff.closeDue = true ∧ 4 ≤ s.freeItems) ∧
    (∃ s : State, s.up ∧ s.flag Reg.lffCtrl_sink = false ∧ s.issuePtr ≠ s.commitPtr ∧ s.lff.ring.length < 4096 ∧
      s.wget Reg.hstLineIssue0 - s.wget Reg.hstLineCi0 < s.fget Reg.hstLineCount_lcount ∧
      s.issuePort (s.wget Reg.hstLineIssue0) = some 1 ∧ s.linesSlot 1 = some 15 ∧
      (s.flip [100]).kindLen s.issuePtr = some (0, 0) ∧ (s.flip [100]).headerPoisoned s.issuePtr = false) ∧
    (∃ s : State, s.reaches .ring ∧ s.bare = false ∧ s.flag Reg.lffCtrl_sink = false) ∧
    (∃ s : State, s.reaches .ring ∧ s.bare = false ∧ s.flag Reg.lffCtrl_sink = true ∧ s.lff.svc = [] ∧
      s.issuePtr = s.commitPtr) ∧
    (∃ s : State, s.reaches .ring ∧ s.bare = false ∧ s.flag Reg.lffCtrl_sink = true ∧ s.lff.svc = [] ∧
      s.issuePtr ≠ s.commitPtr ∧ s.fget Reg.lffSvcStat_left ≠ 0 ∧ s.poisonedItem s.issuePtr = false) ∧
    (∃ s : State, s.reaches .ring ∧ s.bare = false ∧ s.flag Reg.lffCtrl_sink = true ∧ s.lff.svc = [] ∧
      s.issuePtr ≠ s.commitPtr ∧ s.fget Reg.lffSvcStat_left ≠ 0 ∧ s.poisonedItem s.issuePtr = true) ∧
    wOn.accepts .ring Reg.lffCtrl (wWord Reg.lffCtrl_sink 1) :=
  ⟨⟨{ wOn with lff := { LffSt.init with gap := some { fmt := 0, job := 0, first := 0, last := 0, time := 0, feed := 0, cause := 1 }, closeDue := true } },
      _, by decide, rfl, by decide⟩,
    ⟨wSet [(Reg.lffPtrCommit_val, 8), (Reg.hstLineCount_lcount, 1), (Reg.hstCtrl_primary, 1), (Reg.hstPortStat_state 1, 2),
      (Reg.qptQpCfg_en 15, 1), (Reg.qptQpCfg_lines 15, 1)], by decide +kernel⟩,
    ⟨wOn, by decide⟩, ⟨wSet [(Reg.lffCtrl_sink, 1)], by decide⟩,
    ⟨wSet [(Reg.lffCtrl_sink, 1), (Reg.lffPtrCommit_val, 8), (Reg.lffSvcStat_left, 7)], by decide +kernel⟩,
    ⟨(wSet [(Reg.lffCtrl_sink, 1), (Reg.lffPtrCommit_val, 8), (Reg.lffSvcStat_left, 7)]).flip [0], by decide +kernel⟩, by decide⟩

/-- A register descriptor of channel 31: a fill of 64 bytes at a place, with the channel armed and idle. -/
def wDma (l : List (Fld × Nat)) (ndesc : Nat) : State :=
  (wSet ([(Reg.dmaChCount_val 31, 64)] ++ l)).setCh 31 { DmaCh.init with nextAt := some 0, go := true, ndesc := ndesc }

/-- A descriptor in progress. -/
def wDesc (next : Nat) : Desc := { ctrl := 2 ^ 31 + 1, count := 64, src := 0, dst := bankBase 1, next := next }

/-- Channel 31 with a descriptor in progress. -/
def wBusy (l : List (Fld × Nat)) (moved : Nat) (x : Desc) (discard : Bool) : State :=
  (wSet l).setCh 31 { DmaCh.init with cur := some (0, x), moved := moved, discard := discard }

theorem witness_DmaStartStopTrigger :
    (∃ s : State, ∃ v, s.accepts .ring (Reg.dmaChCtrl 31) v ∧ fld v.toNat (Reg.dmaChCtrl_start 31) = 1 ∧
      fld v.toNat (Reg.dmaChCtrl_stop 31) = 0) ∧
    (∃ s : State, ∃ v, s.accepts .ring (Reg.dmaChCtrl 31) v ∧ fld v.toNat (Reg.dmaChCtrl_start 31) = 0 ∧
      fld v.toNat (Reg.dmaChCtrl_stop 31) = 1 ∧ ((s.claimChannel 31).stored (Reg.dmaChCtrl 31) v).chState 31 = 0) ∧
    (∃ s : State, ∃ v, s.accepts .ring (Reg.dmaChCtrl 31) v ∧ fld v.toNat (Reg.dmaChCtrl_start 31) = 0 ∧
      fld v.toNat (Reg.dmaChCtrl_stop 31) = 1 ∧
      (let t := (s.claimChannel 31).stored (Reg.dmaChCtrl 31) v
       t.chState 31 ≠ 0 ∧ t.chState 31 ≠ 5 ∧ (t.ch 31).cur = none ∧ (t.ch 31).wait = none)) ∧
    (∃ s : State, ∃ v, s.accepts .ring (Reg.dmaChCtrl 31) v ∧ fld v.toNat (Reg.dmaChCtrl_start 31) = 0 ∧
      fld v.toNat (Reg.dmaChCtrl_stop 31) = 1 ∧
      (let t := (s.claimChannel 31).stored (Reg.dmaChCtrl 31) v
       t.chState 31 ≠ 0 ∧ t.chState 31 ≠ 5 ∧ (t.ch 31).cur ≠ none)) ∧
    (∃ s : State, ∃ v, s.accepts .ring (Reg.dmaChCtrl 31) v ∧ fld v.toNat (Reg.dmaChCtrl_start 31) = 0 ∧
      fld v.toNat (Reg.dmaChCtrl_stop 31) = 1 ∧
      (let t := (s.claimChannel 31).stored (Reg.dmaChCtrl 31) v
       t.chState 31 ≠ 0 ∧ t.chState 31 ≠ 5 ∧ (t.ch 31).cur = none ∧ (t.ch 31).wait ≠ none)) ∧
    (∃ s : State, s.up ∧ s.flag (Reg.dmaTmr_en 7) = true) ∧
    (∃ s : State, s.up ∧ (s.ch 31).nextAt = some 0 ∧ (s.ch 31).go = true ∧ (s.ch 31).cur = none ∧
      (s.ch 31).wait = none ∧ (s.regDesc 31).own = true ∧ s.fget (Reg.dmaChCfg_clim 31) ≠ 0 ∧
      s.fget (Reg.dmaChCfg_clim 31) < (s.ch 31).ndesc + 1) ∧
    (∃ s : State, ∃ a, s.up ∧ (s.ch 31).nextAt = some a ∧ isHost a = true ∧ (s.ch 31).go = true ∧ (s.ch 31).cur = none ∧
      (s.ch 31).wait = none ∧ s.dmaGrant ≠ some 31) ∧
    (∃ s : State, ∃ a, s.up ∧ (s.ch 31).nextAt = some a ∧ isHost a = true ∧ (s.ch 31).go = true ∧ (s.ch 31).cur = none ∧
      (s.ch 31).wait = none ∧ s.dmaGrant = some 31 ∧ (memDesc (padTo 64 [])).own = false) ∧
    (∃ s : State, s.up ∧ (s.ch 31).nextAt = some 0 ∧ (s.ch 31).go = true ∧ (s.ch 31).cur = none ∧
      (let d := s.regDesc 31
       let u := (s.fput (Reg.dmaChStat_ndesc 31) (min ((s.ch 31).ndesc + 1) 65535)).wput (Reg.dmaChCur0 31) 0
       let u := u.setCh 31 { s.ch 31 with
         ndesc := (s.ch 31).ndesc + 1, moved := 0, dropped := 0, miss := none, discard := false, poison := false, wait := none }
       d.own = true ∧ (s.ch 31).wait = none ∧ (s.ch 31).ndesc + 1 ≤ s.fget (Reg.dmaChCfg_clim 31) ∧ u.descOk d = false)) ∧
    (∃ s : State, s.up ∧ (s.ch 31).nextAt = some 0 ∧ (s.ch 31).go = true ∧ (s.ch 31).cur = none ∧
      (let d := s.regDesc 31
       let u := (s.fput (Reg.dmaChStat_ndesc 31) (min ((s.ch 31).ndesc + 1) 65535)).wput (Reg.dmaChCur0 31) 0
       let u := u.setCh 31 { s.ch 31 with
         ndesc := (s.ch 31).ndesc + 1, moved := 0, dropped := 0, miss := none, discard := false, poison := false, wait := none }
       d.own = true ∧ (s.ch 31).wait = none ∧ (s.ch 31).ndesc + 1 ≤ s.fget (Reg.dmaChCfg_clim 31) ∧ u.descOk d = true ∧
         isHost d.dst = true ∧ (u.useBanks 31 d.banks).chState 31 ≠ 4)) ∧
    (∃ s : State, s.up ∧ (s.ch 31).nextAt = some 0 ∧ (s.ch 31).go = true ∧ (s.ch 31).cur = none ∧
      (let d := s.regDesc 31
       let u := (s.fput (Reg.dmaChStat_ndesc 31) (min ((s.ch 31).ndesc + 1) 65535)).wput (Reg.dmaChCur0 31) 0
       let u := u.setCh 31 { s.ch 31 with
         ndesc := (s.ch 31).ndesc + 1, moved := 0, dropped := 0, miss := none, discard := false, poison := false, wait := none }
       d.own = true ∧ (s.ch 31).wait = none ∧ (s.ch 31).ndesc + 1 ≤ s.fget (Reg.dmaChCfg_clim 31) ∧ u.descOk d = true ∧
         isHost d.dst = false ∧ d.op ≠ 2 ∧ u.dstRule d.dst d.count = .wait ∧ (u.useBanks 31 d.banks).chState 31 ≠ 4)) ∧
    (∃ s : State, s.up ∧ s.dmaGrant = some 31) ∧
    (∃ s : State, ∃ a d, s.up ∧ (s.ch 31).cur = some (a, d) ∧ s.outstanding d = 0 ∧ d.count ≤ (s.ch 31).moved ∧ (s.ch 31).result d = 3) ∧
    (∃ s : State, ∃ a d, s.up ∧ (s.ch 31).cur = some (a, d) ∧ s.outstanding d = 0 ∧ (s.ch 31).poison = true ∧ (s.ch 31).result d = 6) ∧
    (∃ s : State, ∃ a d, s.up ∧ (s.ch 31).cur = some (a, d) ∧ s.outstanding d = 0 ∧ d.count ≤ (s.ch 31).moved ∧ (s.ch 31).result d ≠ 3 ∧
      (s.ch 31).result d ≠ 6 ∧ (s.ch 31).result d ≠ 1 ∧
      (let t := (((s.dropUsers 31).fput (Reg.dmaChDone_val 31) ((s.ch 31).moved - (s.ch 31).dropped)).fput (Reg.dmaChResult_result 31) ((s.ch 31).result d)).bump
         (Reg.dmaChCnt_val 31) 1
       let t := (t.dmaReport 31 a ((s.ch 31).result d) d (s.ch 31)).dmaFollow 31
       t.chState 31 = 4)) ∧
    (∃ s : State, ∃ a d, s.up ∧ (s.ch 31).cur = some (a, d) ∧ s.outstanding d = 0 ∧ d.count ≤ (s.ch 31).moved ∧ (s.ch 31).result d ≠ 3 ∧
      (s.ch 31).result d ≠ 6 ∧ (s.ch 31).result d ≠ 1 ∧ d.next = 0 ∧
      (let t := (((s.dropUsers 31).fput (Reg.dmaChDone_val 31) ((s.ch 31).moved - (s.ch 31).dropped)).fput (Reg.dmaChResult_result 31) ((s.ch 31).result d)).bump
         (Reg.dmaChCnt_val 31) 1
       let t := (t.dmaReport 31 a ((s.ch 31).result d) d (s.ch 31)).dmaFollow 31
       t.chState 31 ≠ 4)) ∧
    (∃ s : State, ∃ a d, s.up ∧ (s.ch 31).cur = some (a, d) ∧ s.outstanding d = 0 ∧ d.count ≤ (s.ch 31).moved ∧ (s.ch 31).result d ≠ 3 ∧
      (s.ch 31).result d ≠ 6 ∧ (s.ch 31).result d ≠ 1 ∧ d.next ≠ 0 ∧
      (let t := (((s.dropUsers 31).fput (Reg.dmaChDone_val 31) ((s.ch 31).moved - (s.ch 31).dropped)).fput (Reg.dmaChResult_result 31) ((s.ch 31).result d)).bump
         (Reg.dmaChCnt_val 31) 1
       let t := (t.dmaReport 31 a ((s.ch 31).result d) d (s.ch 31)).dmaFollow 31
       t.chState 31 ≠ 4)) := by
  let host : State := { wDma [(Reg.dmaChCfg_clim 31, 1), (Reg.dmaChCtrl_op 31, 1), (⟨Reg.dmaChDst0 31 + 4, 31, 1⟩, 1)] 0 with
    sec := { SecSt.init with keys := some (zeros 1224 ++ [0, 1, 0, 0, 0, 0, 0, 0] ++ zeros 9 ++ [7] ++ zeros 486) } }
  let waits : State := { wDma [(Reg.dmaChCfg_clim 31, 1), (Reg.dmaChCtrl_op 31, 1), (⟨Reg.dmaChDst0 31, 0, 32⟩, 0x15680000)] 0 with
    lff := { LffSt.init with resv := [{ wResv with cfg := { LineCfg.init with lin := 1 } }] } }
  let fetch : State := (wSet [(Reg.hstPortStat_state 0, 2), (Reg.hstPortStat_link 0, 1), (Reg.qptQpCfg_en 0, 1), (Reg.qptQpStat_state 0, 1)]).setCh 31 { DmaCh.init with nextAt := some (2 ^ 63), go := true }
  exact ⟨⟨wOn, wWord (Reg.dmaChCtrl_start 31) 1, by decide +kernel⟩, ⟨wOn, wWord (Reg.dmaChCtrl_stop 31) 1, by decide +kernel⟩,
    ⟨wSet [(Reg.dmaChStat_state 31, 1)], wWord (Reg.dmaChCtrl_stop 31) 1, by decide +kernel⟩,
    ⟨wBusy [(Reg.dmaChStat_state 31, 2)] 0 (wDesc 0) false, wWord (Reg.dmaChCtrl_stop 31) 1, by decide +kernel⟩,
    ⟨(wSet [(Reg.dmaChStat_state 31, 3)]).setCh 31 { DmaCh.init with wait := some (wDesc 0) }, wWord (Reg.dmaChCtrl_stop 31) 1,
      by decide +kernel⟩,
    ⟨wSet [(Reg.dmaTmr_en 7, 1)], by decide⟩, ⟨wDma [(Reg.dmaChCfg_clim 31, 1)] 1, by decide⟩, ⟨wOn.setCh 31 { DmaCh.init with nextAt := some (2 ^ 63), go := true }, _, by decide, rfl, by decide +kernel⟩,
    ⟨fetch, _, by decide, rfl, by decide +kernel⟩,
    ⟨wDma [(Reg.dmaChCfg_clim 31, 1)] 0, by decide +kernel⟩, ⟨host, by decide +kernel⟩, ⟨waits, by decide +kernel⟩,
    ⟨wBusy [(Reg.dmaChStat_state 31, 2)] 0 (wDesc 0) false, by decide +kernel⟩,
    ⟨wBusy [] 64 (wDesc 0) true, 0, wDesc 0, by decide +kernel⟩,
    ⟨(wSet []).setCh 31 { DmaCh.init with cur := some (0, wDesc 0), poison := true }, 0, wDesc 0, by decide +kernel⟩,
    ⟨wBusy [(Reg.dmaChStat_state 31, 4)] 64 (wDesc 0) false, 0, wDesc 0, by decide +kernel⟩,
    ⟨wBusy [(Reg.dmaChStat_state 31, 2)] 64 (wDesc 0) false, 0, wDesc 0, by decide +kernel⟩,
    ⟨wBusy [(Reg.dmaChStat_state 31, 2)] 64 (wDesc 64) false, 0, wDesc 64, by decide +kernel⟩⟩

theorem witness_LinksAndPorts :
    (∃ s : State, s.up ∧ s.flag (Reg.hstPortStat_link 1) = true ∧ s.portState 1 < 2) ∧
    (∃ s : State, s.up ∧ (s.port 1).holding = true ∧ s.flag (Reg.hstPortStat_link 1) = false ∧ s.portState 1 = 2) ∧
    (∃ s : State, s.up ∧ (s.port 1).holding = true ∧ s.flag (Reg.hstPortStat_link 1) = false ∧ s.portState 1 = 1) ∧
    (∃ s : State, s.up ∧ (s.port 1).train = true ∧ s.portState 1 ≠ 3 ∧ s.flag Reg.sysState_loaded = true) ∧
    (∃ s : State, ∃ v, s.accepts .ring (Reg.hstPortCtrl 1) v ∧ fld v.toNat (Reg.hstPortCtrl_down 1) = 1 ∧
      s.flag (Reg.hstPortCtrl_down 1) = false ∧ (s.stored (Reg.hstPortCtrl 1) v).portUp 1 = true) ∧
    (∃ s : State, ∃ v, s.accepts .ring (Reg.hstPortCtrl 1) v ∧ fld v.toNat (Reg.hstPortCtrl_down 1) = 0) ∧
    (∃ s : State, ∃ v, s.accepts .ring Reg.hstCtrl v ∧ (s.stored Reg.hstCtrl v).primary ≠ s.primary) ∧
    (∃ s : State, ∃ v, s.accepts .ring Reg.hstCtrl v ∧ (s.stored Reg.hstCtrl v).portMode = s.portMode ∧
      (s.stored Reg.hstCtrl v).primary = s.primary) ∧
    (∃ s : State, s.up ∧ s.flag (Reg.hstPortStat_link 1) = true) ∧
    (∃ s : State, s.up ∧ s.flag (Reg.hstPortStat_link 1) = true ∧
      (s.received 1 wFrameIn).flag (Reg.hstPortStat_link 1) = true ∧ (s.received 1 wFrameIn).rxAccepts 1 wFrameIn = false) ∧
    (∃ s : State, s.up ∧ s.takesFrame 1 wFrameIn ∧
      (let u := s.received 1 wFrameIn
       (0 : Word).toNat = u.portIp4 1 ∧ (1 : Word).toNat ≠ u.portIp4 1 ∧ (0 : BitVec 128).toNat = u.portIp6 1 ∧
         (1 : BitVec 128).toNat ≠ u.portIp6 1 ∧ (0 : BitVec 3).toNat = u.fget Reg.hstNet_pcp ∧
         u.flag (Reg.hstPortStat_paused 1) = false)) ∧
    (∃ s : State, s.up ∧ s.flag (Reg.hstPortStat_paused 1) = true ∧ s.portUp 1 = true ∧ s.fget Reg.hstNet_pfc_wd ≠ 0) :=
  ⟨⟨wSet [(Reg.hstPortStat_link 1, 1), (Reg.hstPortStat_state 1, 1)], by decide⟩,
    ⟨(wSet [(Reg.hstPortStat_state 1, 2), (Reg.hstPortStat_link 1, 0)]).setPort 1 { PortSt.init with holding := true }, by decide⟩,
    ⟨(wSet [(Reg.hstPortStat_state 1, 1), (Reg.hstPortStat_link 1, 0)]).setPort 1 { PortSt.init with holding := true }, by decide⟩,
    ⟨wOn, by decide⟩, ⟨wSet [(Reg.hstPortStat_state 1, 2)], wWord (Reg.hstPortCtrl_down 1) 1, by decide⟩, ⟨wOn, 0, by decide⟩,
    ⟨wOn, 0x20000101, by decide⟩, ⟨wOn, 0x101, by decide⟩,
    ⟨wSet [(Reg.hstPortStat_link 1, 1)], by decide⟩,
    ⟨wSet [(Reg.hstPortStat_link 1, 1), (Reg.hstNet_vlan_en, 1)], by decide⟩,
    ⟨wSet [(Reg.hstPortStat_link 1, 1), (Reg.hstNet_pcp, 0)], by decide⟩,
    ⟨wSet [(Reg.hstPortStat_paused 1, 1), (Reg.hstPortStat_state 1, 2), (Reg.hstNet_pfc_wd, 1)], by decide⟩⟩

theorem witness_QueuePairs :
    (∃ s : State, s.up ∧ s.takesFrame (slotPort 15) wFrameIn ∧ (s.received (slotPort 15) wFrameIn).qpOn 15 = false) ∧
    (∃ s : State, s.up ∧ s.takesFrame (slotPort 15) wFrameIn ∧
      (let s' := s.received (slotPort 15) wFrameIn
       s'.qpOn 15 = true ∧ (s'.qp 15).acked = none ∧
         psnGe (0 : BitVec 24).toNat (((s'.qp 15).msgs.map (·.psn)).headD (s'.fget (Reg.qptQpPsn_psn 15))) = true ∧
         psnGe (0 : BitVec 24).toNat (s'.fget (Reg.qptQpPsn_psn 15)) = false)) ∧
    (∃ s : State, s.up ∧ s.takesFrame (slotPort 15) wFrameIn ∧
      (let s' := s.received (slotPort 15) wFrameIn
       s'.qpOn 15 = true ∧ s'.qpRts 15 = true ∧ (s'.bump (Reg.qptQpRetry_seqnaks 15) 1).fget (Reg.qptQpStat_run 15) = 7)) ∧
    (∃ s : State, s.up ∧ s.takesFrame (slotPort 15) wFrameIn ∧
      (let s' := s.received (slotPort 15) wFrameIn
       s'.qpOn 15 = true ∧ s'.qpRts 15 = true ∧ (s'.bump (Reg.qptQpRetry_seqnaks 15) 1).fget (Reg.qptQpStat_run 15) ≠ 7)) ∧
    (∃ s : State, s.up ∧ s.sends 15 = false ∧ s.qpRts 15 = true ∧ s.portUp (slotPort 15) = true ∧ (s.qp 15).reads ≠ []) ∧
    (∃ s : State, s.up ∧ s.sends 15 = true ∧
      (let v := s.readsShow 15
       v.qpRts 15 = true ∧ v.portUp (slotPort 15) = true ∧ (v.qp 15).reads ≠ [])) ∧
    (∃ s : State, ∃ v, s.accepts .ring (Reg.qptQpCtrl 15) v ∧ fld v.toNat (Reg.qptQpCtrl_reset 15) = 1) ∧
    (∃ s : State, s.up ∧ s.qpOn 15 = true ∧ s.flag Reg.qptEcn1_en = true ∧ s.takesFrame (slotPort 15) wFrameIn ∧
      (let s' := s.received (slotPort 15) wFrameIn
       let u := s'.bump (Reg.qptQpCnp_val 15) 1
       s'.qpOn 15 = true ∧ u.flag Reg.qptEcn1_en = true ∧ (u.qp 15).react = none)) := by
  let on (l : List (Fld × Nat)) : State := wSet ([(Reg.hstPortStat_link 1, 1), (Reg.qptQpCfg_en 15, 1)] ++ l)
  let asks (l : List (Fld × Nat)) : State := (on l).setQp 15 { Qp.init with reads := [{ psn := 0, kind := .credits }] }
  exact ⟨⟨wSet [(Reg.hstPortStat_link 1, 1)], by decide⟩,
    ⟨(on [(Reg.qptQpPsn_psn 15, 1)]).setQp 15 { Qp.init with msgs := [{ psn := 0, pkts := 1, body := .ctl 0 [] }] }, by decide⟩,
    ⟨on [(Reg.qptQpStat_state 15, 1), (Reg.qptQpStat_run 15, 7)], by decide⟩, ⟨on [(Reg.qptQpStat_state 15, 1)], by decide⟩,
    ⟨asks [(Reg.qptQpStat_state 15, 1), (Reg.hstPortStat_state 1, 2), (Reg.qptQpStat_moved 15, 1)], by decide⟩,
    ⟨asks [(Reg.qptQpStat_state 15, 1), (Reg.hstPortStat_state 1, 2)], by decide +kernel⟩,
    ⟨wSet [(Reg.qptQpStat_state 15, 2)], wWord (Reg.qptQpCtrl_reset 15) 1, by decide⟩, ⟨on [(Reg.qptEcn1_en, 1)], by decide⟩⟩

/-- An event in staging. -/
def wEvent : Event := { code := 0x0005, sev := .info, src := 0, time := 0, line := 0, pay := 0 }

/-- Port 0 up with its control slot 0. -/
def wCtrl (l : List (Fld × Nat)) : State :=
  wSet ([(Reg.hstPortStat_state 0, 2), (Reg.qptQpCfg_en 0, 1), (Reg.qptQpCfg_control 0, 1)] ++ l)

theorem witness_PollsAndEvents :
    (∃ s : State, s.controlled ∧ s.ctrlQp = some 0 ∧ s.pollOpen = true) ∧
    (∃ s : State, s.controlled ∧ s.ctrlQp = some 0 ∧ s.pollOpen = false ∧ (s.postRead 0 .credits).fget Reg.cmdCount_ccount = 0) ∧
    (∃ s : State, s.controlled ∧ s.ctrlQp = some 0 ∧ s.pollOpen = false ∧
      (s.postRead 0 .credits).flag Reg.cmdCtrl_pause = false ∧ (s.postRead 0 .credits).fget Reg.cmdCount_ccount ≠ 0) ∧
    (∃ s : State, s.controlled ∧ s.portMode = 1 ∧ s.portUp (1 - s.hst.active) = true ∧
      s.ctrlSlot (1 - s.hst.active) = some 15 ∧ (s.qp 15).reads.length < 8) ∧
    (∃ s : State, s.controlled ∧ s.evq.head = some (wEvent, []) ∧ s.ctrlQp = none) ∧
    (∃ s : State, s.controlled ∧ s.evq.head = some (wEvent, []) ∧ s.ctrlQp = some 0 ∧
      s.fget Reg.evqCount_ecount ≤ s.wget Reg.evqPi0 - s.wget Reg.evqCi0) ∧
    (∃ s : State, s.controlled ∧ s.evq.head = some (wEvent, []) ∧ s.ctrlQp = some 0 ∧
      s.wget Reg.evqPi0 - s.wget Reg.evqCi0 < s.fget Reg.evqCount_ecount ∧ s.flag Reg.evqStat_lost = false) ∧
    (∃ s : State, s.up ∧ s.takesFrame (slotPort 15) wFrameIn ∧
      (let s' := s.received (slotPort 15) wFrameIn
       s'.qpOn 15 = true ∧ (s'.qp 15).reads.find? (fun d => d.kind.polls) = some { psn := 0, kind := .credits })) ∧
    (∃ s : State, s.up ∧ s.takesFrame (slotPort 15) wFrameIn ∧
      (let s' := s.received (slotPort 15) wFrameIn
       s'.qpOn 15 = true ∧ (s'.qp 15).reads.find? (fun d => d.kind.polls) = some { psn := 0, kind := .standby })) ∧
    (∃ s : State, ∃ es : List (List Byte), s.up ∧ s.takesFrame (slotPort 15) wFrameIn ∧ (∀ e ∈ es, e.length = 64) ∧
      (let s' := s.received (slotPort 15) wFrameIn
       s'.qpOn 15 = true ∧ (s'.qp 15).reads.find? (fun d => d.kind.polls) = some { psn := 0, kind := .cmds 0 es.length } ∧
         (let w := ((s'.readsLeft 15 []).fput (Reg.qptQpStat_run 15) 0).fput Reg.cmdStat_fetch 0
          0 = w.wget Reg.cmdCi0 ∧ (w.takeEntries es).wget Reg.cmdCi0 = 0))) ∧
    (∃ t : State, ∃ b : List Byte, ¬ bitAt (leAt b 0 1) 7 = cmdPhase (t.fget Reg.cmdCount_ccount) (t.wget Reg.cmdCi0)) ∧
    (∃ t : State, ∃ b : List Byte, bitAt (leAt b 0 1) 7 = cmdPhase (t.fget Reg.cmdCount_ccount) (t.wget Reg.cmdCi0) ∧
      crc32c (b.take 60) = leAt b 60 4) ∧
    (∃ t : State, ∃ b : List Byte, bitAt (leAt b 0 1) 7 = cmdPhase (t.fget Reg.cmdCount_ccount) (t.wget Reg.cmdCi0) ∧
      crc32c (b.take 60) ≠ leAt b 60 4 ∧ (t.bump Reg.cmdCntCheck_val 1).fget Reg.cmdStat_retry < 2) ∧
    (∃ t : State, ∃ b : List Byte, bitAt (leAt b 0 1) 7 = cmdPhase (t.fget Reg.cmdCount_ccount) (t.wget Reg.cmdCi0) ∧
      crc32c (b.take 60) ≠ leAt b 60 4 ∧ 2 ≤ (t.bump Reg.cmdCntCheck_val 1).fget Reg.cmdStat_retry) := by
  let reads (k : RdKind) : State := (wSet [(Reg.hstPortStat_link 1, 1), (Reg.qptQpCfg_en 15, 1), (Reg.cmdCount_ccount, 64)]).setQp 15
    { Qp.init with reads := [{ psn := 0, kind := k }] }
  let ring (l : List (Fld × Nat)) : State := wSet ([(Reg.cmdCount_ccount, 64)] ++ l)
  let ev (s : State) : State := { s with evq := { EvqSt.init with staged := [wEvent] } }
  exact ⟨⟨(wCtrl []).setQp 0 { Qp.init with reads := [{ psn := 0, kind := .credits }] }, by decide⟩,
    ⟨wCtrl [(Reg.cmdCount_ccount, 0)], by decide +kernel⟩, ⟨wCtrl [(Reg.cmdCount_ccount, 64)], by decide +kernel⟩,
    ⟨wSet [(Reg.hstCtrl_mode, 1), (Reg.hstPortStat_state 1, 2), (Reg.qptQpCfg_en 15, 1), (Reg.qptQpCfg_control 15, 1)], by decide⟩,
    ⟨ev wOn, by decide⟩, ⟨ev (wCtrl [(Reg.evqCount_ecount, 0)]), by decide⟩, ⟨ev (wCtrl [(Reg.evqCount_ecount, 64)]), by decide⟩,
    ⟨reads .credits, by decide⟩, ⟨reads .standby, by decide⟩, ⟨reads (.cmds 0 1), [zeros 64], by decide +kernel⟩,
    ⟨ring [], zeros 64, by decide⟩, ⟨wOn, zeros 60 ++ leBytes 4 (crc32c (zeros 60)), by decide +kernel⟩,
    ⟨ring [(Reg.cmdStat_retry, 1)], 0x80 :: zeros 63, by decide +kernel⟩,
    ⟨ring [(Reg.cmdStat_retry, 2)], 0x80 :: zeros 63, by decide +kernel⟩⟩

theorem witness_RingCommands :
    (∃ s : State, ∃ e, s.atHead 0 e []) ∧
    (∃ s : State, ∃ e, s.atHead 1 e [] ∧ 6 < writeCount e) ∧
    (∃ s : State, ∃ e, s.atHead 1 e [] ∧ writeCount e ≠ 0 ∧ writeCount e ≤ 6 ∧
      (((s.popped []).cmdAccept 1 e).ringWrites 0 0 (writeList e)).1.cmd.stopped = true) ∧
    (∃ s : State, ∃ e, s.atHead 1 e [] ∧ writeCount e ≠ 0 ∧ writeCount e ≤ 6 ∧
      (((s.popped []).cmdAccept 1 e).ringWrites 0 0 (writeList e)).1.cmd.stopped = false) ∧
    (∃ s : State, ∃ e, s.atHead 2 e [] ∧ readCount e = 1 ∧ readOffset e = 0xFFFFFFFF) ∧
    (∃ s : State, ∃ e, s.atHead 2 e [] ∧ readCount e = 8 ∧ readOffset e % 64 = 0 ∧
      readOffset e + 64 ≤ (s.popped []).ctlSize) ∧
    (∃ s : State, ∃ e, s.atHead 7 e [] ∧ (s.popped []).loadOk e = false) ∧
    (∃ s : State, ∃ e, s.atHead 7 e [] ∧ (s.popped []).loadOk e = true ∧ (s.popped []).loadChannel = none) ∧
    (∃ s : State, ∃ e, s.atHead 7 e [] ∧ (s.popped []).loadOk e = true ∧ (s.popped []).loadChannel = some 31) ∧
    (∃ s : State, ∃ e, s.atHead 0x0B e [] ∧ s.isSafe = false ∧ cmdArg e 0 &&& 0x00FF1313 = cmdArg e 0 ∧
      cmdArg e 6 &&& 0x007F017F = cmdArg e 6 ∧ bitsAt (cmdArg e 0) 8 2 = 2) ∧
    (∃ s : State, ∃ e, ∃ op : Byte, 0x0E ≤ op.toNat ∧ s.atHead op.toNat e []) ∧
    (∃ s : State, ∃ e, s.controlled ∧ s.ringOpen = true ∧ s.cmd.taken = [{ op := 0, entry := e, bad := false }] ∧
      cmdFlagsBad e = true) := by
  let win (s : State) : State := { s with
    sec := { SecSt.init with keys := some (zeros 104 ++ [0, 0, 1, 0, 0, 0, 0, 0] ++ zeros 1112 ++ [0, 1, 0, 0, 0, 0, 0, 0] ++ zeros 9 ++ [7] ++ zeros 486) } }
  let own : State := { wOn with cfg := { CfgSt.init with claims := [{ cls := 3, idx := 31, owner := 9, fixed := true }] } }
  let load := wEntry [0, 2 ^ 31, bankBase 1, 0, 64]
  let bad : CmdEntry := { wEntry [] with flags := 2 }
  exact ⟨⟨wHead wOn 0 (wEntry []), wEntry [], by decide⟩, ⟨wHead wOn 1 (wEntry [7]), wEntry [7], by decide⟩,
    ⟨wHead wOn 1 (wEntry [1, Reg.cfgReset, 0xA5A55A5A]), wEntry [1, Reg.cfgReset, 0xA5A55A5A], by decide +kernel⟩,
    ⟨wHead wOn 1 (wEntry [1, Reg.sysTsyncCtrl, 3]), wEntry [1, Reg.sysTsyncCtrl, 3], by decide +kernel⟩,
    ⟨wHead wOn 2 (wEntry [1, 0xFFFFFFFF]), wEntry [1, 0xFFFFFFFF], by decide⟩,
    ⟨wHead (win wOn) 2 (wEntry [8, 0]), wEntry [8, 0], by decide +kernel⟩,
    ⟨wHead wOn 7 (wEntry []), wEntry [], by decide +kernel⟩, ⟨wHead (win wOn) 7 load, load, by decide +kernel⟩,
    ⟨wHead (win own) 7 load, load, by decide +kernel⟩,
    ⟨wHead wOn 0x0B (wEntry [0x00FF1213]), wEntry [0x00FF1213], by decide⟩,
    ⟨wHead wOn 0xFF (wEntry []), wEntry [], 0xFF, by decide⟩, ⟨wHead wOn 0 bad, bad, by decide⟩⟩

theorem witness_Resets :
    State.reset.cfg.due = none ∧ State.reset.accepts .ring Reg.cfgReset 0xA5A55A5A ∧
    (∃ s : State, s.cfg.due = some true) ∧
    (∃ s : State, s.cfg.due = some false ∧ bitAt (s.fget Reg.sysSafeCause_val) 2 = false) ∧
    (∃ s : State, s.cfg.due = some false ∧ bitAt (s.fget Reg.sysSafeCause_val) 2 = true) ∧
    (∃ s : State, s.cfg.held = true ∧ s.cfg.brownout = false ∧ s.cfg.powerOn = true ∧ s.sys.railsOut = [] ∧ s.sys.refOut = false) ∧
    (∃ s : State, s.cfg.powerOn = true ∧ s.sys.railsOut ≠ []) :=
  ⟨rfl, by decide, ⟨{ wOn with cfg := { CfgSt.init with due := some true } }, rfl⟩,
    ⟨{ wOn with cfg := { CfgSt.init with due := some false } }, by decide⟩,
    ⟨{ wSet [(Reg.sysSafeCause_val, 4)] with cfg := { CfgSt.init with due := some false } }, by decide⟩,
    ⟨{ wOn with cfg := { CfgSt.init with held := true, powerOn := true } }, by decide⟩,
    ⟨{ wOn with cfg := { CfgSt.init with powerOn := true }, sys := { SysSt.init with railsOut := [.core] } }, by decide⟩⟩

/-- A header that is plausible: an image of 320 bytes with one section (R362, R364). -/
def wImage : List Byte :=
  [0x41, 0x54, 0x4E, 0x54, 1, 0, 1, 0, 0x40, 1, 0, 0, 5, 0, 0, 0, 0, 0, 0x64, 0x34, 1, 0, 0, 0] ++ zeros 100 ++ [0xD2, 0xA4, 0x89, 0xEA]

theorem witness_ImageLoading :
    (∃ s : State, s.controlled ∧ s.fget Reg.cfgStat_step = 1 ∧ s.cfg.asked = 0) ∧
    (∃ s : State, s.controlled ∧ s.fget Reg.cfgStat_step = 4 ∧ s.headerCause wImage = 0 ∧ s.headerCause [] ≠ 0) ∧
    (∃ s : State, s.controlled ∧ s.fget Reg.cfgStat_step ≠ 0 ∧ s.fget Reg.cfgStat_step ≤ 6 ∧
      s.flag Reg.sysState_loaded = false ∧ s.cfg.failAt ≠ some (5 : BitVec 32).toNat) ∧
    (∃ s : State, s.controlled ∧ s.fget Reg.cfgStat_step ≠ 0 ∧ s.fget Reg.cfgStat_step ≤ 6 ∧
      s.flag Reg.sysState_loaded = false ∧ s.cfg.failAt = some (5 : BitVec 32).toNat ∧ s.cfg.repeats < 3) ∧
    (∃ s : State, s.controlled ∧ s.fget Reg.cfgStat_step ≠ 0 ∧ s.fget Reg.cfgStat_step ≤ 6 ∧
      s.flag Reg.sysState_loaded = false ∧ s.cfg.failAt = some (5 : BitVec 32).toNat ∧ 3 ≤ s.cfg.repeats ∧
      25 < s.fget Reg.cfgNor_mhz) ∧
    (∃ s : State, s.controlled ∧ s.fget Reg.cfgStat_step ≤ 6 ∧ s.flag Reg.sysState_loaded = false ∧
      s.cfg.failAt = some (5 : BitVec 32).toNat ∧ 3 ≤ s.cfg.repeats ∧ s.fget Reg.cfgNor_mhz ≤ 25 ∧ 4 ≤ s.fget Reg.cfgStat_step) ∧
    (∃ s : State, s.controlled ∧ s.fget Reg.cfgStat_step ≠ 0 ∧ s.fget Reg.cfgStat_step < 4 ∧ s.flag Reg.sysState_loaded = false ∧
      s.cfg.failAt = some (5 : BitVec 32).toNat ∧ 3 ≤ s.cfg.repeats ∧ s.fget Reg.cfgNor_mhz ≤ 25) ∧
    (∃ s : State, s.controlled ∧ s.cfg.order = [1] ∧ 4 < s.fget Reg.cfgStat_step) ∧
    (∃ s : State, s.controlled ∧ s.flag Reg.sysState_loaded = true ∧ s.flag Reg.cfgStat_ready = false ∧
      s.flag Reg.adcStat_start_done = true ∧ s.cfg.segsDone = true ∧ (∀ z < 64, s.zoneEn z = true → s.zoneState z ≠ 0) ∧
      s.shd.check.contains 1 = false) := by
  let boot (l : List (Fld × Nat)) : State := l.foldl (fun s x => s.fput x.1 x.2) State.reset
  let thrice (n : Nat) (s : State) : State := { s with cfg := { CfgSt.init with failAt := some 5, repeats := n } }
  exact ⟨⟨boot [(Reg.cfgStat_step, 1)], by decide⟩, ⟨boot [(Reg.cfgStat_step, 4), (Reg.cfgNor_dens, 26)], by decide +kernel⟩,
    ⟨boot [(Reg.cfgStat_step, 6)], by decide⟩, ⟨thrice 2 (boot [(Reg.cfgStat_step, 6)]), by decide⟩,
    ⟨thrice 3 (boot [(Reg.cfgStat_step, 6), (Reg.cfgNor_mhz, 26)]), by decide⟩,
    ⟨thrice 3 (boot [(Reg.cfgStat_step, 6), (Reg.cfgNor_mhz, 25)]), by decide⟩,
    ⟨thrice 3 (boot [(Reg.cfgStat_step, 3), (Reg.cfgNor_mhz, 25)]), by decide⟩,
    ⟨{ boot [(Reg.cfgStat_step, 5)] with cfg := { CfgSt.init with order := [1] } }, by decide⟩,
    ⟨{ wSet [(Reg.adcStat_start_done, 1)] with cfg := { CfgSt.init with segsDone := true } }, by decide +kernel⟩⟩

theorem witness_FusesSealZeroise :
    (∃ s : State, ∃ v, s.accepts .twb Reg.secFuseCtrl v ∧ fld v.toNat Reg.secFuseCtrl_key = 0xF05E ∧
      fld v.toNat Reg.secFuseCtrl_op ≠ 0) ∧
    (wOn.controlled ∧ wOn.sec.burning = none) ∧
    (∃ s : State, s.controlled ∧ s.sec.burning = some (1, [])) ∧ (∃ s : State, s.controlled ∧ s.sec.burning = some (2, [])) ∧
    (∃ s : State, s.controlled ∧ s.sec.burning = some (3, [])) ∧
    (∃ s : State, ∃ p v, s.accepts p Reg.secSealCtrl v ∧ fld v.toNat Reg.secSealCtrl_go = 1) ∧
    (∃ s : State, s.controlled ∧ s.flag Reg.secSealCtrl_busy = true ∧ s.flag Reg.secStat_keycut = true) ∧
    (wOn.controlled ∧ wOn.flag Reg.secSealCtrl_busy = false) ∧
    State.reset.accepts .twb Reg.secZeroise 0x5EC00001 ∧ (∃ s : State, s.controlled ∧ s.sec.zeroDue = true) := by
  let burn (op : Nat) : State := { wOn with sec := { SecSt.init with burning := some (op, []) } }
  exact ⟨⟨State.reset, wWord Reg.secFuseCtrl_key 0xF05E ||| wWord Reg.secFuseCtrl_op 1, by decide⟩, by decide,
    ⟨burn 1, by decide⟩, ⟨burn 2, by decide⟩, ⟨burn 3, by decide⟩,
    ⟨State.reset, .twb, wWord Reg.secSealCtrl_go 1 ||| wWord Reg.secSealCtrl_p 64, by decide⟩,
    ⟨wSet [(Reg.secSealCtrl_busy, 1), (Reg.secStat_keycut, 1)], by decide⟩, by decide, by decide,
    ⟨{ wOn with sec := { SecSt.init with zeroDue := true } }, by decide⟩⟩

theorem witness_TwoWire :
    State.reset.controlled ∧
    (∃ hi lo : Byte, ∃ data : List Byte, data ≠ [] ∧ (256 * hi.toNat + lo.toNat) % 32 + data.length ≤ 32 ∧
      ∃ s : State, s.controlled ∧ s.twb.buf ≠ [] ∧ s.twb.buf.length + data.length ≤ 32 ∧
        ∀ e, s.twb.buf.head? = some e → e.1 / 32 = (256 * hi.toNat + lo.toNat) / 32) ∧
    (∃ s : State, s.controlled ∧ s.fget Reg.twbCtrl_tstuck ≠ 0) ∧
    (∃ s : State, ∃ head, s.controlled ∧ (s.twbBytes head).twb.ptr = 0x8000 ∧ (s.twbBytes head).twb.buf = [] ∧
      (s.twbBytes head).twb.drop = 0) :=
  ⟨by decide, ⟨0, 31, [1], by decide, by decide, { wOn with twb := { wOn.twb with buf := [(30, 7)] } }, by decide, by decide, by decide,
      by intro e h; cases h; rfl⟩, ⟨wSet [(Reg.twbCtrl_tstuck, 1)], by decide⟩, ⟨wOn, [0x80, 0], by decide⟩⟩

theorem witness_TwoWireAbort : State.reset.Sound ∧ State.reset.controlled := ⟨witness_sound, by decide⟩

theorem witness_DebugPort :
    ((State.reset.fput Reg.dbgStat_ir 0x10).sec.dbglock = false ∧
      (State.reset.fput Reg.dbgStat_ir 0x10).flag Reg.dbgStat_open = false ∧ State.reset.controlled) ∧
    (∃ s : State, s.controlled ∧ (s.fput Reg.dbgStat_ir 0x10).sec.dbglock = true) ∧
    (∃ s : State, ∃ dr, s.controlled ∧ s.drScan.flag Reg.dbgStat_open = true ∧ s.drScan.irActs = 0x10 ∧ dbgGo dr = true ∧
      s.drScan.dbg.acc = none) ∧
    (∃ s : State, s.controlled ∧ s.drScan.flag Reg.dbgStat_open = true ∧ s.drScan.irActs ≠ 0x10) ∧
    (∃ s : State, s.controlled ∧ s.flag Reg.dbgStat_open = true ∧ s.irActs = 0x10) ∧
    (State.reset.controlled ∧ State.reset.irActs = 2) ∧
    (∃ s : State, s.controlled ∧ s.fget Reg.dbgStat_ir = 0x10 ∧ s.sec.dbglock = true ∧ s.drCapture = some (1, 0)) ∧
    (∃ s : State, s.controlled ∧ s.dbg.acc = some (0, 0, true)) ∧ (∃ s : State, s.controlled ∧ s.dbg.acc = some (0, 0, false)) :=
  ⟨by decide, ⟨{ wOn with sec := { SecSt.init with dbglock := true } }, by decide⟩,
    ⟨wSet [(Reg.dbgStat_open, 1), (Reg.dbgStat_ir, 0x10)], BitVec.ofNat 72 (2 ^ 71), by decide, rfl, rfl, by decide, rfl⟩,
    ⟨wSet [(Reg.dbgStat_open, 1), (Reg.dbgStat_ir, 2)], by decide⟩, ⟨wSet [(Reg.dbgStat_open, 1), (Reg.dbgStat_ir, 0x10)], by decide⟩,
    by decide, ⟨{ wSet [(Reg.dbgStat_ir, 0x10)] with sec := { SecSt.init with dbglock := true } }, by decide⟩,
    ⟨{ wOn with dbg := { DbgSt.init with acc := some (0, 0, true) } }, by decide⟩,
    ⟨{ wOn with dbg := { DbgSt.init with acc := some (0, 0, false) } }, by decide⟩⟩

theorem witness_IndicatorStrip :
    (∃ s : State, s.controlled ∧ s.isSafe = false ∧ s.engEn 3 = true ∧ s.fget (Reg.indEngCfg_type 3) = 2 ∧ s.fget (Reg.indEngTime_t1 3) ≠ 0) ∧
    (∃ s : State, s.controlled ∧ s.isSafe = true) ∧
    (∃ s : State, s.controlled ∧ s.flag Reg.indStat_safepat = true) ∧ (State.reset.Sound ∧ State.reset.controlled) :=
  ⟨⟨wSet [(Reg.indEngCfg_en 3, 1), (Reg.indEngCfg_type 3, 2), (Reg.indEngTime_t1 3, 1)], by decide⟩,
    ⟨wSet [(Reg.sysState_safe, 1)], by decide⟩, ⟨wSet [(Reg.indStat_safepat, 1)], by decide⟩, ⟨by decide, by decide, by decide⟩, by decide⟩

end Sys2Proof.Machine
end

section
/-!
The bits of a number that a field holds, under the operations by which a register write replaces fields, and the masks of a
register's fields.
-/

namespace Sys2Proof.Machine

theorem bitsAt_lt (n lo w : Nat) : bitsAt n lo w < 2 ^ w := Nat.mod_lt _ (Nat.two_pow_pos w)

theorem bitsAt_and (m n lo w : Nat) : bitsAt (m &&& n) lo w = bitsAt m lo w &&& bitsAt n lo w := by
  unfold bitsAt
  rw [Nat.and_div_two_pow, Nat.and_mod_two_pow]

theorem bitsAt_or (m n lo w : Nat) : bitsAt (m ||| n) lo w = bitsAt m lo w ||| bitsAt n lo w := by
  unfold bitsAt
  rw [Nat.or_div_two_pow, Nat.or_mod_two_pow]

theorem bitsAt_xor (m n lo w : Nat) : bitsAt (m ^^^ n) lo w = bitsAt m lo w ^^^ bitsAt n lo w := by
  unfold bitsAt
  rw [Nat.xor_div_two_pow, Nat.xor_mod_two_pow]

/-- Bits below `k` are those of the number modulo `2 ^ k`. -/
theorem bitsAt_mod_two_pow {n lo w k : Nat} (h : lo + w ≤ k) : bitsAt (n % 2 ^ k) lo w = bitsAt n lo w := by
  obtain ⟨d, rfl⟩ := Nat.exists_eq_add_of_le h
  unfold bitsAt
  rw [Nat.add_assoc, Nat.pow_add 2 lo, Nat.mod_mul_right_div_self, Nat.pow_add, Nat.mod_mul_right_mod]

theorem bitsAt_allOnes {lo w k : Nat} (h : lo + w ≤ k) : bitsAt (2 ^ k - 1) lo w = 2 ^ w - 1 := by
  unfold bitsAt
  refine Nat.eq_of_testBit_eq fun i => ?_
  simp only [Nat.testBit_mod_two_pow, Nat.testBit_div_two_pow, Nat.testBit_two_pow_sub_one, Bool.and_eq_left_iff_imp,
    decide_eq_true_eq]
  omega

/-- A field inside the mask is replaced. -/
theorem bitsAt_blend_of_ones {old m v lo w : Nat} (h : lo + w ≤ 32) (hm : bitsAt m lo w = 2 ^ w - 1) :
    bitsAt (blend old m v) lo w = bitsAt v lo w := by
  unfold blend
  rw [bitsAt_or, bitsAt_and, bitsAt_and, bitsAt_xor, bitsAt_mod_two_pow h, bitsAt_allOnes h, hm, Nat.xor_self, Nat.and_zero,
    Nat.zero_or, Nat.and_two_pow_sub_one_of_lt_two_pow (bitsAt_lt v lo w)]

/-- A field outside the mask stays. -/
theorem bitsAt_blend_of_zero {old m v lo w : Nat} (h : lo + w ≤ 32) (hm : bitsAt m lo w = 0) :
    bitsAt (blend old m v) lo w = bitsAt old lo w := by
  unfold blend
  rw [bitsAt_or, bitsAt_and, bitsAt_and, bitsAt_xor, bitsAt_mod_two_pow h, bitsAt_allOnes h, hm, Nat.xor_zero, Nat.and_zero,
    Nat.or_zero, Nat.and_two_pow_sub_one_of_lt_two_pow (bitsAt_lt old lo w)]

@[simp] theorem blend_zero_mask {old v : Nat} (h : old < 2 ^ 32) : blend old 0 v = old := by
  unfold blend
  rw [Nat.zero_mod, Nat.xor_zero, Nat.and_zero, Nat.or_zero, Nat.and_two_pow_sub_one_of_lt_two_pow h]

theorem blend_allOnes_zero (old : Nat) : blend old (2 ^ 32 - 1) 0 = 0 := by
  simp [blend]

theorem putBits_bitsAt_same (n lo w : Nat) : putBits n lo w (bitsAt n lo w) = n := by
  unfold putBits bitsAt
  rw [Nat.mod_mod, Nat.pow_add, ← Nat.div_div_eq_div_mul]
  calc n / 2 ^ lo / 2 ^ w * (2 ^ lo * 2 ^ w) + n / 2 ^ lo % 2 ^ w * 2 ^ lo + n % 2 ^ lo
      = 2 ^ lo * (2 ^ w * (n / 2 ^ lo / 2 ^ w) + n / 2 ^ lo % 2 ^ w) + n % 2 ^ lo := by ring
    _ = n := by rw [Nat.div_add_mod, Nat.div_add_mod]

/-- Adding a field's bits to a number that has none of them puts the field. -/
theorem add_eq_putBits {n lo w v : Nat} (hn : bitsAt n lo w = 0) (hv : v < 2 ^ w) : n + v * 2 ^ lo = putBits n lo w v := by
  have h := putBits_bitsAt_same n lo w
  rw [hn] at h
  simp only [putBits, Nat.zero_mod, Nat.zero_mul, Nat.add_zero, Nat.mod_eq_of_lt hv] at h ⊢
  omega

/-- Two fields of a register share no bit. -/
abbrev FldDesc.apart (f g : FldDesc) : Prop := f.lo + f.w ≤ g.lo ∨ g.lo + g.w ≤ f.lo

/-- The fields of a register share no bit and lie in its 32 bits (R7). -/
abbrev RegDesc.laidOut (d : RegDesc) : Prop := d.flds.Pairwise FldDesc.apart ∧ ∀ f ∈ d.flds, f.lo + f.w ≤ 32

theorem regBlocks_laidOut : ∀ b ∈ regBlocks, ∀ d ∈ b.2.2, d.laidOut := by decide

/-- Every register of the map is laid out in fields that share no bit. -/
theorem laidOut_of_findReg {a : Nat} {d : RegDesc} (h : findReg a = some d) : d.laidOut := by
  unfold findReg at h
  split at h
  next b hb => exact regBlocks_laidOut b (List.mem_of_find?_eq_some hb) d (List.mem_of_find?_eq_some h)
  next => cases h

/-- What `fieldMask` does with one field. -/
def maskAdd (p : FldDesc → Bool) (m : Nat) (f : FldDesc) : Nat := if p f then m + (2 ^ f.w - 1) * 2 ^ f.lo else m

theorem fieldMask_eq_foldl (fs : List FldDesc) (p : FldDesc → Bool) : fieldMask fs p = fs.foldl (maskAdd p) 0 := rfl

section
variable {p : FldDesc → Bool} {m : Nat} {f g : FldDesc} {fs : List FldDesc}

theorem maskAdd_eq_putBits (hf : p f = true) (hm : bitsAt m f.lo f.w = 0) :
    maskAdd p m f = putBits m f.lo f.w (2 ^ f.w - 1) := by
  unfold maskAdd
  rw [if_pos hf, add_eq_putBits hm (Nat.sub_one_lt (Nat.two_pow_pos _).ne')]

theorem bitsAt_maskAdd_self (hm : bitsAt m f.lo f.w = 0) :
    bitsAt (maskAdd p m f) f.lo f.w = if p f then 2 ^ f.w - 1 else 0 := by
  by_cases hf : p f = true
  · rw [maskAdd_eq_putBits hf hm, bitsAt_putBits, if_pos hf, Nat.mod_eq_of_lt (Nat.sub_one_lt (Nat.two_pow_pos _).ne')]
  · rw [maskAdd, if_neg hf, if_neg hf, hm]

theorem bitsAt_maskAdd_apart (hm : bitsAt m f.lo f.w = 0) (h : f.apart g) :
    bitsAt (maskAdd p m f) g.lo g.w = bitsAt m g.lo g.w := by
  by_cases hf : p f = true
  · rw [maskAdd_eq_putBits hf hm]
    rcases h with h | h
    · exact bitsAt_putBits_above h
    · exact bitsAt_putBits_below h
  · rw [maskAdd, if_neg hf]

/-- Adding fields leaves the bits of a field apart from all of them. -/
theorem bitsAt_foldl_maskAdd_apart (hp : fs.Pairwise FldDesc.apart) (hm : ∀ f ∈ fs, bitsAt m f.lo f.w = 0)
    (hg : ∀ f ∈ fs, f.apart g) : bitsAt (fs.foldl (maskAdd p) m) g.lo g.w = bitsAt m g.lo g.w := by
  induction fs generalizing m with
  | nil => rfl
  | cons f r ih =>
    obtain ⟨hfr, hr⟩ := List.pairwise_cons.1 hp
    obtain ⟨hmf, hmr⟩ := List.forall_mem_cons.1 hm
    obtain ⟨hgf, hgr⟩ := List.forall_mem_cons.1 hg
    rw [List.foldl_cons, ih hr (fun e he => (bitsAt_maskAdd_apart hmf (hfr e he)).trans (hmr e he)) hgr,
      bitsAt_maskAdd_apart hmf hgf]

theorem bitsAt_foldl_maskAdd_mem (hp : fs.Pairwise FldDesc.apart) (hm : ∀ f ∈ fs, bitsAt m f.lo f.w = 0) (hf : f ∈ fs) :
    bitsAt (fs.foldl (maskAdd p) m) f.lo f.w = if p f then 2 ^ f.w - 1 else 0 := by
  induction fs generalizing m with
  | nil => cases hf
  | cons e r ih =>
    obtain ⟨her, hr⟩ := List.pairwise_cons.1 hp
    obtain ⟨hme, hmr⟩ := List.forall_mem_cons.1 hm
    have hm' : ∀ g ∈ r, bitsAt (maskAdd p m e) g.lo g.w = 0 := fun g hg =>
      (bitsAt_maskAdd_apart hme (her g hg)).trans (hmr g hg)
    rw [List.foldl_cons]
    rcases List.mem_cons.1 hf with rfl | hf
    · rw [bitsAt_foldl_maskAdd_apart hr hm' fun g hg => (her g hg).symm, bitsAt_maskAdd_self hme]
    · exact ih hr hm' hf

/-- The mask holds every bit of a field that satisfies `p`, and none of a field that does not. -/
theorem bitsAt_fieldMask (hp : fs.Pairwise FldDesc.apart) (hf : f ∈ fs) :
    bitsAt (fieldMask fs p) f.lo f.w = if p f then 2 ^ f.w - 1 else 0 := by
  rw [fieldMask_eq_foldl]
  exact bitsAt_foldl_maskAdd_mem hp (fun e _ => by simp [bitsAt]) hf

end

end Sys2Proof.Machine
end

section
/-!
Register accesses that reach their register: what the guards of the paths leave of a read and of a write (R8, R9, R349), and
what a write stores (R8, R16).
-/

namespace Sys2Proof.Machine

variable {s : State} {p : Path}

theorem State.access_of_reaches (h : s.reaches p) (f : State → State) : s.access p f = f s := by
  obtain ⟨⟨hheld, hlost⟩, hopen⟩ := h
  have hdbg : (decide (p = .dbg) && !s.flag Reg.dbgStat_open) = false := by
    by_cases hp : p = .dbg
    · simp [hopen hp]
    · simp [hp]
  simp [State.access, State.ctl, hdbg, hheld, hlost]

theorem exec_registerWrite_of_accepts {a v : Word} (h : s.accepts p a.toNat v) :
    exec (.registerWrite p a v) s = .next (s.regDo p a.toNat v) := by
  obtain ⟨hreach, hreason⟩ := h
  have hlost : s.sys.ctlLost = false := hreach.1.2
  show Host.Outcome.next (s.pathWrite p a.toNat v) = _
  simp [State.pathWrite, State.access_of_reaches hreach, State.regWrite, hlost, hreason]

theorem State.regDo_unassigned {a : Nat} {v : Word} (h : findReg a = none) : s.regDo p a v = s := by
  simp [State.regDo, h]

theorem State.stored_of_findReg {a : Nat} {v : Word} {d : RegDesc} (h : findReg a = some d) :
    s.stored a v = s.putReg d a v.toNat := by
  simp [State.stored, h]

/-- A write of a plain register stores its fields, then acts as its block does (R8, R378). -/
theorem State.regDo_plain {a : Nat} {v : Word} {d : RegDesc} (hd : findReg a = some d) (hw : d.writes = true)
    (hgroup : writeGroup a = none) (hchan : chanAt a = none) (hcause : a ≠ Reg.sysSafeCause) (hbank : a ≠ Reg.shdBank) :
    s.regDo p a v =
      (let t := (s.stored a v).effect s p a v.toNat
       if claimRegs.contains a then t.reclaim else t) := by
  simp only [State.regDo, hd, hchan, hw, hgroup, State.doWrite, if_neg hcause, if_neg hbank, State.stored_of_findReg hd]
  rfl

/-- A register with the bits of a mask replaced; an empty mask writes nothing. -/
def State.blended (s : State) (a m v : Nat) : State :=
  if m = 0 then s else s.rput a (BitVec.ofNat 32 (blend (s.rget a).toNat m v))

theorem State.blended_mem {a m v : Nat} : (s.blended a m v).mem = s.mem := by
  unfold State.blended
  split <;> rfl

theorem State.blended_regs_wf {a m v : Nat} (h : Regs.wf s.regs) : Regs.wf (s.blended a m v).regs := by
  unfold State.blended
  split
  · exact h
  · exact tput_wf _ _ h

theorem State.rget_blended_ne {a m v b : Nat} (h : Regs.wf s.regs) (hb : b ≠ a) :
    (s.blended a m v).rget b = s.rget b := by
  unfold State.blended
  split
  · rfl
  · exact State.rget_rput_ne h hb

theorem State.rget_blended {a m v : Nat} (h : Regs.wf s.regs) :
    (s.blended a m v).rget a = BitVec.ofNat 32 (blend (s.rget a).toNat m v) := by
  unfold State.blended
  split
  next hm => rw [hm, blend_zero_mask (s.rget a).isLt, BitVec.ofNat_toNat, BitVec.setWidth_eq]
  next => rw [State.rget_rput h, if_pos rfl]

/-- A field of a register after the bits of a mask were replaced, as the blend of the words has it. -/
theorem State.bitsAt_rget_blended {a m v lo w : Nat} (h : Regs.wf s.regs) (hw : lo + w ≤ 32) :
    bitsAt ((s.blended a m v).rget a).toNat lo w = bitsAt (blend (s.rget a).toNat m v) lo w := by
  rw [State.rget_blended h, BitVec.toNat_ofNat, bitsAt_mod_two_pow hw]

@[simp] theorem State.shadow_regs {c : Cls} {x a m v : Nat} : (s.shadow c x a m v).regs = s.regs := by
  unfold State.shadow
  split <;> rfl

@[simp] theorem State.shadow_mem {c : Cls} {x a m v : Nat} : (s.shadow c x a m v).mem = s.mem := by
  unfold State.shadow
  split <;> rfl

@[simp] theorem State.setAxis_regs {a : Nat} {x : Axis} : (s.setAxis a x).regs = s.regs := rfl
@[simp] theorem State.setAxis_mem {a : Nat} {x : Axis} : (s.setAxis a x).mem = s.mem := rfl

/-- Enter the written bits into the shadow of a register's RWS fields of one class (R16). -/
def State.shadowClass (s : State) (d : RegDesc) (a v : Nat) (c : Cls) : State :=
  let m := fieldMask d.flds (fun f => f.acc == .rws && f.cls == some c)
  if m = 0 then s
  else if c = .mb then (s.shadow c (axisOf a) a m v).setAxis (axisOf a) { s.axis (axisOf a) with wrote := true }
  else s.shadow c 0 a m v

theorem State.shadowClass_regs_mem (s : State) (d : RegDesc) (a v : Nat) (c : Cls) :
    (s.shadowClass d a v c).regs = s.regs ∧ (s.shadowClass d a v c).mem = s.mem := by
  unfold State.shadowClass
  dsimp only
  split
  · exact ⟨rfl, rfl⟩
  · split <;> simp

theorem foldl_regs_mem {α : Type} {f : State → α → State} (l : List α)
    (hf : ∀ t x, (f t x).regs = t.regs ∧ (f t x).mem = t.mem) (s : State) :
    (l.foldl f s).regs = s.regs ∧ (l.foldl f s).mem = s.mem := by
  induction l generalizing s with
  | nil => exact ⟨rfl, rfl⟩
  | cons x r ih =>
    obtain ⟨hregs, hmem⟩ := hf s x
    obtain ⟨ihregs, ihmem⟩ := ih (f s x)
    exact ⟨ihregs.trans hregs, ihmem.trans hmem⟩

/-- The register file's part of a write (R8): the RW fields take the written bits, then the W1C fields written 1 are cleared. -/
def State.wordPut (s : State) (d : RegDesc) (a v : Nat) : State :=
  (s.blended a (s.writable a (fieldMask d.flds (fun f => f.acc == .rw))) v).blended a
    (fieldMask d.flds (fun f => f.acc == .w1c) &&& v) 0

theorem State.putReg_eq_foldl (s : State) (d : RegDesc) (a v : Nat) :
    s.putReg d a v = allCls.foldl (fun t c => t.shadowClass d a v c) (s.wordPut d a v) := rfl

theorem State.rget_of_regs {t u : State} (h : t.regs = u.regs) (a : Nat) : t.rget a = u.rget a := by
  unfold State.rget
  rw [h]

/-- RWS fields enter their shadows alone (R16). -/
theorem State.rget_putReg (s : State) (d : RegDesc) (a v b : Nat) : (s.putReg d a v).rget b = (s.wordPut d a v).rget b := by
  rw [State.putReg_eq_foldl]
  exact State.rget_of_regs (foldl_regs_mem allCls (fun t c => t.shadowClass_regs_mem d a v c) (s.wordPut d a v)).1 b

theorem State.putReg_mem (s : State) (d : RegDesc) (a v : Nat) : (s.putReg d a v).mem = s.mem := by
  rw [State.putReg_eq_foldl, (foldl_regs_mem allCls (fun t c => t.shadowClass_regs_mem d a v c) (s.wordPut d a v)).2,
    State.wordPut, State.blended_mem, State.blended_mem]

theorem State.putReg_regsKept (h : Regs.wf s.regs) (d : RegDesc) (a v : Nat) : s.regsKept (s.putReg d a v) [a] := by
  intro b hb
  have hne : b ≠ a := by simpa using hb
  rw [State.rget_putReg, State.wordPut, State.rget_blended_ne (State.blended_regs_wf h) hne,
    State.rget_blended_ne h hne]

/-- Outside a job, and in a job for every register but LMP_ZONE_z_CFG, every RW field may be written (R116). -/
theorem State.writable_eq {a m : Nat} (h : s.running = true → famIx Reg.lmpZoneCfg 64 a = none) : s.writable a m = m := by
  unfold State.writable
  cases hr : s.running
  · rfl
  · simp [h hr]

/-- An RW field that may be written holds the written bits (R8). -/
theorem State.bitsAt_putReg_rw {d : RegDesc} {f : FldDesc} {a v : Nat} (h : Regs.wf s.regs) (hd : d.laidOut)
    (hf : f ∈ d.flds) (hrw : f.acc = .rw) (hzone : s.running = true → famIx Reg.lmpZoneCfg 64 a = none) :
    bitsAt ((s.putReg d a v).rget a).toNat f.lo f.w = bitsAt v f.lo f.w := by
  obtain ⟨hapart, hfit⟩ := hd
  have hrwMask : bitsAt (fieldMask d.flds (fun f => f.acc == .rw)) f.lo f.w = 2 ^ f.w - 1 := by
    rw [bitsAt_fieldMask hapart hf, hrw]; rfl
  have hw1cMask : bitsAt (fieldMask d.flds (fun f => f.acc == .w1c) &&& v) f.lo f.w = 0 := by
    rw [bitsAt_and, bitsAt_fieldMask hapart hf, hrw]; exact Nat.zero_and _
  rw [State.rget_putReg, State.wordPut, State.bitsAt_rget_blended (State.blended_regs_wf h) (hfit f hf),
    bitsAt_blend_of_zero (hfit f hf) hw1cMask, State.bitsAt_rget_blended h (hfit f hf), State.writable_eq hzone,
    bitsAt_blend_of_ones (hfit f hf) hrwMask]

end Sys2Proof.Machine
end

section
/-! What an accepted register write does (R8, R9, R33, R116). -/

namespace Sys2Proof.Machine

variable {s : State} {p : Path}

theorem findReg_sysTsyncCtrl :
    findReg Reg.sysTsyncCtrl = some ⟨0x20, [], [⟨1, 1, .rw, 0, none⟩, ⟨0, 1, .rw, 0, none⟩]⟩ := by decide

/-- EN and POL are the whole of what a write of SYS_TSYNC_CTRL stores (R33). -/
theorem State.stored_sysTsyncCtrl (s : State) (v : Word) :
    s.stored Reg.sysTsyncCtrl v =
      s.rput Reg.sysTsyncCtrl (BitVec.ofNat 32 (blend (s.rget Reg.sysTsyncCtrl).toNat 3 v.toNat)) := by
  have hzone : s.running = true → famIx Reg.lmpZoneCfg 64 Reg.sysTsyncCtrl = none := fun _ => by decide
  rw [State.stored_of_findReg findReg_sysTsyncCtrl]
  simp [State.putReg, State.writable_eq hzone, fieldMask, allCls]

/-- SYS_TSYNC_CTRL has no effect of its own. -/
theorem State.effect_sysTsyncCtrl (t before : State) (v : Nat) : t.effect before p Reg.sysTsyncCtrl v = t := rfl

theorem exec_registerWrite_sysTsyncCtrl {v : Word} (h : s.accepts p Reg.sysTsyncCtrl v) :
    exec (.registerWrite p (BitVec.ofNat 32 Reg.sysTsyncCtrl) v) s =
      .next (s.rput Reg.sysTsyncCtrl (BitVec.ofNat 32 (blend (s.rget Reg.sysTsyncCtrl).toNat 3 v.toNat))) := by
  have hplain := State.regDo_plain (s := s) (p := p) (v := v) findReg_sysTsyncCtrl (by decide) (by decide) (by decide)
    (by decide) (by decide)
  have hclaim : ¬ claimRegs.contains Reg.sysTsyncCtrl = true := by decide
  rw [exec_registerWrite_of_accepts (a := BitVec.ofNat 32 Reg.sysTsyncCtrl) h]
  show Host.Outcome.next (s.regDo p Reg.sysTsyncCtrl v) = _
  rw [hplain, State.effect_sysTsyncCtrl, State.stored_sysTsyncCtrl]
  exact congrArg _ (if_neg hclaim)

/-- Settles O7: the RW fields lie apart from the W1C fields of their register, so the written bits that enter them stay. -/
theorem registerWriteSetsRwFields : Obligations.RegisterWriteSetsRwFields := by
  unfold Obligations.RegisterWriteSetsRwFields
  refine ⟨⟨fun s p a v d hs hd hw hgroup hchan hcause hbank hacc => ?_, fun s p v hacc => ?_⟩, fun s p a v hnone hacc => ?_⟩
  · rw [State.stored_of_findReg hd]
    refine ⟨?_, State.putReg_regsKept hs.regs d _ _, s.putReg_mem d _ _, fun f hf hrw hzone =>
      State.bitsAt_putReg_rw hs.regs (laidOut_of_findReg hd) hf hrw hzone⟩
    rw [exec_registerWrite_of_accepts hacc, State.regDo_plain hd hw hgroup hchan hcause hbank, State.stored_of_findReg hd]
  · exact exec_registerWrite_sysTsyncCtrl hacc
  · rw [exec_registerWrite_of_accepts hacc, State.regDo_unassigned hnone]

end Sys2Proof.Machine
end

section
/-! What a read answers and what it leaves: RC fields, multi-word values and their latches (R8, R26, R27). -/

namespace Sys2Proof.Machine

variable {s : State} {p : Path}

theorem State.pathRead_of_reaches (h : s.reaches p) (a : Nat) :
    s.pathRead p a = (s.readReg p a).2.out (.value p a (s.readReg p a).1) := State.access_of_reaches h _

/-- A register whose block always answers and that no path is kept from: nothing comes before the read itself. -/
theorem State.readReg_guard {a : Nat} (h : s.reaches p) (hbare : bareBlock a = true) (hseal : sealReg a = false) :
    (s.sys.ctlLost || s.bare && !bareBlock a) = false ∧ (decide (p = .ring) && sealReg a) = false := by
  obtain ⟨⟨-, hlost⟩, -⟩ := h
  simp [hlost, hbare, hseal]

/-- A read of a register of its own answers it and clears its RC fields (R8). -/
theorem State.readReg_single {a : Nat} (h : s.reaches p) (hbare : bareBlock a = true) (hseal : sealReg a = false)
    (hgroup : groupAt a = none) : s.readReg p a = (s.seen p a, s.clearRc a) := by
  obtain ⟨hanswers, hopen⟩ := State.readReg_guard h hbare hseal
  simp [State.readReg, hanswers, hopen, hgroup]

/-- A read of word 0 latches every word of its value for the path (R27). -/
theorem State.readReg_first {a b n : Nat} (h : s.reaches p) (hbare : bareBlock a = true) (hseal : sealReg a = false)
    (hgroup : groupAt a = some (b, n, 0)) (hsvc : a ≠ Reg.lffSvcData 0) :
    s.readReg p a = ((s.latchAll p a n).seen p a, s.latchAll p a n) := by
  obtain ⟨hanswers, hopen⟩ := State.readReg_guard h hbare hseal
  simp [State.readReg, hanswers, hopen, hgroup, hsvc]

/-- A read of a higher word answers what is latched on its path (R27). -/
theorem State.readReg_higher {a b n i : Nat} (h : s.reaches p) (hbare : bareBlock a = true) (hseal : sealReg a = false)
    (hgroup : groupAt a = some (b, n, i + 1)) :
    s.readReg p a = (tget (fun _ => 0) s.sys.latch (pathKey p a), s) := by
  obtain ⟨hanswers, hopen⟩ := State.readReg_guard h hbare hseal
  simp [State.readReg, hanswers, hopen, hgroup]

/-- Latching changes the latches alone. -/
theorem State.latchAll_eq (s : State) (p : Path) (base n : Nat) :
    ∃ l, s.latchAll p base n = { s with sys := { s.sys with latch := l } } := by
  unfold State.latchAll State.each
  refine List.foldlRecOn (motive := fun t : State => ∃ l, t = { s with sys := { s.sys with latch := l } }) _ _
    ⟨s.sys.latch, rfl⟩ ?_
  rintro t ⟨l, rfl⟩ w -
  exact ⟨_, rfl⟩

@[simp] theorem State.latchAll_now {base n : Nat} : (s.latchAll p base n).sys.now = s.sys.now := by
  obtain ⟨l, hl⟩ := s.latchAll_eq p base n
  rw [hl]

@[simp] theorem State.latchAll_viewOn {base n : Nat} {q : Path} : (s.latchAll p base n).viewOn q = s.viewOn q := by
  obtain ⟨l, hl⟩ := s.latchAll_eq p base n
  rw [hl]
  cases q <;> rfl

/-- While VIEW is 0 a path sees the values in force (R26). -/
theorem State.seen_of_viewOff {a : Nat} (hview : s.viewOn p = false) (ha : a ≠ Reg.sysSnapCtrl) : s.seen p a = s.inForce a := by
  simp [State.seen, hview, ha]

theorem findReg_sysTsyncOvr : findReg Reg.sysTsyncOvr = some ⟨0x24, [], [⟨0, 32, .rc, 0, none⟩]⟩ := by decide

theorem findReg_sysTime0 : findReg Reg.sysTime0 = some ⟨0x10, [], [⟨0, 32, .ro, 0, none⟩]⟩ := by decide

/-- A register without write-only bits reads as it stands, or as the state it mirrors (R8). -/
theorem State.inForce_readable {a : Nat} {d : RegDesc} (hd : findReg a = some d)
    (hwo : fieldMask d.flds (fun f => f.acc == .wo) = 0) : s.inForce a = (s.view a).getD (s.rget a) := by
  simp only [State.inForce, hd, hwo]
  rw [BitVec.not_zero, BitVec.and_allOnes]

theorem State.inForce_sysTsyncOvr (s : State) : s.inForce Reg.sysTsyncOvr = s.rget Reg.sysTsyncOvr := by
  have hview : s.view Reg.sysTsyncOvr = none := rfl
  rw [State.inForce_readable findReg_sysTsyncOvr (by decide), hview, Option.getD_none]

/-- The low word of SYS_TIME is that of device time (R27, R29). -/
theorem State.inForce_sysTime0 (s : State) : s.inForce Reg.sysTime0 = BitVec.ofNat 32 s.sys.now := by
  have hview : s.view Reg.sysTime0 = some (wordOf s.sys.now 0) := rfl
  rw [State.inForce_readable findReg_sysTime0 (by decide), hview, Option.getD_some, wordOf, Nat.mul_zero, Nat.pow_zero,
    Nat.div_one]

theorem State.clearRc_sysTsyncOvr (s : State) : s.clearRc Reg.sysTsyncOvr = s.rput Reg.sysTsyncOvr 0 := by
  have hmask : fieldMask [⟨0, 32, .rc, 0, none⟩] (fun f => f.acc == .rc) = 2 ^ 32 - 1 := by decide
  have hfill : Reg.sysTsyncOvr ≠ Reg.lffFillMax := by decide
  have hpause : famIx Reg.hstPortPause 2 Reg.sysTsyncOvr = none := by decide
  simp only [State.clearRc, findReg_sysTsyncOvr, hmask, blend_allOnes_zero, if_neg hfill, hpause]
  rfl

theorem exec_rcRead_sysTsyncOvr (h : s.reaches p) (hview : s.viewOn p = false) :
    exec (.rcRead p (BitVec.ofNat 32 Reg.sysTsyncOvr)) s =
      .next ((s.clearRc Reg.sysTsyncOvr).out (.value p Reg.sysTsyncOvr (s.rget Reg.sysTsyncOvr))) := by
  show Host.Outcome.next (s.pathRead p Reg.sysTsyncOvr) = _
  rw [State.pathRead_of_reaches h, State.readReg_single h (by decide) (by decide) (by decide),
    State.seen_of_viewOff hview (by decide), State.inForce_sysTsyncOvr]

theorem exec_multiwordRead_sysTime0 (h : s.reaches p) (hview : s.viewOn p = false) :
    exec (.multiwordRead p (BitVec.ofNat 32 Reg.sysTime0)) s =
      .next ((s.latchAll p Reg.sysTime0 2).out (.value p Reg.sysTime0 (BitVec.ofNat 32 s.sys.now))) := by
  have hgroup : groupAt Reg.sysTime0 = some (Reg.sysTime0, 2, 0) := by decide
  show Host.Outcome.next (s.pathRead p Reg.sysTime0) = _
  rw [State.pathRead_of_reaches h, State.readReg_first h (by decide) (by decide) hgroup (by decide),
    State.seen_of_viewOff (State.latchAll_viewOn.trans hview) (by decide), State.inForce_sysTime0, State.latchAll_now]

theorem exec_multiwordRead_sysTime1 (h : s.reaches p) :
    exec (.multiwordRead p (BitVec.ofNat 32 Reg.sysTime1)) s =
      .next (s.out (.value p Reg.sysTime1 (tget (fun _ => 0) s.sys.latch (pathKey p Reg.sysTime1)))) := by
  have hgroup : groupAt Reg.sysTime1 = some (Reg.sysTime0, 2, 0 + 1) := by decide
  show Host.Outcome.next (s.pathRead p Reg.sysTime1) = _
  rw [State.pathRead_of_reaches h, State.readReg_higher h (by decide) (by decide) hgroup]

/-- Settles O9, by the three kinds of read: a register of its own, the first word of a value, a higher word of it. -/
theorem rcReadAnswersAndClears : Obligations.RcReadAnswersAndClears := by
  unfold Obligations.RcReadAnswersAndClears
  refine ⟨fun s p hreach hview => ⟨exec_rcRead_sysTsyncOvr hreach hview, fun hs => ?_⟩, fun s p hreach hview =>
    ⟨exec_multiwordRead_sysTime0 hreach hview, exec_multiwordRead_sysTime1 hreach⟩⟩
  rw [State.clearRc_sysTsyncOvr]
  refine ⟨by rw [State.rget_rput hs.regs, if_pos rfl], fun b hb => ?_⟩
  exact State.rget_rput_ne hs.regs (by simpa using hb)

end Sys2Proof.Machine
end

section
/-!
The guards of the commands: an operation of a device out of reset whose control island lives is carried out (R12, R358), an
accepted register write does its work (R349), and so does the command at the head of the ring (R345).
-/

namespace Sys2Proof.Machine

variable {s : State} {p : Path}

theorem State.ctl_of_controlled (h : s.controlled) (f : State → State) : s.ctl f = f s := by
  obtain ⟨hheld, hlost⟩ := h
  simp [State.ctl, hheld, hlost]

theorem State.live_of_up (h : s.up) (f : State → State) : s.live f = f s := by
  have hheld : s.cfg.held = false := h
  simp [State.live, hheld]

theorem State.pathWrite_of_accepts {a : Nat} {v : Word} (h : s.accepts p a v) : s.pathWrite p a v = s.regDo p a v := by
  obtain ⟨hreach, hreason⟩ := h
  have hlost : s.sys.ctlLost = false := hreach.1.2
  simp [State.pathWrite, State.access_of_reaches hreach, State.regWrite, hlost, hreason]

theorem next_eq {t u : State} (h : t = u) : (.next t : Host.Outcome State Fault Refusal) = .next u := congrArg _ h

/-- What a row of the control island does on a device that is not held, with the control island alive (R12). -/
theorem next_ctl {f : State → State} {t : State} (h : s.controlled) (ht : f s = t) :
    (.next (s.ctl f) : Host.Outcome State Fault Refusal) = .next t := next_eq ((State.ctl_of_controlled h f).trans ht)

/-- What a row of another island does on a device that is not held (R358). -/
theorem next_live {f : State → State} {t : State} (h : s.up) (ht : f s = t) :
    (.next (s.live f) : Host.Outcome State Fault Refusal) = .next t := next_eq ((State.live_of_up h f).trans ht)

/-- A register of its own whose write stores its fields and then acts as its block does (R8). -/
def plainReg (a : Nat) : Bool :=
  (findReg a).any RegDesc.writes && (writeGroup a).isNone && (chanAt a).isNone && a != Reg.sysSafeCause && a != Reg.shdBank

theorem State.pathWrite_plain {a : Nat} {v : Word} (hplain : plainReg a = true) (h : s.accepts p a v) :
    s.pathWrite p a v =
      (let t := (s.stored a v).effect s p a v.toNat
       if claimRegs.contains a then t.reclaim else t) := by
  simp only [plainReg, Bool.and_eq_true, Option.any_eq_true, Option.isNone_iff_eq_none, bne_iff_ne] at hplain
  obtain ⟨⟨⟨⟨⟨d, hd, hw⟩, hgroup⟩, hchan⟩, hcause⟩, hbank⟩ := hplain
  rw [State.pathWrite_of_accepts h, State.regDo_plain hd hw hgroup hchan hcause hbank]

/-- A write of a register that claims nothing (R376) ends with its block's effect. -/
theorem State.pathWrite_unclaimed {a : Nat} {v : Word} (hplain : plainReg a = true) (hclaim : claimRegs.contains a = false)
    (h : s.accepts p a v) : s.pathWrite p a v = (s.stored a v).effect s p a v.toNat := by
  rw [State.pathWrite_plain hplain h, hclaim]
  rfl

/-- A write of a register that claims resources (R376) ends with the claims that follow the settings (R378). -/
theorem State.pathWrite_claims {a : Nat} {v : Word} (hplain : plainReg a = true) (hclaim : claimRegs.contains a = true)
    (h : s.accepts p a v) : s.pathWrite p a v = ((s.stored a v).effect s p a v.toNat).reclaim := by
  rw [State.pathWrite_plain hplain h, hclaim]
  rfl

/-- A write of a word of a multi-word value (R28). -/
theorem State.pathWrite_part {a base n i : Nat} {v : Word} (hw : (findReg a).any RegDesc.writes = true)
    (hgroup : writeGroup a = some (base, n, i)) (hchan : chanAt a = none) (h : s.accepts p a v) :
    s.pathWrite p a v = s.partWrite p base n i v := by
  obtain ⟨d, hd, hw⟩ := Option.any_eq_true _ _ |>.1 hw
  rw [State.pathWrite_of_accepts h]
  simp [State.regDo, hd, hchan, hw, hgroup]

theorem State.ringCommand_of_atHead {op : Nat} {e : CmdEntry} {r : List Taken} (h : s.atHead op e r) (f : State → State) :
    s.ringCommand op e f = (f (s.popped r)).cmdNext := by
  obtain ⟨hctl, hopen, htaken, hflags⟩ := h
  have hopened : ({ s with cmd := { s.cmd with taken := r } } : State).ringOpen = s.ringOpen := rfl
  simp [State.ringCommand, State.ctl_of_controlled hctl, State.command, htaken, hopen, hflags, State.popped]

/-- Outside SAFE a command that SAFE refuses is carried out (R38). -/
theorem State.ringWork_of_atHead {op : Nat} {e : CmdEntry} {r : List Taken} (h : s.atHead op e r) (hsafe : s.isSafe = false)
    (f : State → State) : s.ringWork op e f = (f (s.popped r)).cmdNext := by
  have hpopped : (s.popped r).isSafe = false := hsafe
  simp [State.ringWork, State.ringCommand_of_atHead h, State.notSafe, hpopped]

/-- A register without RWS and W1C fields stores the written bits of its RW fields at once (R8). -/
theorem State.stored_of_rw {a m : Nat} {d : RegDesc} (v : Word) (hd : findReg a = some d)
    (hzone : famIx Reg.lmpZoneCfg 64 a = none) (hrw : fieldMask d.flds (fun f => f.acc == .rw) = m)
    (hw1c : fieldMask d.flds (fun f => f.acc == .w1c) = 0)
    (hrws : ∀ c ∈ allCls, fieldMask d.flds (fun f => f.acc == .rws && f.cls == some c) = 0) :
    s.stored a v = s.blended a m v.toNat := by
  have hshadow : ∀ c ∈ allCls, ∀ t : State, t.shadowClass d a v.toNat c = t := fun c hc t => by
    simp [State.shadowClass, hrws c hc]
  have hfold : ∀ t : State, allCls.foldl (fun t c => t.shadowClass d a v.toNat c) t = t := fun t =>
    List.foldlRecOn (motive := fun u => u = t) _ _ rfl fun u hu c hc => by rw [hshadow c hc, hu]
  rw [State.stored_of_findReg hd, State.putReg_eq_foldl, hfold, State.wordPut, hrw, hw1c, Nat.zero_and,
    State.writable_eq fun _ => hzone]
  simp [State.blended]

end Sys2Proof.Machine
end

section
/-!
Reading after writing: bits of a number, values of two words, saturating counts, cleared memory, the latched bits of SAFE causes
(R3, R7, R27, R34).
-/

namespace Sys2Proof.Machine

variable {s : State}

/-- Bit `i` of a number in which bit `j` was put. -/
theorem bitAt_putBit (n i j : Nat) (b : Bool) : bitAt (putBit n j b) i = if i = j then b else bitAt n i := by
  have hbit : ∀ m k, bitAt m k = (bitsAt m k 1 == 1) := fun m k => by simp [bitAt, bitsAt]
  rw [hbit, hbit, putBit]
  rcases Nat.lt_trichotomy i j with h | rfl | h
  · rw [bitsAt_putBits_below h, if_neg (by omega)]
  · rw [bitsAt_putBits, if_pos rfl]
    cases b <;> rfl
  · rw [bitsAt_putBits_above h, if_neg (by omega)]

/-- Putting a bit into a word leaves a word. -/
theorem putBit_lt {n i : Nat} {b : Bool} (hn : n < 2 ^ 32) (hi : i < 32) : putBit n i b < 2 ^ 32 := putBits_lt hn hi

theorem blend_lt (old m v : Nat) : blend old m v < 2 ^ 32 := by
  have hmask : (2 ^ 32 - 1) ^^^ (m % 2 ^ 32) < 2 ^ 32 := Nat.xor_lt_two_pow (by decide) (Nat.mod_lt _ (by decide))
  exact Nat.or_lt_two_pow (Nat.and_lt_two_pow _ hmask) (Nat.and_lt_two_pow _ (Nat.mod_lt _ (by decide)))

theorem State.fget_lt (s : State) (f : Fld) : s.fget f < 2 ^ f.w := bitsAt_lt _ _ _

theorem State.wput_regs_wf {a v : Nat} (h : Regs.wf s.regs) : Regs.wf (s.wput a v).regs := tput_wf _ _ (tput_wf _ _ h)

theorem State.rget_wput_low {a v : Nat} (h : Regs.wf s.regs) : (s.wput a v).rget a = BitVec.ofNat 32 v := by
  unfold State.wput
  rw [State.rget_rput_ne (tput_wf _ _ h) (by omega), State.rget_rput h, if_pos rfl]

theorem State.rget_wput_high {a v : Nat} (h : Regs.wf s.regs) :
    (s.wput a v).rget (a + 4) = BitVec.ofNat 32 (v / 2 ^ 32) := by
  unfold State.wput
  rw [State.rget_rput (tput_wf _ _ h), if_pos rfl]

theorem State.rget_wput_ne {a v b : Nat} (h : Regs.wf s.regs) (hlow : b ≠ a) (hhigh : b ≠ a + 4) :
    (s.wput a v).rget b = s.rget b := by
  unfold State.wput
  rw [State.rget_rput_ne (tput_wf _ _ h) hhigh, State.rget_rput_ne h hlow]

/-- A count saturates at its field's largest value. -/
theorem State.fget_bump {f : Fld} {k : Nat} (h : Regs.wf s.regs) (hw : f.lo + f.w ≤ 32) :
    (s.bump f k).fget f = min (s.fget f + k) (2 ^ f.w - 1) := by
  have hlt : satAdd f.w (s.fget f) k < 2 ^ f.w := by
    have hpos := Nat.two_pow_pos f.w
    unfold satAdd
    omega
  rw [State.bump, State.fget_fput h hw, Nat.mod_eq_of_lt hlt, satAdd]

theorem State.stored_mem {a : Nat} {v : Word} : (s.stored a v).mem = s.mem := by
  unfold State.stored
  split
  · exact State.putReg_mem _ _ _ _
  · rfl

/-- Entries whose keys a filter drops read as the default, the others as before. -/
theorem tget_filter_key {α : Type} {d : Nat → α} (t : Table α) (q : Nat → Bool) (k : Nat) :
    tget d (t.filter (fun e => q e.1)) k = if q k then tget d t k else d k := by
  induction t with
  | nil => simp [tget]
  | cons e r ih =>
    rw [List.filter_cons]
    by_cases hk : k = e.1
    · subst hk
      by_cases hq : q e.1 <;> simp [tget, hq, ih]
    · by_cases hq : q e.1 <;> simp [tget, hq, ih, hk]

/-- A cleared byte reads 0, every other one as before. -/
theorem State.byte_clear {a n : Nat} (b : Nat) :
    (s.clear a n).byte b = if a ≤ b ∧ b < a + n then memDefault b else s.byte b := by
  have hfilter := tget_filter_key (d := memDefault) s.mem (fun c => decide (c < a) || decide (a + n ≤ c)) b
  refine hfilter.trans ?_
  by_cases hb : a ≤ b ∧ b < a + n
  · rw [if_pos hb, if_neg (by simpa using hb)]
  · rw [if_neg hb, if_pos (by simp; omega)]
    rfl

theorem Cause.bit_lt (c : Cause) : c.bit < 32 := by cases c <;> decide

theorem State.active_clearActive {c d : Cause} (h : Regs.wf s.regs) :
    (s.clearActive d).active c = if c.bit = d.bit then false else s.active c := by
  have hlt : putBit (s.fget Reg.sysSafeActive_val) d.bit false < 2 ^ Reg.sysSafeActive_val.w :=
    putBit_lt (s.fget_lt Reg.sysSafeActive_val) d.bit_lt
  unfold State.active State.clearActive
  rw [State.fget_fput h (by decide), Nat.mod_eq_of_lt hlt, bitAt_putBit]

theorem State.regsKept_clearActive {c : Cause} (h : Regs.wf s.regs) : s.regsKept (s.clearActive c) [Reg.sysSafeActive] :=
  fun _ hb => State.rget_fput_ne h (List.ne_of_not_mem_cons hb)

theorem State.isSafe_of_rget {t : State} (h : t.rget Reg.sysState = s.rget Reg.sysState) : t.isSafe = s.isSafe := by
  unfold State.isSafe State.flag State.fget
  rw [show Reg.sysState_safe.addr = Reg.sysState from rfl, h]

end Sys2Proof.Machine
end

section
/-!
Device time, what reset leaves, TSYNC, and the conditions of the SAFE causes (R29, R30, R33 to R35, R358, R416).
-/

namespace Sys2Proof.Machine

variable {s : State} {p : Path}

/-- Settles O2: an empty queue idles, and the control island alone corrects the copies. -/
theorem emptyQueueIdles : Obligations.EmptyQueueIdles := by
  unfold Obligations.EmptyQueueIdles
  refine ⟨fun s hq => ?_, fun s hctl => next_ctl hctl rfl⟩
  have hstep : step s = .next s.idle := by simp [step, hq]
  rw [hstep]
  exact ⟨fun hheld => by simp [State.idle, hheld], fun hheld => by simp [State.idle, hheld]⟩

/-- Settles O3: after reset nothing is stored, so every register and byte reads as its reset value. -/
theorem resetState : Obligations.ResetState := by
  unfold Obligations.ResetState
  exact ⟨⟨by decide, by decide, by decide⟩, by decide, by decide, by decide, by decide, by decide, rfl, by decide, by decide, rfl,
    fun _ => rfl⟩

/-- Settles O15: the device's own drive of the pin decides whether a cause arises. -/
theorem externalSafe : Obligations.ExternalSafe := by
  unfold Obligations.ExternalSafe
  intro s hctl
  have hexec : exec .safeNLow s = .next s.safeNLow := next_ctl hctl rfl
  rw [hexec]
  exact ⟨fun hlow => by simp [State.safeNLow, hlow], fun hlow => by simp [State.safeNLow, hlow]⟩

/-- An edge that TSYNC does not take: not enabled, the other direction, or too short (R30). -/
theorem State.tsyncEdge_ignored {rising : Bool} {heldNs : Nat}
    (h : s.flag Reg.sysTsyncCtrl_en = false ∨ rising = s.flag Reg.sysTsyncCtrl_pol ∨ heldNs < 20) :
    s.tsyncEdge rising heldNs = s := by
  unfold State.tsyncEdge
  rcases h with h | h | h <;> simp [h]

/-- An edge that TSYNC takes: early, it is counted; else it latches device time (R30). -/
theorem State.tsyncEdge_taken {rising : Bool} {heldNs : Nat} (hen : s.flag Reg.sysTsyncCtrl_en = true)
    (hedge : rising = !s.flag Reg.sysTsyncCtrl_pol) (hheld : 20 ≤ heldNs) :
    ((∀ t, s.sys.tsyncLast = some t → t + 1000 ≤ s.sys.now) →
      s.tsyncEdge rising heldNs =
        State.raise { s.wput Reg.sysTsyncTime0 s.sys.now with sys := { s.sys with tsyncLast := some s.sys.now } }
          0x0005 .info 0 (pf 24 8 s.sys.now)) ∧
    (∀ t, s.sys.tsyncLast = some t → s.sys.now < t + 1000 →
      s.tsyncEdge rising heldNs = s.bump Reg.sysTsyncOvr_val 1) := by
  have htaken : (!s.flag Reg.sysTsyncCtrl_en || rising == s.flag Reg.sysTsyncCtrl_pol || decide (heldNs < 20)) = false := by
    simp [hen, hedge, hheld]
  unfold State.tsyncEdge
  rw [if_neg (by simp [htaken])]
  refine ⟨fun hlate => ?_, fun t ht hearly => by simp [ht, hearly]⟩
  cases ht : s.sys.tsyncLast with
  | none => rfl
  | some t => simp only [Nat.not_lt.2 (hlate t ht), decide_false]; rfl

/-- Settles O14: an accepted edge either latches device time or, when early, is counted. -/
theorem tsyncEdge : Obligations.TsyncEdge := by
  unfold Obligations.TsyncEdge
  intro s rising heldNs hs hctl
  have hexec : exec (.tsyncEdge rising heldNs) s = .next (s.tsyncEdge rising heldNs) := next_ctl hctl rfl
  rw [hexec]
  refine ⟨fun hen hedge hheld => ?_, fun h => by rw [State.tsyncEdge_ignored h]⟩
  obtain ⟨hlatch, hcount⟩ := State.tsyncEdge_taken hen hedge hheld
  refine ⟨fun hlate => ⟨_, by rw [hlatch hlate], rfl, State.rget_wput_low hs.regs, State.rget_wput_high hs.regs,
      fun a ha => ?_⟩,
    fun t ht hearly => ⟨by rw [hcount t ht hearly], State.fget_bump hs.regs (by decide)⟩⟩
  obtain ⟨hlow, hhigh⟩ : a ≠ Reg.sysTsyncTime0 ∧ a ≠ Reg.sysTsyncTime1 := by simpa using ha
  exact State.rget_wput_ne hs.regs hlow hhigh

/-- The condition of a cause ends, as the device notes it in `t` without touching registers or memory (R34). -/
theorem State.clearActive_after {t : State} (c : Cause) (h : Regs.wf s.regs) (hregs : t.regs = s.regs) (hmem : t.mem = s.mem) :
    (t.clearActive c).active c = false ∧ s.regsKept (t.clearActive c) [Reg.sysSafeActive] ∧ (t.clearActive c).mem = s.mem := by
  have ht : Regs.wf t.regs := hregs ▸ h
  refine ⟨by rw [State.active_clearActive ht, if_pos rfl], fun b hb => ?_, hmem⟩
  rw [State.regsKept_clearActive ht b hb, State.rget_of_regs hregs]

/-- The key alone forces SAFE (R33). -/
theorem State.pathWrite_sysSafeForce {v : Word} (h : s.accepts p Reg.sysSafeForce v) :
    s.pathWrite p Reg.sysSafeForce v = if v = 0x5AFE0001 then s.enterSafe .force else s := by
  have hreg : findReg Reg.sysSafeForce = some ⟨Reg.sysSafeForce, [], [⟨0, 32, .wo, 0, none⟩]⟩ := by decide
  have hstored : s.stored Reg.sysSafeForce v = s :=
    State.stored_of_rw v hreg (by decide) (m := 0) (by decide) (by decide) (by decide)
  have hkey : v.toNat = 0x5AFE0001 ↔ v = 0x5AFE0001 := ⟨fun hv => BitVec.eq_of_toNat_eq hv, fun hv => by rw [hv]; rfl⟩
  rw [State.pathWrite_unclaimed (by decide) (by decide) h, hstored]
  show (if v.toNat = 0x5AFE0001 then s.enterSafe .force else s) = _
  simp only [hkey]

/-- A rail that leaves its window is listed once, and once more among those below their threshold where it is (R416). -/
theorem State.railOut_eq (s : State) (r : Rail) (low : Bool) :
    s.railOut r low = { s with
      sys := { s.sys with
        railsOut := if s.sys.railsOut.contains r then s.sys.railsOut else s.sys.railsOut ++ [r], railsBack := none
        railsLow := if low = true ∧ r ∉ s.sys.railsLow then s.sys.railsLow ++ [r] else s.sys.railsLow } } := by
  have hlow : (if low then (if s.sys.railsLow.contains r then s.sys.railsLow else s.sys.railsLow ++ [r]) else s.sys.railsLow) =
      if low = true ∧ r ∉ s.sys.railsLow then s.sys.railsLow ++ [r] else s.sys.railsLow := by
    cases low
    · simp
    · by_cases hr : r ∈ s.sys.railsLow <;> simp [hr]
  rw [← hlow]
  rfl

/-- The control island carries out what follows a note of the device's own (R34). -/
theorem State.ctl_noted {y : SysSt} (h : s.controlled) (hy : y.ctlLost = s.sys.ctlLost) (f : State → State) :
    ({ s with sys := y } : State).ctl f = f { s with sys := y } :=
  State.ctl_of_controlled (s := { s with sys := y }) ⟨h.1, hy.trans h.2⟩ f

/-- The last rail is back in its window (R34). -/
theorem State.supplyBack_last {r : Rail} (hctl : s.controlled) (h : s.sys.railsOut = [r]) :
    s.supplyBack r = State.clearActive { s with
      sys := { s.sys with
        railsOut := [], railsLow := s.sys.railsLow.filter (fun x => x != r), railsBack := some s.sys.now } } .supply := by
  unfold State.supplyBack
  rw [if_pos (by simp [h])]
  simp only [h, List.filter_cons, bne_self_eq_false, List.filter_nil, List.isEmpty_nil, if_true, Bool.false_eq_true, if_false]
  exact State.ctl_noted hctl (by rfl) _

/-- Each condition of a SAFE cause enters SAFE with its cause (R34, R416). -/
theorem exec_safeConditions (hctl : s.controlled) :
    exec .refclkFault s = .next (({ s with sys := { s.sys with refOut := true, refBack := none } } : State).enterSafe .clock) ∧
    (∀ r low, exec (.supplyFault r low) s = .next ((s.railOut r low).enterSafe .supply)) ∧
    exec .thermFault s = .next (({ s with sys := { s.sys with hot := true } } : State).enterSafe .therm) ∧
    (s.running = true → s.portUp 0 = false → s.portUp 1 = false → exec .portsDownTimeout s = .next (s.enterSafe .ports)) ∧
    exec .motionParityError s = .next (s.enterSafe .motion) ∧
    (s.lampOn = true → exec .lampbusTimeout s = .next (s.enterSafe .lampbus)) := by
  refine ⟨next_eq (State.ctl_noted hctl (by rfl) _), fun r low => next_eq (State.ctl_noted hctl (by rfl) _), next_ctl hctl rfl,
    fun hrun h0 h1 => next_ctl hctl ?_, next_ctl hctl rfl, fun hlamp => next_ctl hctl ?_⟩
  · simp [State.portsDown, hrun, h0, h1]
  · simp [State.lampbusTimeout, hlamp]

/-- Settles O16: each condition enters SAFE with its cause, and its end clears the active bit alone. -/
theorem safeCausesArise : Obligations.SafeCausesArise := by
  unfold Obligations.SafeCausesArise
  refine ⟨fun s hctl => ?_, fun s p v hacc => next_eq (State.pathWrite_sysSafeForce hacc), fun s hs hctl => ?_⟩
  · obtain ⟨hclock, hsupply, hrest⟩ := exec_safeConditions hctl
    exact ⟨hclock, fun r low => by rw [hsupply, State.railOut_eq], hrest⟩
  refine ⟨⟨_, next_ctl hctl rfl, rfl, State.clearActive_after .ext hs.regs rfl rfl⟩, fun hout => ?_, fun r hr => ?_,
    ⟨_, next_ctl hctl rfl, rfl, State.clearActive_after .therm hs.regs rfl rfl⟩⟩
  · have hback : s.refclkBack =
        State.clearActive { s with sys := { s.sys with refOut := false, refBack := some s.sys.now } } .clock := by
      unfold State.refclkBack
      rw [if_pos hout]
      exact State.ctl_noted hctl (by rfl) _
    exact ⟨_, next_eq hback, rfl, rfl, State.clearActive_after .clock hs.regs rfl rfl⟩
  · exact ⟨_, next_eq (State.supplyBack_last hctl hr), rfl, rfl, State.clearActive_after .supply hs.regs rfl rfl⟩

end Sys2Proof.Machine
end

section
/-! Writes of multi-word values (R28). -/

namespace Sys2Proof.Machine

variable {s : State} {p : Path}

theorem State.shadowed_lt (s : State) (a : Nat) : s.shadowed a < 2 ^ 32 :=
  List.foldlRecOn (motive := fun n => n < 2 ^ 32) _ _ (s.rget a).isLt fun _ _ q _ => blend_lt _ q.mask q.val

/-- The part that completes a multi-word value is a word. -/
theorem State.lowPart_lt (s : State) (p : Path) (base : Nat) : s.lowPart p base < 2 ^ 32 := by
  have hnow : s.partNow base < 2 ^ 32 := by
    unfold State.partNow
    split
    · exact BitVec.isLt _
    · exact s.shadowed_lt base
  unfold State.lowPart
  cases s.heldPart p base with
  | none => exact hnow
  | some w => exact w.isLt

/-- Word 0 of a multi-word value discards the parts its path holds, and is held (R28). -/
theorem State.partWrite_first {base n : Nat} {v : Word} (hn : 1 < n) :
    s.partWrite p base n 0 v =
      (s.each (List.range n) (fun k s => s.setHeld p (base + 4 * k) none)).setHeld p base (some v) := by
  simp [State.partWrite, hn]

/-- The highest word of a value that claims nothing: its write stores the word and then acts as its block does (R8, R28). -/
def topWord (a : Nat) : Bool :=
  (findReg a).isSome && a != Reg.sysSafeCause && a != Reg.shdBank && !claimRegs.contains a

/-- The highest of two words completes the value, with the low word as held or as it stands (R28). -/
theorem State.partWrite_last {base top : Nat} {v : Word} (hnext : base + 4 = top) (hlow : (findReg base).isSome = true)
    (htop : topWord top = true) (hpos : famIx Reg.motAxSetpos1 8 top = none) :
    s.partWrite p base 2 1 v =
      (let t := (s.setHeld p base none).stored base (BitVec.ofNat 32 (s.lowPart p base))
       (t.stored top v).effect t p top v.toNat) := by
  subst hnext
  simp only [topWord, Bool.and_eq_true, Option.isSome_iff_exists, bne_iff_ne, Bool.not_eq_true'] at hlow htop
  obtain ⟨d0, h0⟩ := hlow
  obtain ⟨⟨⟨⟨d1, h1⟩, hcause⟩, hbank⟩, hclaim⟩ := htop
  simp only [State.partWrite, Nat.lt_irrefl, if_false, Nat.mul_one, hpos, h0, h1, State.doWrite, if_neg hcause, if_neg hbank,
    hclaim, Bool.false_eq_true, State.stored_of_findReg h0, State.stored_of_findReg h1, BitVec.toNat_ofNat,
    Nat.mod_eq_of_lt (s.lowPart_lt p base)]

/-- Settles O10: PXE_DECKLE's fields enter their shadows when the high word completes the value. -/
theorem multiwordWriteHeldUntilHighest : Obligations.MultiwordWriteHeldUntilHighest := by
  unfold Obligations.MultiwordWriteHeldUntilHighest
  refine fun s p v => ⟨fun hacc => next_eq ?_, fun hacc => next_eq ?_⟩
  · show s.pathWrite p Reg.pxeDeckle0 v = _
    rw [State.pathWrite_part (by decide) (by decide : writeGroup Reg.pxeDeckle0 = some (Reg.pxeDeckle0, 2, 0)) (by decide) hacc,
      State.partWrite_first (by decide)]
  · show s.pathWrite p Reg.pxeDeckle1 v = _
    rw [State.pathWrite_part (by decide) (by decide : writeGroup Reg.pxeDeckle1 = some (Reg.pxeDeckle0, 2, 1)) (by decide) hacc,
      State.partWrite_last (top := Reg.pxeDeckle1) (by decide) (by decide) (by decide) (by decide)]
    rfl

end Sys2Proof.Machine
end

section
/-! Commit holds, and what a boundary commits (R16, R17). -/

namespace Sys2Proof.Machine

variable {s : State} {p : Path} {c : Cls} {x : Nat}

/-- A shadow takes force (R16). -/
def State.takeShadow (s : State) (q : Shadow) : State :=
  s.rput q.addr (BitVec.ofNat 32 (blend (s.rget q.addr).toNat q.mask q.val))

theorem State.commit_eq_foldl (s : State) (c : Cls) (x : Nat) :
    s.commit c x = (s.pend.filter (fun q => q.isOf c x)).foldl State.takeShadow
      { s with pend := s.pend.filter (fun q => !q.isOf c x) } := rfl

/-- Shadows that take force change the register file alone. -/
theorem State.foldl_takeShadow_frame (s : State) (l : List Shadow) :
    (l.foldl State.takeShadow s).pend = s.pend ∧ (l.foldl State.takeShadow s).mem = s.mem :=
  List.foldlRecOn (motive := fun t : State => t.pend = s.pend ∧ t.mem = s.mem) _ _ ⟨rfl, rfl⟩ fun _ h _ _ => h

theorem State.rget_takeShadow {q : Shadow} (h : Regs.wf s.regs) (a : Nat) :
    (s.takeShadow q).rget a =
      if a = q.addr then BitVec.ofNat 32 (blend (s.rget q.addr).toNat q.mask q.val) else s.rget a := State.rget_rput h a

theorem State.takeShadow_regs_wf {q : Shadow} (h : Regs.wf s.regs) : Regs.wf (s.takeShadow q).regs := tput_wf _ _ h

/-- A register without a shadow among those that take force stays. -/
theorem State.rget_foldl_takeShadow_absent {l : List Shadow} {a : Nat} (h : Regs.wf s.regs) (ha : ∀ q ∈ l, q.addr ≠ a) :
    (l.foldl State.takeShadow s).rget a = s.rget a := by
  induction l generalizing s with
  | nil => rfl
  | cons q r ih =>
    obtain ⟨hq, hr⟩ := List.forall_mem_cons.1 ha
    rw [List.foldl_cons, ih (State.takeShadow_regs_wf h) hr, State.rget_takeShadow h, if_neg hq.symm]

/-- A register with one shadow among those that take force takes it. -/
theorem State.rget_foldl_takeShadow_single {l : List Shadow} {q : Shadow} (h : Regs.wf s.regs) (hq : q ∈ l)
    (hone : (l.filter (fun r => r.addr == q.addr)).length = 1) :
    (l.foldl State.takeShadow s).rget q.addr = BitVec.ofNat 32 (blend (s.rget q.addr).toNat q.mask q.val) := by
  induction l generalizing s with
  | nil => cases hq
  | cons e r ih =>
    rw [List.foldl_cons]
    by_cases he : e.addr = q.addr
    · have hrest : r.filter (fun t => t.addr == q.addr) = [] := by simpa [he] using hone
      have habsent : ∀ t ∈ r, t.addr ≠ q.addr := by simpa using hrest
      obtain rfl | hq := List.mem_cons.1 hq
      · rw [State.rget_foldl_takeShadow_absent (State.takeShadow_regs_wf h) habsent, State.rget_takeShadow h, if_pos rfl]
      · exact absurd rfl (habsent q hq)
    · have hq : q ∈ r := (List.mem_cons.1 hq).resolve_left fun hqe => he (hqe ▸ rfl)
      rw [ih (State.takeShadow_regs_wf h) hq (by simpa [he] using hone), State.rget_takeShadow h, if_neg (Ne.symm he)]

theorem State.boundary_of_held (h : s.holds c x = true) : s.boundary c x = s := by simp [State.boundary, h]

theorem State.boundary_of_free (h : s.holds c x = false) : s.boundary c x = s.commit c x := by simp [State.boundary, h]

/-- SYS_COMMIT_HOLD holds its eleven bits as written; a change of the LB bit starts the count of lines anew (R17). -/
theorem State.pathWrite_sysCommitHold {v : Word} (h : s.accepts p Reg.sysCommitHold v) :
    s.pathWrite p Reg.sysCommitHold v =
      (let t := s.rput Reg.sysCommitHold (BitVec.ofNat 32 (blend (s.rget Reg.sysCommitHold).toNat 2047 v.toNat))
       if s.flag Reg.sysCommitHold_lb = t.flag Reg.sysCommitHold_lb then t
       else { t with sys := { t.sys with lbHoldLines := 0 } }) := by
  have hreg : findReg Reg.sysCommitHold = some ⟨Reg.sysCommitHold, [],
      [⟨3, 8, .rw, 0, none⟩, ⟨2, 1, .rw, 0, none⟩, ⟨1, 1, .rw, 0, none⟩, ⟨0, 1, .rw, 0, none⟩]⟩ := by decide
  rw [State.pathWrite_unclaimed (by decide) (by decide) h,
    State.stored_of_rw v hreg (by decide) (m := 2047) (by decide) (by decide) (by decide)]
  rfl

/-- Settles O12: a boundary that is not held lets the shadows of its class take force, one after the other, and each
register with one of them takes it. -/
theorem commitHold : Obligations.CommitHold := by
  unfold Obligations.CommitHold
  refine fun s => ⟨fun p v hacc => next_eq (State.pathWrite_sysCommitHold hacc), fun hctl hlong => ?_,
    fun hctl hshort => ?_, fun c x => State.boundary_of_held, fun c x hfree hs => ?_⟩
  · refine next_ctl hctl ?_
    simp only [State.holdLong, if_pos hlong, State.rget]
  · refine next_ctl hctl ?_
    rw [State.holdLong, if_neg (Nat.not_lt.2 hshort)]
  · rw [State.boundary_of_free hfree, State.commit_eq_foldl]
    obtain ⟨hpend, hmem⟩ := State.foldl_takeShadow_frame { s with pend := s.pend.filter (fun q => !q.isOf c x) }
      (s.pend.filter (fun q => q.isOf c x))
    refine ⟨hpend, hmem, fun a ha => ?_, fun q hq hof hone => ?_⟩
    · exact State.rget_foldl_takeShadow_absent (s := { s with pend := _ }) hs.regs fun q hq =>
        ha q (List.mem_of_mem_filter hq) (List.mem_filter.1 hq).2
    · refine State.rget_foldl_takeShadow_single (s := { s with pend := _ }) hs.regs (List.mem_filter.2 ⟨hq, hof⟩) ?_
      simpa only [List.filter_filter, Bool.and_comm] using hone

end Sys2Proof.Machine
end

section
/-!
Two statements that fail: a request of a snapshot that also clears DONE (R25), and an entry into SAFE at which a shadow of
SYS_STATE takes force (R16, R36).
-/

namespace Sys2Proof.Machine

/-- DONE stands from an earlier snapshot. -/
def doneBefore : State := State.reset.fput Reg.sysSnapCtrl_done 1

/-- A write of SYS_SNAP_CTRL with 1 in REQ and in the W1C field DONE. -/
def requestClearingDone : Word := 3

/-- Refutes O13: the write clears DONE as it requests the snapshot, where the statement has VIEW alone change. -/
theorem not_snapshotRequestAndTake : ¬ Obligations.SnapshotRequestAndTake := by
  unfold Obligations.SnapshotRequestAndTake
  intro h
  obtain ⟨hrequest, -⟩ := h doneBefore
  obtain ⟨t, hexec, -, -, hregs⟩ := hrequest requestClearingDone (by decide) (by decide)
  have ht : doneBefore.pathWrite .ring Reg.sysSnapCtrl requestClearingDone = t := Host.Outcome.next.inj hexec
  have hcleared : (doneBefore.pathWrite .ring Reg.sysSnapCtrl requestClearingDone).regs = [] := by decide
  have hstands : (doneBefore.rput Reg.sysSnapCtrl
      (BitVec.ofNat 32 (blend (doneBefore.rget Reg.sysSnapCtrl).toNat 4 requestClearingDone.toNat))).regs ≠ [] := by decide
  exact hstands (by rw [← hregs, ← ht, hcleared])

/-- Axis 2 moves, and among its MB-class shadows is one of SYS_STATE. No register write makes such a shadow, as SYS_STATE has no
RWS field, but `Sound` does not exclude it. -/
def straySafe : State :=
  { State.reset.fput Reg.motStat_moving 4 with
    pend := [{ cls := .mb, axis := 2, addr := Reg.sysState, mask := 2, val := 0, stuck := false }] }

/-- The stop of axis 2 that SAFE forces is a move's end: its MB commits the shadow, and SAFE reads 0 (R16, R228). -/
theorem straySafe_leaves : (straySafe.enterSafe .force).isSafe = false := by decide +kernel

/-- Refutes O17: a shadow of SYS_STATE takes force at the MB of an axis that SAFE stops. -/
theorem not_enterSafeLeaves : ¬ Obligations.EnterSafeLeaves := by
  unfold Obligations.EnterSafeLeaves
  intro h
  obtain ⟨hsafe, -⟩ := h straySafe .force ⟨by decide, by decide, by decide⟩ (by decide)
  exact absurd (straySafe_leaves.symm.trans hsafe) (by decide)

end Sys2Proof.Machine
end

section
/-! Islands that are lost and come back (R12, R34). -/

namespace Sys2Proof.Machine

variable {s : State}

theorem sysIslandAlive_inj {i j : Nat} (h : Reg.sysIslandAlive i = Reg.sysIslandAlive j) : i = j := by
  unfold Reg.sysIslandAlive at h
  omega

theorem sysIslandAlive_ne_sysSafeActive {i : Nat} (h : i < 3) : Reg.sysIslandAlive i ≠ Reg.sysSafeActive := by
  unfold Reg.sysIslandAlive Reg.sysSafeActive
  omega

theorem State.setAlive_regs_wf {i : Nat} {b : Bool} (h : Regs.wf s.regs) : Regs.wf (s.setAlive i b).regs := tput_wf _ _ h

/-- An island's bit is set alone (R12). -/
theorem State.alive_setAlive {i j : Nat} {b : Bool} (h : Regs.wf s.regs) :
    (s.setAlive i b).alive j = if j = i then b else s.alive j := by
  unfold State.alive State.setAlive
  simp only
  rw [State.rget_rput h]
  by_cases hword : j / 32 = i / 32
  · have hlt : putBit (s.rget (Reg.sysIslandAlive (i / 32))).toNat (i % 32) b < 2 ^ 32 :=
      putBit_lt (BitVec.isLt _) (Nat.mod_lt _ (by decide))
    rw [if_pos (by rw [hword]), BitVec.toNat_ofNat, Nat.mod_eq_of_lt hlt, bitAt_putBit, hword]
    exact if_congr (by omega) rfl rfl
  · rw [if_neg fun ha => hword (sysIslandAlive_inj ha), if_neg fun hj => hword (by rw [hj])]

theorem State.alive_clearActive {c : Cause} {i : Nat} (h : Regs.wf s.regs) (hi : i < 76) :
    (s.clearActive c).alive i = s.alive i := by
  unfold State.alive
  rw [State.regsKept_clearActive h _ (by simpa using sysIslandAlive_ne_sysSafeActive (by omega))]

/-- What the return of an island leaves: its bit alone is set among the islands' bits. -/
theorem State.islandBack_alive {i j : Nat} (h : Regs.wf s.regs) (hj : j < 76) :
    (s.islandBack i).alive j = (s.alive j || j == i) := by
  have hset : (s.setAlive i true).alive j = (s.alive j || j == i) := by
    rw [State.alive_setAlive h]
    by_cases hji : j = i <;> simp [hji]
  unfold State.islandBack
  simp only
  split
  · rw [State.alive_clearActive (State.setAlive_regs_wf h) hj, hset]
  · exact hset

theorem State.islandBack_frame {i : Nat} (h : Regs.wf s.regs) :
    Regs.wf (s.islandBack i).regs ∧ (s.islandBack i).mem = s.mem ∧ (s.islandBack i).sent = s.sent := by
  have hset := State.setAlive_regs_wf (i := i) (b := true) h
  unfold State.islandBack
  simp only
  split
  · exact ⟨tput_wf _ _ hset, rfl, rfl⟩
  · exact ⟨hset, rfl, rfl⟩

/-- The islands of a list come back one by one. -/
theorem State.each_islandBack (l : List Nat) (h : Regs.wf s.regs) :
    let t := s.each l (fun i s => s.islandBack i)
    t.mem = s.mem ∧ t.sent = s.sent ∧ ∀ j, j < 76 → t.alive j = (s.alive j || l.contains j) := by
  induction l generalizing s with
  | nil => exact ⟨rfl, rfl, fun j _ => by simp [State.each]⟩
  | cons i r ih =>
    obtain ⟨hwf, hmem, hsent⟩ := State.islandBack_frame (i := i) h
    obtain ⟨ihmem, ihsent, ihalive⟩ := ih hwf
    refine ⟨ihmem.trans hmem, ihsent.trans hsent, fun j hj => (ihalive j hj).trans ?_⟩
    rw [State.islandBack_alive h hj, List.contains_cons, Bool.or_assoc]

/-- A lost island that acknowledges has its bit again, and no other island's bit changes (R12, R34). -/
theorem State.heartbeat_alive {ack : Nat} (h : Regs.wf s.regs) :
    (s.heartbeat ack).mem = s.mem ∧ (s.heartbeat ack).sent = s.sent ∧
      ∀ i, i < 76 → (s.heartbeat ack).alive i = (s.alive i || (bitAt ack i && s.beats i)) := by
  obtain ⟨hmem, hsent, halive⟩ :=
    s.each_islandBack ((List.range 76).filter (fun i => bitAt ack i && s.beats i && !s.alive i)) h
  refine ⟨hmem, hsent, fun i hi => (halive i hi).trans ?_⟩
  have hlist : ((List.range 76).filter (fun i => bitAt ack i && s.beats i && !s.alive i)).contains i =
      (bitAt ack i && s.beats i && !s.alive i) := by
    rw [Bool.eq_iff_iff, List.contains_iff_mem, List.mem_filter, List.mem_range]
    exact and_iff_right hi
  rw [hlist]
  cases s.alive i <;> simp

/-- An island that gets heartbeats is declared lost by its heartbeat (kind 1) or its clock (kind 2) (R12). -/
theorem exec_islandLost {i : Fin 76} {c : Instr} {k : Nat} (hctl : s.controlled) (hbeats : s.beats i.val = true)
    (hc : c = .islandHeartbeatTimeout i ∧ k = 1 ∨ c = .islandClockFault i ∧ k = 2) :
    exec c s = .next (s.islandLost i.val k) := by
  have hgone : ∀ k, s.ctl (fun s => s.islandGone i k) = s.islandLost i.val k := fun k => by
    rw [State.ctl_of_controlled hctl, State.islandGone, if_pos hbeats]
  rcases hc with ⟨rfl, rfl⟩ | ⟨rfl, rfl⟩ <;> exact next_eq (hgone _)

/-- Settles O11: the heartbeat round brings back islands one by one, and a loss follows the kind of the island. -/
theorem heartbeatBringsBackIslands : Obligations.HeartbeatBringsBackIslands := by
  unfold Obligations.HeartbeatBringsBackIslands
  refine ⟨fun s ack hs hctl => ⟨_, next_ctl hctl rfl, State.heartbeat_alive hs.regs⟩,
    fun s i hctl hbeats halive c k hc => ?_, fun s hup => ⟨fun clock hlost => ?_, fun hlost => ?_⟩⟩
  · rw [exec_islandLost hctl hbeats hc]
    unfold State.islandLost
    rw [if_pos halive]
    refine ⟨fun hlo hhi => ?_, fun hhost => ?_, fun hseg => ⟨_, rfl, rfl, ?_⟩⟩
    · simp only [if_neg (Nat.not_lt.2 hlo), if_pos hhi]
    · simp only [if_neg (by omega : ¬ i.val < 64), if_neg (by omega : ¬ i.val < 73), if_neg (by omega : ¬ i.val = 73)]
    · simp only [if_pos hseg]
  · refine next_live hup ?_
    simp [State.controlLost, hlost]
  · refine ⟨_, next_live hup rfl, ?_⟩
    exact if_neg (by simp [hlost])

end Sys2Proof.Machine
end

section
/-! The way out of SAFE, and ALL_OFF in SAFE (R36, R39, R114). -/

namespace Sys2Proof.Machine

variable {s : State} {p : Path}

/-- Clearing a latched cause whose condition is gone: what `clearCauses` does with one cause (R39). -/
def State.clearGone (s : State) (mask : Nat) (c : Cause) : State :=
  if bitAt mask c.bit && s.causeGone c then
    (s.fput Reg.sysSafeCause_val (putBit (s.fget Reg.sysSafeCause_val) c.bit false)).clearActive c
  else s

theorem State.clearCauses_eq_foldl (s : State) (mask : Nat) :
    s.clearCauses mask = allCauses.foldl (fun t c => t.clearGone mask c) s := rfl

theorem State.clearGone_frame {mask : Nat} {c : Cause} (h : Regs.wf s.regs) :
    Regs.wf (s.clearGone mask c).regs ∧ s.regsKept (s.clearGone mask c) [Reg.sysSafeCause, Reg.sysSafeActive] := by
  unfold State.clearGone
  split
  · have hcause : Regs.wf (s.fput Reg.sysSafeCause_val (putBit (s.fget Reg.sysSafeCause_val) c.bit false)).regs :=
      State.fput_regs h
    refine ⟨State.fput_regs hcause, fun b hb => ?_⟩
    obtain ⟨hbc, hba⟩ : b ≠ Reg.sysSafeCause ∧ b ≠ Reg.sysSafeActive := by simpa using hb
    rw [State.regsKept_clearActive hcause b (by simpa using hba), State.rget_fput_ne h hbc]
  · exact ⟨h, fun _ _ => rfl⟩

/-- Clearing causes changes SYS_SAFE_CAUSE and SYS_SAFE_ACTIVE alone (R39). -/
theorem State.regsKept_clearCauses {mask : Nat} (h : Regs.wf s.regs) :
    s.regsKept (s.clearCauses mask) [Reg.sysSafeCause, Reg.sysSafeActive] := by
  have hfold : Regs.wf (s.clearCauses mask).regs ∧ s.regsKept (s.clearCauses mask) [Reg.sysSafeCause, Reg.sysSafeActive] := by
    rw [State.clearCauses_eq_foldl]
    refine List.foldlRecOn (motive := fun t => Regs.wf t.regs ∧ s.regsKept t [Reg.sysSafeCause, Reg.sysSafeActive]) _ _
      ⟨h, fun _ _ => rfl⟩ ?_
    rintro t ⟨hwf, hkept⟩ c -
    obtain ⟨hwf', hkept'⟩ := State.clearGone_frame (mask := mask) (c := c) hwf
    exact ⟨hwf', fun b hb => (hkept' b hb).trans (hkept b hb)⟩
  exact hfold.2

/-- A write of SYS_SAFE_CAUSE clears the causes it names (R39). -/
theorem State.pathWrite_sysSafeCause {v : Word} (h : s.accepts p Reg.sysSafeCause v) :
    s.pathWrite p Reg.sysSafeCause v = s.clearCauses v.toNat := by
  have hreg : findReg Reg.sysSafeCause = some ⟨Reg.sysSafeCause, [], [⟨0, 32, .w1c, 0, none⟩]⟩ := by decide
  have hchan : chanAt Reg.sysSafeCause = none := by decide
  have hgroup : writeGroup Reg.sysSafeCause = none := by decide
  rw [State.pathWrite_of_accepts h]
  simp [State.regDo, hreg, hchan, hgroup, RegDesc.writes, State.doWrite]

theorem State.safeClearCmd_eq (s : State) (e : CmdEntry) :
    s.safeClearCmd e = if s.isSafe then { s with sys := { s.sys with safeNLow := false, safeClear := some e } }
      else s.cmdFinish 13 e 0 := by
  unfold State.safeClearCmd
  cases s.isSafe <;> rfl

/-- Settles O18: the re-evaluation and the write go through `clearCauses`, which leaves SYS_STATE. -/
theorem safeClearSequence : Obligations.SafeClearSequence := by
  unfold Obligations.SafeClearSequence
  refine ⟨fun s => ⟨fun e r hhead => next_eq ?_, fun e hctl hwait hext => ?_, fun p v hs hacc => ?_⟩,
    fun s hup hsafe => next_live hup ?_⟩
  · rw [State.ringCommand_of_atHead hhead, State.safeClearCmd_eq]
    exact apply_ite State.cmdNext _ _ _
  · refine ⟨_, next_ctl hctl rfl, ?_⟩
    simp only [State.safeClearEval, hwait, hext, Bool.false_eq_true, if_false]
    exact apply_ite State.cmdNext _ _ _
  · have hkept := State.regsKept_clearCauses (mask := v.toNat) hs.regs
    exact ⟨next_eq (State.pathWrite_sysSafeCause hacc), State.isSafe_of_rget (hkept _ (by decide)), hkept⟩
  · simp only [State.allOffRepeat, hsafe, Bool.true_or, if_true]

end Sys2Proof.Machine
end

section
/-! The start of a calibration, the nozzle and tracking writes, and the EVI pins (R149 to R151, R171, R175, R195, R197). -/

namespace Sys2Proof.Machine

variable {s : State} {p : Path}

/-- The bank not in force, its inputs latched, is what a CAL_START prepares (R151). -/
theorem State.calBegin_cal (s : State) (e : CmdEntry) :
    (s.calBegin e).shd.cal.map (fun c => (c.kind, c.n, c.target)) =
      some (calKind e, calN e, 1 - s.fget Reg.shdBank_sel) := rfl

theorem State.calStart_refused {e : CmdEntry} (h : s.calReason e ≠ 0) : s.calStart e = s.cmdRefuse 9 e (s.calReason e) 0 := by
  rw [State.calStart, if_pos h]

theorem State.calStart_check {e : CmdEntry} (h : s.calReason e = 0) (hkind : calKind e = 4) :
    s.calStart e = State.cmdFinish { s with shd := { s.shd with check := s.shd.check ++ [1 - s.fget Reg.shdBank_sel] } }
      9 e 0 := by
  rw [State.calStart, if_neg (not_not_intro h), if_pos hkind]

theorem State.calStart_calibration {e : CmdEntry} (h : s.calReason e = 0) (hkind : calKind e ≠ 4) :
    s.calStart e = (s.calBegin e).cmdFinish 9 e 0 := by
  rw [State.calStart, if_neg (not_not_intro h), if_neg hkind]

/-- Settles O32, by what `calReason` and the kind of the calibration decide. -/
theorem calibrationStarts : Obligations.CalibrationStarts := by
  unfold Obligations.CalibrationStarts
  refine fun s => ⟨fun e r hhead hsafe => ?_, fun c hctl hcal hstep hfree => ?_⟩
  · have hexec : exec (.calStart e) s = .next ((s.popped r).calStart e).cmdNext :=
      next_eq (State.ringWork_of_atHead hhead hsafe _)
    rw [hexec]
    exact ⟨fun hreason => by rw [State.calStart_refused hreason],
      fun hreason hkind => by rw [State.calStart_check hreason hkind]; rfl,
      fun hreason hkind => ⟨by rw [State.calStart_calibration hreason hkind], State.calBegin_cal _ e⟩⟩
  · refine next_ctl hctl ?_
    have hready : ¬ (c.step ≠ .preparing ∨ s.bankHeld c.target = true) := by simp [hstep, hfree]
    simp only [State.calPrepared, hcal, if_neg hready]

/-- CLEAR zeroes every context, and then the claims follow the settings (R171, R378). -/
theorem State.pathWrite_nzlClear {v : Word} (h : s.accepts p Reg.nzlCtrl v) (hclear : fld v.toNat Reg.nzlCtrl_clear = 1) :
    s.pathWrite p Reg.nzlCtrl v = ((s.stored Reg.nzlCtrl v).zeroContexts 0 0xA0000).reclaim := by
  have heffect : ∀ t u : State, t.effect u p Reg.nzlCtrl v.toNat = t.effectTrack Reg.nzlCtrl v.toNat := fun t u => rfl
  rw [State.pathWrite_claims (by decide) (by decide) h, heffect, State.effectTrack, if_pos rfl, if_pos hclear]

theorem State.reclaim_byte {a : Nat} : s.reclaim.byte a = s.byte a := rfl

theorem State.byte_nzlClear {v : Word} (a : Nat) :
    (((s.stored Reg.nzlCtrl v).zeroContexts 0 0xA0000).reclaim).byte a =
      if ctxAddr 0 ≤ a ∧ a < ctxAddr 0 + 16 * 655360 then memDefault a else s.byte a := by
  rw [State.reclaim_byte, State.zeroContexts, State.byte_clear]
  unfold State.byte
  rw [State.stored_mem]

theorem State.pathWrite_trkPlace {v : Word} (h : s.accepts p Reg.trkCtrl v) (hplace : fld v.toNat Reg.trkCtrl_place = 1) :
    s.pathWrite p Reg.trkCtrl v =
      { s.stored Reg.trkCtrl v with trk := { (s.stored Reg.trkCtrl v).trk with place := true } } := by
  have heffect : ∀ t u : State, t.effect u p Reg.trkCtrl v.toNat = t.effectTrack Reg.trkCtrl v.toNat := fun t u => rfl
  rw [State.pathWrite_unclaimed (by decide) (by decide) h, heffect, State.effectTrack, if_neg (by decide), if_pos rfl,
    if_pos hplace]

/-- The two words of a stream's band start line (R28, R175). -/
theorem nzlBandLine_words : ∀ st : Fin 4,
    ((findReg (Reg.nzlBandLine0 st)).any RegDesc.writes = true ∧ (findReg (Reg.nzlBandLine1 st)).any RegDesc.writes = true) ∧
    (chanAt (Reg.nzlBandLine0 st) = none ∧ chanAt (Reg.nzlBandLine1 st) = none) ∧
    writeGroup (Reg.nzlBandLine0 st) = some (Reg.nzlBandLine0 st, 2, 0) ∧
    writeGroup (Reg.nzlBandLine1 st) = some (Reg.nzlBandLine0 st, 2, 1) ∧ (findReg (Reg.nzlBandLine0 st)).isSome = true ∧
    Reg.nzlBandLine0 st + 4 = Reg.nzlBandLine1 st ∧ topWord (Reg.nzlBandLine1 st) = true ∧
    famIx Reg.motAxSetpos1 8 (Reg.nzlBandLine1 st) = none := by
  decide

/-- The high word's address is that of no engine and of no other register with an effect in its block. -/
theorem nzlBandLine1_block : ∀ st : Fin 4,
    Reg.nzlBandLine1 st / 0x10000 = 0x11 ∧ engAt (Reg.nzlBandLine1 st) = none ∧ Reg.nzlBandLine1 st ≠ Reg.nzlCtrl ∧
      Reg.nzlBandLine1 st ≠ Reg.trkCtrl ∧ famIx Reg.nzlBandLine1 4 (Reg.nzlBandLine1 st) = some st.val := by
  decide

theorem State.effect_nzlBandLine1 {before : State} {v : Nat} (st : Fin 4) :
    s.effect before p (Reg.nzlBandLine1 st) v = s.bandHost st := by
  obtain ⟨hblock, heng, hnzl, htrk, hix⟩ := nzlBandLine1_block st
  simp only [State.effect, hblock, heng, State.effectTrack, if_neg hnzl, if_neg htrk, hix]

/-- The low word of a stream's band start line is held (R28, R175). -/
theorem State.pathWrite_nzlBandLine0 {v : Word} (st : Fin 4) (h : s.accepts p (Reg.nzlBandLine0 st) v) :
    s.pathWrite p (Reg.nzlBandLine0 st) v =
      (s.each (List.range 2) (fun k u => u.setHeld p (Reg.nzlBandLine0 st + 4 * k) none)).setHeld p (Reg.nzlBandLine0 st)
        (some v) := by
  obtain ⟨⟨hwrites, -⟩, ⟨hchan, -⟩, hgroup, -⟩ := nzlBandLine_words st
  rw [State.pathWrite_part hwrites hgroup hchan h, State.partWrite_first (by decide)]

/-- Its high word gives the line to the stream (R175). -/
theorem State.pathWrite_nzlBandLine1 {v : Word} (st : Fin 4) (h : s.accepts p (Reg.nzlBandLine1 st) v) :
    s.pathWrite p (Reg.nzlBandLine1 st) v =
      (((s.setHeld p (Reg.nzlBandLine0 st) none).stored (Reg.nzlBandLine0 st)
        (BitVec.ofNat 32 (s.lowPart p (Reg.nzlBandLine0 st)))).stored (Reg.nzlBandLine1 st) v).bandHost st := by
  obtain ⟨⟨-, hwrites⟩, ⟨-, hchan⟩, -, hgroup, hlow, hnext, htop, hpos⟩ := nzlBandLine_words st
  rw [State.pathWrite_part hwrites hgroup hchan h, State.partWrite_last hnext hlow htop hpos]
  exact State.effect_nzlBandLine1 st

/-- What a rising edge on an EVI pin reaches before the lines (R175, R197, R226, R282). -/
def State.eviReached (s : State) (g : Nat) : State :=
  let u := ((s.bandEvi g).trackEvi g).evstop g
  if bitsAt u.seqCtl 26 2 = g then u.monTriggerBy 2 else u

/-- The level of an EVI pin is recorded (R239). -/
def State.eviLevel (s : State) (g : Nat) (b : Bool) : State :=
  { s with seq := { s.seq with evi := tput (fun _ => false) s.seq.evi g b } }

theorem State.eviEdge_low {g : Nat} : s.eviEdge g false = s.eviLevel g false := by simp [State.eviEdge, State.eviLevel]

theorem State.eviEdge_stays {g : Nat} (h : tget (fun _ => false) s.seq.evi g = true) :
    s.eviEdge g true = s.eviLevel g true := by simp [State.eviEdge, State.eviLevel, h]

theorem State.eviEdge_rises {g : Nat} (h : tget (fun _ => false) s.seq.evi g = false) :
    s.eviEdge g true =
      (let w := (s.eviLevel g true).eviReached g
       if w.linesByEdge && w.fget Reg.motCtrl_levi == g then w.lineTrigger w.feedNm else w) := by
  simp only [State.eviEdge, h, Bool.not_true, Bool.or_self, Bool.false_eq_true, if_false]
  rfl

/-- Settles O35: a write acts by the block of its address, an EVI pin by its level before the edge. -/
theorem nozzleAndTrackWrites : Obligations.NozzleAndTrackWrites := by
  unfold Obligations.NozzleAndTrackWrites
  refine ⟨fun s p v => ⟨fun hacc hclear => ⟨_, next_eq (State.pathWrite_nzlClear hacc hclear), rfl,
      State.byte_nzlClear⟩, fun hacc hplace => next_eq (State.pathWrite_trkPlace hacc hplace),
      fun st hacc => next_eq (State.pathWrite_nzlBandLine0 st hacc), fun st low hacc hlow => ?_⟩,
    fun s g hup => ?_⟩
  · refine next_eq ((State.pathWrite_nzlBandLine1 st hacc).trans ?_)
    rw [hlow, BitVec.ofNat_toNat, BitVec.setWidth_eq]
  · refine ⟨next_live hup State.eviEdge_low, fun hwas => next_live hup (State.eviEdge_stays hwas), fun hwas =>
      ⟨fun hedge hlevi => next_live hup ((State.eviEdge_rises hwas).trans (if_pos ?_)),
        fun hnot => next_live hup ((State.eviEdge_rises hwas).trans (if_neg ?_))⟩⟩
    · exact Bool.and_eq_true_iff.2 ⟨hedge, beq_iff_eq.2 hlevi⟩
    · intro hboth
      obtain ⟨hedge, hlevi⟩ := Bool.and_eq_true_iff.1 hboth
      exact hnot.elim (fun hno => Bool.false_ne_true (hno.symm.trans hedge)) fun hother => hother (beq_iff_eq.1 hlevi)

end Sys2Proof.Machine
end

section
/-! Jobs, advances and the couch (R242 to R246, R346, R433). -/

namespace Sys2Proof.Machine

variable {s : State} {p : Path}

/-- The settings that a JOB_START is checked with, and the phases whose LEAD they raised (R43, R94). -/
def State.jobFitted (s : State) (e : CmdEntry) : List Nat × State :=
  if jobRegime e = 1 then (s.jobTrial e).fitWindows (s.jobSettings e).leadMin else ([], s.jobTrial e)

theorem State.jobStart_refused {e : CmdEntry} {code reason idx : Nat}
    (h : s.jobCheck (s.jobFitted e).2 (s.jobSettings e).leadMin e = some (code, reason, idx)) :
    s.jobStart e = s.cmdRefuse 3 e reason (pf 24 1 code + pf 26 2 idx) := by
  unfold State.jobFitted at h
  simp only [State.jobStart, h]

theorem State.jobStart_begins {e : CmdEntry} (h : s.jobCheck (s.jobFitted e).2 (s.jobSettings e).leadMin e = none) :
    s.jobStart e =
      ((s.jobFitted e).2.jobBegin e (s.jobFitted e).1
        (decide ((s.jobTrial e).seq.period < (s.jobFitted e).2.seq.period))).cmdFinish 3 e 0 := by
  unfold State.jobFitted at h ⊢
  simp only [State.jobStart, h]

/-- An accepted JOB_STOP drops what waits: a held advance and the couch (R245, R246). -/
def State.stopAccepted (s : State) (e : CmdEntry) : State :=
  let t := ((s.cmdAccept 4 e).fput Reg.motStat_adv_held 0).fput Reg.motStat_couch 0
  { t with mot := { t.mot with stopping := some e, held := none, heldCmd := none, couch := none } }

/-- No further line is captured (R245). -/
def State.disarmed (s : State) : State := { s with seq := { s.seq with armed := false, held := none } }

theorem State.jobStop_accepted {e : CmdEntry} (hrun : s.running = true) (hstop : s.mot.stopping = none) :
    s.jobStop e =
      (let t := s.stopAccepted e
       if t.regime = 2 ∧ t.mot.adv.isSome = true then t
       else if t.regime = 2 ∨ (t.regime = 3 ∧ t.flag Reg.motCtrl_webf = true) then t.disarmed else t.disarmed.halt 0) := by
  unfold State.jobStop
  rw [if_neg (by simp [hrun]), if_neg (by simp [hstop])]
  rfl

/-- Settles O42: by the first check that fails, the regime, and what `jobMayEnd` waits for. -/
theorem jobStartStopEnd : Obligations.JobStartStopEnd := by
  unfold Obligations.JobStartStopEnd
  refine fun s => ⟨fun e r hhead => ?_, fun e r hhead hsafe hrun hstop => ?_, fun hup hrun hstop hcur hrest => ?_⟩
  · have hexec : exec (.jobStart e) s = .next ((s.popped r).jobStart e).cmdNext :=
      next_eq (State.ringCommand_of_atHead hhead _)
    rw [hexec]
    exact ⟨fun code reason idx hcheck => by rw [State.jobStart_refused hcheck],
      fun hcheck => congrArg (fun t => Host.Outcome.next (State.cmdNext t)) (State.jobStart_begins hcheck)⟩
  · have hexec : exec (.jobStop e) s = .next ((s.popped r).jobStop e).cmdNext :=
      next_eq (State.ringWork_of_atHead hhead hsafe _)
    rw [hexec, State.jobStop_accepted hrun hstop]
    refine ⟨fun hpass hadv => ?_, fun hpass hadv => ?_, fun hpaced => ?_⟩
    · rw [if_pos ⟨hpass, Option.isSome_iff_ne_none.2 hadv⟩]; rfl
    · rw [if_neg (fun h => Option.isSome_iff_ne_none.1 h.2 hadv), if_pos (.inl hpass)]; rfl
    · have hnot : ¬ (((s.popped r).stopAccepted e).regime = 2) := fun h => absurd (hpaced.symm.trans h) (by decide)
      have hweb : ¬ (((s.popped r).stopAccepted e).regime = 3) := fun h => absurd (hpaced.symm.trans h) (by decide)
      rw [if_neg (fun h => hnot h.1), if_neg (fun h => h.elim hnot fun h => hweb h.1)]; rfl
  · have hmay : s.jobMayEnd = true := by
      rcases hrest with ⟨hpass, hadv⟩ | ⟨hnot, hmoving, hqueued⟩
      · simp [State.jobMayEnd, hrun, hcur, hpass, hadv, Option.isSome_iff_ne_none.2 hstop]
      · simp [State.jobMayEnd, hrun, hcur, hnot, hmoving, hqueued, Option.isSome_iff_ne_none.2 hstop]
    exact next_live hup (if_pos hmay)

/-- An ADVANCE that nothing refuses is held, and then tried (R242). -/
theorem State.advance_held {e : CmdEntry} (hrun : s.running = true) (hregime : s.regime = 2) (hstop : s.mot.stopping = none)
    (h0 : (s.axis 0).restore = none) (h1 : (s.axis 1).restore = none) (hheld : s.mot.held = none) :
    s.advance e =
      (let t := s.cmdAccept 5 e
       let t : State := { t with mot := { t.mot with held := some (advPass e, advDistance e), heldCmd := some e } }
       (t.fput Reg.motStat_adv_held 1).advanceTry) := by
  unfold State.advance
  rw [if_neg (by simp [hrun, hregime, hstop, h0, h1]), if_neg (by simp [hheld])]

/-- The motion island takes the held advance when the pair is idle and ABOVE is clear (R242, R304). -/
theorem State.advanceTry_takes {n : Nat} {d : Int} {e : CmdEntry} (hheld : s.mot.held = some (n, d))
    (hcmd : s.mot.heldCmd = some e) (hfree : s.pairFree = true) (habove : s.flag Reg.lffStat_above = false) :
    s.advanceTry =
      (let t := s.acceptAdvance n d
       State.cmdDone { t with mot := { t.mot with heldCmd := none } } 5 e 0) := by
  simp only [State.advanceTry, hheld, hcmd, hfree, habove, Bool.not_false, Bool.and_self, if_true]

/-- The PB of an advance whose last steps are out (R23, R244). -/
theorem State.passBoundary_settled {x : Adv} (hadv : s.mot.adv = some x) (hsettling : x.settling = true)
    (hlost : s.sys.ctlLost = false) (h0 : s.owed 0 = 0) (h1 : s.owed 1 = 0) :
    s.passBoundary =
      (let t := ((s.setF (x.f0 + x.a * 2 ^ 32)).boundary .pb 0).reclaim
       let t := t.mapCommit (t.flag Reg.sysCommitHold_pb)
       let t := (t.bandPb).trackPb x.pass
       let t := ({ t with mot := { t.mot with adv := none } } : State).fput Reg.motStat_adv_run 0
       if t.mot.stopping.isSome then t.jobEnd else t.advanceTry) := by
  simp only [State.passBoundary, hadv]
  rw [if_neg (by simp [hsettling, hlost, h0, h1])]
  rfl

/-- Settles O43: an advance is held, taken, and ended by its PB; the couch follows its steps. -/
theorem advances : Obligations.Advances := by
  unfold Obligations.Advances
  refine ⟨fun s => ⟨fun e r hhead hsafe hrun hregime hstop h0 h1 hheld => ?_,
      fun n d e hctl hheld hcmd hrun hadv hm0 hm1 h0 h1 habove => ?_, fun x hctl hadv hsettling ho0 ho1 => ?_⟩,
    fun s c hctl hcouch => ⟨fun hstep => ?_, fun hstep hback => ?_, fun hstep habove hvolt => ?_⟩⟩
  · refine next_eq ((State.ringWork_of_atHead hhead hsafe _).trans ?_)
    exact congrArg State.cmdNext (State.advance_held hrun hregime hstop h0 h1 hheld)
  · have hfree : s.pairFree = true := by simp [State.pairFree, hrun, hctl.2, hadv, hm0, hm1, h0, h1]
    exact next_live hctl.1 (State.advanceTry_takes hheld hcmd hfree habove)
  · have hpb := State.passBoundary_settled hadv hsettling hctl.2 ho0 ho1
    exact ⟨fun hgo => next_live hctl.1 (hpb.trans (if_neg (fun h => Option.isSome_iff_ne_none.1 h hgo))),
      fun hstop => next_live hctl.1 (hpb.trans (if_pos (Option.isSome_iff_ne_none.2 hstop)))⟩
  · refine next_live hctl.1 ?_
    simp only [State.couchDwell, hcouch, hctl.2, Bool.false_eq_true, if_false, hstep, if_true]
  · refine next_live hctl.1 ?_
    simp [State.couchDwell, hcouch, hctl.2, hstep, hback]
  · refine next_live hctl.1 ?_
    simp only [State.couchForward, hcouch]
    rw [if_pos ⟨hstep, habove, hvolt, hctl.2⟩]

end Sys2Proof.Machine
end

section
/-! The gap left open at a job's end, the issue of packets and the service reader (R295, R301, R305, R308, R338). -/

namespace Sys2Proof.Machine

variable {s : State} {p : Path}

theorem State.gapAfterJob_closes {g : Gap} (hgap : s.lff.gap = some g) (hdue : s.lff.closeDue = true)
    (hfree : 4 ≤ s.freeItems) :
    s.gapAfterJob =
      (let u := ((s.gapClose g s.alloc).fput Reg.lffPtrAlloc_val (fAdv s.alloc 4)).fillGrew
       u.commitMarks u.lff.resv) := by
  simp only [State.gapAfterJob, hgap, hdue, hfree, decide_true, Bool.and_self, if_true]

/-- A packet whose header can be read is issued (R305, R338). -/
theorem State.issuePacket_takes {port q kind len : Nat} (hsink : s.flag Reg.lffCtrl_sink = false)
    (hpacket : s.issuePtr ≠ s.commitPtr) (hroom : s.lff.ring.length < 4096)
    (hcredit : s.wget Reg.hstLineIssue0 - s.wget Reg.hstLineCi0 < s.fget Reg.hstLineCount_lcount)
    (hport : s.issuePort (s.wget Reg.hstLineIssue0) = some port) (hslot : s.linesSlot port = some q)
    (hlen : s.kindLen s.issuePtr = some (kind, len)) (hheader : s.headerPoisoned s.issuePtr = false) :
    s.issuePacket =
      (let h := s.fLoad s.issuePtr 64
       let line := leAt h 8 6
       let last := if kind = 0x57 then leAt h 48 6 else line
       let n := s.poisonedWords s.issuePtr (4 * len)
       let u := (s.reportPoison line n false).fput Reg.lffPtrIssue_val (fAdv s.issuePtr (4 * len))
       u.deliver port q { pos := s.issuePtr, items := 4 * len, line := line, port := port, released := false
                          idx := s.wget Reg.hstLineIssue0, wm := none, ord := 0, told := n != 0 }
         (nextLine (bitAt (leAt h 1 1) 1) last)) := by
  have hready : ¬ (s.flag Reg.lffCtrl_sink = true ∨ s.issuePtr = s.commitPtr ∨ 4096 ≤ s.lff.ring.length ∨
      s.fget Reg.hstLineCount_lcount ≤ s.wget Reg.hstLineIssue0 - s.wget Reg.hstLineCi0) := by
    rw [hsink]
    rintro (h | h | h | h)
    · cases h
    · exact hpacket h
    · omega
    · omega
  simp only [State.issuePacket, if_neg hready, hport, hslot, hlen, hheader, Bool.false_eq_true, if_false]

/-- A read of word 0 of the service data takes the next word and answers its low word (R27, R308). -/
theorem State.readReg_lffSvcData (h : s.reaches p) (hbare : s.bare = false) :
    s.readReg p (Reg.lffSvcData 0) =
      ((s.svcRead.latchAll p (Reg.lffSvcData 0) 4).seen p (Reg.lffSvcData 0), s.svcRead.latchAll p (Reg.lffSvcData 0) 4) := by
  have hlost : s.sys.ctlLost = false := h.1.2
  have hseal : sealReg (Reg.lffSvcData 0) = false := by decide
  have hgroup : groupAt (Reg.lffSvcData 0) = some (Reg.lffSvcData 0, 4, 0) := by decide
  simp [State.readReg, hlost, hbare, hseal, hgroup]

/-- The four words and the status that a read of the service reader shows (R308). -/
def State.svcWords (s : State) (b : List Byte) (stat : Nat) : State :=
  (s.each [0, 1, 2, 3] (fun k u => u.rput (Reg.lffSvcData k) (BitVec.ofNat 32 (leAt b (4 * k) 4)))).rput Reg.lffSvcStat
    (BitVec.ofNat 32 stat)

theorem State.svcLatch_word {b : List Byte} {bad : Bool} {left : Nat} (hleft : left < 2 ^ 24) :
    s.svcLatch b false bad false left = s.svcWords b (2 ^ 30 * b2n bad + left) := by
  unfold State.svcLatch State.svcWords
  rw [Nat.mod_eq_of_lt hleft]
  simp [b2n]

/-- What follows a word that the service reader has taken: ISSUE passes it, and the packet's end its report (R308). -/
def State.svcPassed (s : State) (at' left : Nat) : State :=
  let s := s.fput Reg.lffPtrIssue_val (fAdv at' 1)
  (if left = 1 then s.svcEnd else s).advanceFree

theorem State.svcRead_unsunk (h : s.flag Reg.lffCtrl_sink = false) : s.svcRead = s := by simp [State.svcRead, h]

/-- The idle item of the service reader: its word four times (R308). -/
def idleItem : List Byte := (List.replicate 4 (leBytes 4 0x454C4449)).flatten

theorem idleItem_words : ∀ k ∈ [0, 1, 2, 3], (BitVec.ofNat 32 (leAt idleItem (4 * k) 4) : Word) = 0x454C4449 := by decide

/-- With nothing committed the reader shows the idle item (R308). -/
theorem State.svcRead_idle (hsink : s.flag Reg.lffCtrl_sink = true) (hmark : s.lff.svc = [])
    (hidle : s.issuePtr = s.commitPtr) :
    s.svcRead = (s.each [0, 1, 2, 3] (fun k u => u.rput (Reg.lffSvcData k) 0x454C4449)).rput Reg.lffSvcStat
      (BitVec.ofNat 32 (2 ^ 31 + s.fget Reg.lffSvcStat_left)) := by
  have hread : s.svcRead = s.svcLatch idleItem true false false (s.fget Reg.lffSvcStat_left) := by
    simp only [State.svcRead, hsink, hmark, hidle, bne_self_eq_false, Bool.not_true, Bool.false_eq_true, if_false, if_true]
    rfl
  have hwords : s.each [0, 1, 2, 3] (fun k u => u.rput (Reg.lffSvcData k) (BitVec.ofNat 32 (leAt idleItem (4 * k) 4))) =
      s.each [0, 1, 2, 3] (fun k u => u.rput (Reg.lffSvcData k) 0x454C4449) :=
    List.foldl_ext _ _ _ fun u k hk => congrArg (u.rput (Reg.lffSvcData k)) (idleItem_words k hk)
  have hleft : s.fget Reg.lffSvcStat_left < 2 ^ 24 := s.fget_lt Reg.lffSvcStat_left
  rw [hread, State.svcLatch, hwords, Nat.mod_eq_of_lt hleft]
  simp [b2n]

/-- Within a packet the reader takes the word at ISSUE (R308). -/
theorem State.svcRead_word (hsink : s.flag Reg.lffCtrl_sink = true) (hmark : s.lff.svc = [])
    (hpacket : s.issuePtr ≠ s.commitPtr) (hleft : s.fget Reg.lffSvcStat_left ≠ 0) :
    s.svcRead =
      (let bad := s.poisonedItem s.issuePtr
       let u : State := if bad then
         { s.bump Reg.lffCntPoison_val 1 with lff := { s.lff with svcBad := s.lff.svcBad + 1 } } else s
       (u.svcWords (if bad then List.replicate 16 0xFF else u.fLoad s.issuePtr 16)
         (2 ^ 30 * b2n bad + (s.fget Reg.lffSvcStat_left - 1))).svcPassed s.issuePtr (s.fget Reg.lffSvcStat_left)) := by
  have hlt : s.fget Reg.lffSvcStat_left - 1 < 2 ^ 24 := by
    have := s.fget_lt Reg.lffSvcStat_left
    simp only [Reg.lffSvcStat_left] at this ⊢
    omega
  have hlast : s.fget Reg.lffSvcStat_left - 1 = 0 ↔ s.fget Reg.lffSvcStat_left = 1 := by omega
  have hsop : (s.fget Reg.lffSvcStat_left == 0) = false := by simpa using hleft
  unfold State.svcRead
  simp only [hsink, hmark, bne_self_eq_false, Bool.not_true, Bool.false_eq_true, if_false, if_neg hpacket, hsop, hlast,
    State.svcLatch_word hlt]
  rfl

/-- Settles O48: the issue and the service reader each take what stands at ISSUE. -/
theorem fifoRows : Obligations.FifoRows := by
  unfold Obligations.FifoRows
  refine fun s => ⟨fun g hup hgap hdue hfree => next_live hup (State.gapAfterJob_closes hgap hdue hfree),
    fun flips port q kind len hup hsink hpacket hroom hcredit hport hslot hlen hheader => next_live hup
      (State.issuePacket_takes (s := s.flip flips) hsink hpacket hroom hcredit hport hslot hlen hheader),
    fun p hreach hbare => ⟨fun flips => ?_, State.svcRead_unsunk, fun hsink hmark => ⟨State.svcRead_idle hsink hmark,
      fun hpacket hleft => ⟨fun hgood => ?_, fun hbad => ?_⟩⟩⟩, fun p v hacc => next_eq ?_⟩
  · have hflip : s.live (fun s => s.flip flips) = s.flip flips := State.live_of_up hreach.1.1 _
    show Host.Outcome.next ((s.live (fun s => s.flip flips)).pathRead p (Reg.lffSvcData 0)) = _
    rw [hflip, State.pathRead_of_reaches (s := s.flip flips) hreach, State.readReg_lffSvcData (s := s.flip flips) hreach hbare]
  · rw [State.svcRead_word hsink hmark hpacket hleft, hgood]
    simp only [Bool.false_eq_true, if_false, b2n, Nat.mul_zero, Nat.zero_add]
    rfl
  · rw [State.svcRead_word hsink hmark hpacket hleft, hbad]
    rfl
  · exact State.pathWrite_unclaimed (by decide) (by decide) hacc

end Sys2Proof.Machine
end

section
/-! A register file that is not canonical, on which the order of two writes of MOT_AX_a_STAT shows (R232). -/

namespace Sys2Proof.Machine

/-- Axis 0 seeks its home, and the register file lists MOT_AX_0_STAT twice: PHOME and UNC set, and behind it the word 0. Such a
file is not canonical (`Regs.wf`), which the statement, unlike others, does not ask for. -/
def statTwice : State :=
  State.setAxis { State.reset with
    regs := [(Reg.motAxStat 0, wWord (Reg.motAxStat_phome 0) 1 ||| wWord (Reg.motAxStat_unc 0) 1), (Reg.motAxStat 0, 0)] }
    0 { State.reset.axis 0 with restore := some .seek }

/-- PHASE_FAIL lowers PHOME last: the first entry then holds the reset word and is taken out. -/
theorem phaseFail_statTwice : (statTwice.phaseFail 0).regs = [(Reg.motAxStat 0, 0)] := by decide

/-- Refutes O40: the statement lowers PHOME before REF and UNC, which then go into the second entry of `statTwice`. -/
theorem not_axisEnableAndPosition : ¬ Obligations.AxisEnableAndPosition := by
  unfold Obligations.AxisEnableAndPosition
  intro h
  obtain ⟨-, -, hphase⟩ := h statTwice
  obtain ⟨-, hfail, -⟩ := hphase rfl 0
  have hregs := congrArg State.regs (Host.Outcome.next.inj (hfail (by decide)))
  exact absurd (phaseFail_statTwice.symm.trans hregs) (by decide)

end Sys2Proof.Machine
end

section
/-! Phases, strobes, readouts and flush phases (R42, R45, R79, R93, R95, R96, R118, R120, R434). -/

namespace Sys2Proof.Machine

variable {s : State}

/-- The next phase of the line in progress (R93, R106). -/
theorem State.phaseStart_line {num : Nat} (hcur : s.seq.cur = some num) (hmore : s.seq.started < s.seq.phases) :
    s.phaseStart =
      (let u := (s.handOverSegs true).startPulse (.line num s.seq.started)
       let u : State := { u with seq := { u.seq with started := s.seq.started + 1 } }
       (u.diagArm (num % overlapBase) s.seq.started).strobesDue s.seq.started) := by
  simp only [State.phaseStart, State.linePhase, hcur, if_neg (Nat.not_le.2 hmore)]

/-- The closing start pulse of a line whose phases have ended and that no held line follows (R434). -/
theorem State.closeLine_ended {num : Nat} (hcur : s.seq.cur = some num) (hlast : s.seq.phases ≤ s.seq.started)
    (hheld : s.seq.held = none) (hsafe : s.isSafe = false) (hstop : s.vfe.stopping = false) :
    s.closeLine =
      (let u := (s.handOverSegs false).startPulse .idle
       let u : State := { u with seq := { u.seq with cur := none, closing := u.sys.now + 10 * u.seq.period } }
       if u.running then u else u.stopClocks) := by
  have hmore : ¬ s.seq.started < s.seq.phases := Nat.not_lt.2 hlast
  unfold State.closeLine
  simp only [hcur, hheld, hsafe, hstop, hmore, decide_false, Option.isSome_none, Bool.or_self, Bool.false_eq_true, if_false]

/-- The first start pulse of a segment's queue gives its readout, which shows the loop currents (R42, R53). -/
def State.readTaken (s : State) (seg : Nat) (rest : List Pulse) (r : Readout) : State :=
  State.showLoops { s with vfe := { s.vfe with
    reads := tput (fun _ => []) s.vfe.reads seg rest
    pulse := if rest = [] then tput (fun _ => 0) s.vfe.pulse seg 0 else s.vfe.pulse } } seg (r.taps.map (·.loopUa))

/-- A readout is over: the samples from which its taps were no-data are forgotten, and the clocks may stop (R45, R54). -/
def State.readOver (s : State) (seg : Nat) : State :=
  State.readEnded { s with vfe := { s.vfe with
    cutAt := (List.range 4).foldl (fun t i => tput (fun _ => none) t (4 * seg + i) none) s.vfe.cutAt } }

theorem State.readout_none {seg : Nat} {r : Readout} (h : tget (fun _ => []) s.vfe.reads seg = []) : s.readout seg r = s := by
  simp only [State.readout, h]

section
variable {seg : Nat} {r : Readout} {q : Pulse} {rest : List Pulse}

/-- Idle and flush charge is discarded (R45, R434). -/
theorem State.readout_discarded (h : tget (fun _ => []) s.vfe.reads seg = q :: rest)
    (hcharge : q.charge = .idle ∨ q.charge = .flush) : s.readout seg r = (s.readTaken seg rest r).readOver seg := by
  rcases hcharge with hcharge | hcharge <;>
  · simp only [State.readout, h, hcharge]
    rfl

/-- The charge of a line's phase is checked, and a colour phase reaches staging (R75, R79, R118). -/
theorem State.readout_line {n k : Nat} (h : tget (fun _ => []) s.vfe.reads seg = q :: rest) (hcharge : q.charge = .line n k) :
    s.readout seg r =
      (let x := (s.readTaken seg rest r).readTaps seg k (n % overlapBase) q.slices r.taps
       State.readOver (if k < x.2.colourPhases then x.2.stageReadout seg n k x.1 else x.2) seg) := by
  simp only [State.readout, h, hcharge]
  rfl

/-- A calibration's charge is checked, and a colour phase reaches its accumulators (R152, R158). -/
theorem State.readout_cal {n k : Nat} (h : tget (fun _ => []) s.vfe.reads seg = q :: rest) (hcharge : q.charge = .cal n k) :
    s.readout seg r =
      (let x := (s.readTaken seg rest r).readTaps seg k lineNone q.slices r.taps
       State.readOver (if k < x.2.colourPhases then x.2.calReadout seg n k x.1 else x.2) seg) := by
  simp only [State.readout, h, hcharge]
  rfl

end

/-- The accumulator of a clamp takes a readout's sum of sable samples (R120). -/
def clampAcc (a : Nat) (m : Option Nat) (acc : Option Int) : Option Int :=
  match m, acc with
  | none, x => x
  | some m, none => some ((m * 2 ^ a : Nat) : Int)
  | some m, some x => some (x + m - x.fdiv (2 ^ a : Nat))

/-- The clamp that an accumulator gives, in 1/16 (R120). -/
def clamp16 (a : Nat) (acc : Option Int) : Int :=
  match acc with
  | none => 0
  | some x => (x + (2 ^ a : Nat)).fdiv (2 ^ (a + 1) : Nat)

theorem State.clampUpdate_fst (s : State) (seg t k : Nat) (m : Option Nat) :
    (s.clampUpdate seg t k m).1 =
      clamp16 s.pxe.clampA (clampAcc s.pxe.clampA m (tget (fun _ => none) s.pxe.acc (16 * seg + 4 * t + k))) := rfl

/-- The clamps of a segment's four taps after a readout, and the state with them (R120). -/
def State.clampTaps (s : State) (seg k : Nat) (taps : List TapStage) : List Int × State :=
  (List.range 4).foldl (fun x t =>
    let r := x.2.clampUpdate seg t k (taps.getD t TapStage.none).sum
    (x.1 ++ [r.1], r.2)) ([], s)

theorem State.clampTaps_eq (s : State) (seg k : Nat) (taps : List TapStage) :
    s.clampTaps seg k taps =
      (let c0 := s.clampUpdate seg 0 k (taps.getD 0 TapStage.none).sum
       let c1 := c0.2.clampUpdate seg 1 k (taps.getD 1 TapStage.none).sum
       let c2 := c1.2.clampUpdate seg 2 k (taps.getD 2 TapStage.none).sum
       let c3 := c2.2.clampUpdate seg 3 k (taps.getD 3 TapStage.none).sum
       ([c0.1, c1.1, c2.1, c3.1], c3.2)) := by
  have hrange : List.range 4 = [0, 1, 2, 3] := rfl
  simp only [State.clampTaps, hrange, List.foldl_cons, List.foldl_nil, List.nil_append, List.cons_append]

theorem State.pline_clampTaps (s : State) (seg k n : Nat) (taps : List TapStage) :
    (s.clampTaps seg k taps).2.pline n = s.pline n := rfl

/-- Staging unit `m` takes a segment's readout of a line in the pool (R117, R118). -/
def State.intoUnit (s : State) (m seg n k : Nat) (taps : List TapStage) (clamp : List Int) (q : PLine) : State :=
  let u := s.store (unitAddr m) (taps.flatMap (fun x => x.y.flatMap (leBytes 2)))
  let u := u.store (unitDesc m) (taps.flatMap (fun x => x.desc.flatMap (leBytes 4)))
  let u : State := { u with pxe := { u.pxe with unit := tput (fun _ => none) u.pxe.unit m (some
    { seg := seg, line := n, phase := k, left := (List.range 4).filter (fun t => q.left.contains (k, .tap seg t))
      clamp := clamp, nodata := taps.flatMap (fun x => x.nodata) }) } }
  u.setPline { q with
    due := q.due.filter (fun d => d != (k, seg)), suspect := q.suspect || taps.any (fun x => x.suspect)
    lastStaged := if k + 1 = q.cfg.c then some u.sys.now else q.lastStaged }

section
variable {seg n k : Nat} {taps : List TapStage} {q : PLine}

/-- Without a free unit the line is dropped (R118). -/
theorem State.stageReadout_dropped (hline : s.pline n = some q) (hfull : (s.clampTaps seg k taps).2.freeUnit = none) :
    s.stageReadout seg n k taps = (s.clampTaps seg k taps).2.dropLine n 1 := by
  rw [← State.pline_clampTaps s seg k n taps] at hline
  simp only [State.clampTaps] at hline hfull ⊢
  simp only [State.stageReadout, hline, hfull]

/-- A free unit takes the readout, and the tap blocks still to do are offered to their queue (R118, R134). -/
theorem State.stageReadout_staged {m : Nat} (hline : s.pline n = some q)
    (hfree : (s.clampTaps seg k taps).2.freeUnit = some m) (hleft : ∃ t ∈ List.range 4, (k, BlkKind.tap seg t) ∈ q.left) :
    s.stageReadout seg n k taps =
      ((s.clampTaps seg k taps).2.intoUnit m seg n k taps (s.clampTaps seg k taps).1 q).each (List.range 4)
        (fun t u => u.offer n k (.tap seg t)) := by
  have hblocks : (List.range 4).filter (fun t => q.left.contains (k, .tap seg t)) ≠ [] := by
    obtain ⟨t, ht, hmem⟩ := hleft
    exact List.ne_nil_of_mem (List.mem_filter.2 ⟨ht, List.contains_iff_mem.2 hmem⟩)
  rw [← State.pline_clampTaps s seg k n taps] at hline
  simp only [State.clampTaps] at hline hfree ⊢
  simp only [State.stageReadout, State.intoUnit, hline, hfree, if_neg hblocks]

end

/-- The flush phases are over (R45). -/
theorem State.flushPhases_run (hflush : s.vfe.flush ≠ 0) (hlamps : s.lmp.delivering = false) (hsafe : s.isSafe = false)
    (hvolt : s.vfe.toVolt = []) :
    s.flushPhases =
      (let u := (s.handOverSegs true).handOverSegs true
       State.calFlushed { u with
         vfe := { u.vfe with flush := 0, clocks := true, stopping := false, charge := .flush, reads := [] }
         seq := { u.seq with waitFlush := false } }) := by
  unfold State.flushPhases
  rw [if_neg (by simp [hflush, hlamps, hsafe, hvolt])]

/-- Settles O20: by the queue of readouts and the charge of its first pulse, and by what staging has free. -/
theorem phasesAndStrobes : Obligations.PhasesAndStrobes := by
  unfold Obligations.PhasesAndStrobes
  refine ⟨fun s hctl => ⟨fun num hcur hmore => next_ctl hctl (State.phaseStart_line hcur hmore),
      fun num hcur hlast hheld hsafe hstop => next_ctl hctl (State.closeLine_ended hcur hlast hheld hsafe hstop),
      fun k hrise => next_live hctl.1 (by simp only [State.strobeRise, hrise]), fun c => next_live hctl.1 rfl,
      fun harmed hdown hrise => next_live hctl.1 ?_⟩,
    fun s => ⟨fun seg r hup hnone => next_live hup (State.readout_none hnone),
      fun seg r q rest hup hreads => ⟨fun hcharge => next_live hup (State.readout_discarded hreads hcharge),
        fun n k hcharge => next_live hup ?_, fun n k hcharge => next_live hup ?_⟩,
      fun seg t k m => ?_, fun seg n k taps q hline => ?_,
      fun hctl hflush hlamps hsafe hvolt => next_ctl hctl (State.flushPhases_run hflush hlamps hsafe hvolt)⟩⟩
  · simp only [State.lampEnOff, harmed, hdown, hrise]
    rfl
  · rw [State.readout_line hreads hcharge]; rfl
  · rw [State.readout_cal hreads hcharge]; rfl
  · refine ⟨State.clampUpdate_fst s seg t k none, fun hacc => ?_, fun x hacc => ?_⟩
    · rw [State.clampUpdate_fst, hacc]; rfl
    · rw [State.clampUpdate_fst, hacc]; rfl
  · intro c0 c1 c2 c3
    have hclamps : s.clampTaps seg k taps = ([c0.1, c1.1, c2.1, c3.1], c3.2) := s.clampTaps_eq seg k taps
    have hdropped := State.stageReadout_dropped (seg := seg) (k := k) (taps := taps) hline
    have hstaged {m : Nat} := State.stageReadout_staged (seg := seg) (k := k) (taps := taps) (m := m) hline
    rw [hclamps] at hdropped hstaged
    exact ⟨hdropped, fun m => hstaged⟩

end Sys2Proof.Machine
end

section
/-! Training, broken loops and the segment control buses (R50, R53 to R57, R59, R60, R62, R63). -/

namespace Sys2Proof.Machine

variable {s : State} {p : Path}

theorem State.effect_vfeCtrl (t before : State) (v : Nat) :
    t.effect before p Reg.vfeCtrl v = if fld v Reg.vfeCtrl_train = 1 then t.trainBegin else t := rfl

/-- TRAIN starts a training (R50). -/
theorem State.pathWrite_train {v : Word} (h : s.accepts p Reg.vfeCtrl v) (htrain : fld v.toNat Reg.vfeCtrl_train = 1) :
    s.pathWrite p Reg.vfeCtrl v = (s.stored Reg.vfeCtrl v).trainBegin := by
  rw [State.pathWrite_unclaimed (by decide) (by decide) h, State.effect_vfeCtrl, if_pos htrain]

/-- Settles O21: TRAIN acts at its write, and each end waits for what it ends. -/
theorem trainingRuns : Obligations.TrainingRuns := by
  unfold Obligations.TrainingRuns
  refine fun s => ⟨fun p v hacc htrain => next_eq (State.pathWrite_train hacc htrain), fun taps hctl hbusy =>
    next_ctl hctl ?_, fun bs hctl hdue => next_ctl hctl ?_⟩
  · simp only [State.trainDone, hbusy, Bool.not_true, Bool.false_eq_true, if_false]
  · simp only [State.bringup, hdue, Bool.not_true, Bool.false_eq_true, if_false]

/-- A live tap not yet broken whose loop leaves its window is declared broken (R53, R54). -/
theorem State.loopBroken_breaks {k t ua sample : Nat} {leg : Bool} (hen : s.segEn k = true) (hpresent : s.segPresent k = true)
    (halive : s.alive k = true) (hout : s.loopOutside k ua = true)
    (hwhole : if s.inVolt k then tget (fun _ => false) s.vfe.vbad (4 * k + t) = false
      else s.fget (Reg.vfeTapTrain_result k t) ≠ 3) :
    s.loopBroken k t leg ua sample = (s.markBroken k t leg ua sample).fallbackDue k := by
  have hdead : (if s.inVolt k then tget (fun _ => false) s.vfe.vbad (4 * k + t)
      else s.fget (Reg.vfeTapTrain_result k t) == 3) = false := by
    cases hvolt : s.inVolt k <;> simpa [hvolt] using hwhole
  unfold State.loopBroken
  rw [hdead, if_neg (by simp [hen, hpresent, halive, hout])]

/-- A switch to voltage mode may begin: before capture starts, or while the couch stands with no readout left (R54, R57). -/
theorem State.voltageMode_begins {k : Nat} {ok : List Bool} {loop : List Nat} (hdue : s.vfe.toVolt.contains k = true)
    (hfirst : s.switching k = none) (hcur : s.seq.cur = none)
    (hstands : s.mot.couch = none ∧ s.seq.waitFlush = true ∨
      s.mot.couch ≠ none ∧ 3 ≤ s.couchStep ∧ s.couchStep ≤ 5 ∧ tget (fun _ => []) s.vfe.reads k = []) :
    s.voltageMode k ok loop =
      (let u := (s.voltClock k).fput (Reg.vfeSegStat_state k) 4
       let u := u.fput Reg.vfeVrefCtrl_en (putBit (u.fget Reg.vfeVrefCtrl_en) (k / 16) true)
       let u : State := { u with vfe := { u.vfe with
         switch := tput (fun _ => none) u.vfe.switch k (some ok)
         switchLoop := tput (fun _ => []) u.vfe.switchLoop k loop } }
       u.segMode k 1 u.binned true) := by
  unfold State.voltageMode
  rcases hstands with ⟨hcouch, hflush⟩ | ⟨hcouch, hlo, hhi, hreads⟩
  · simp only [hdue, hfirst, hcur, hcouch, hflush, Option.isNone_none, Bool.or_true, Bool.and_self, if_true]
  · obtain ⟨c, hc⟩ := Option.ne_none_iff_exists'.1 hcouch
    simp only [hdue, hfirst, hcur, hc, hreads, hlo, hhi, Option.isNone_none, beq_self_eq_true, Bool.true_or, and_self, decide_true,
      Bool.and_self, if_true]

/-- The switch goes on once no frame of it is left on the bus (R57). -/
theorem State.switchCheck_done {k : Nat} {ok : List Bool} (hswitch : s.switching k = some ok) (hpresent : s.segPresent k = true)
    (hsent : ∀ f, (tget (fun _ => ScbBus.init) s.vfe.scb (k / 16)).cur = some f ∨
      f ∈ (tget (fun _ => ScbBus.init) s.vfe.scb (k / 16)).queue → f.forSwitch = false ∨ f.addr ≠ k % 16) :
    s.switchCheck k = s.voltDone k ok := by
  have hfree : ∀ f, (tget (fun _ => ScbBus.init) s.vfe.scb (k / 16)).cur = some f ∨
      f ∈ (tget (fun _ => ScbBus.init) s.vfe.scb (k / 16)).queue → (f.forSwitch && f.addr == k % 16) = false := fun f hf => by
    rcases hsent f hf with h | h <;> simp [h]
  unfold State.switchCheck
  simp only [hswitch, hpresent, Bool.not_true, Bool.false_eq_true, if_false]
  refine if_neg fun hwaits => ?_
  rcases Bool.or_eq_true_iff.1 hwaits with hcur | hqueue
  · obtain ⟨f, hf, hwait⟩ := Option.any_eq_true _ _ |>.1 hcur
    exact Bool.false_ne_true ((hfree f (.inl hf)).symm.trans hwait)
  · obtain ⟨f, hf, hwait⟩ := List.any_eq_true.1 hqueue
    exact Bool.false_ne_true ((hfree f (.inr hf)).symm.trans hwait)

/-- Settles O22: by what each operation waits for. -/
theorem loopBrokenAndFallback : Obligations.LoopBrokenAndFallback := by
  unfold Obligations.LoopBrokenAndFallback
  exact fun s hctl => ⟨fun k t leg ua sample hen hpresent halive hout hwhole =>
      next_ctl hctl (State.loopBroken_breaks hen hpresent halive hout hwhole),
    fun k ok0 ok1 ok2 ok3 loop hdue hfirst hcur hstands => next_ctl hctl (State.voltageMode_begins hdue hfirst hcur hstands),
    fun k ok hswitch hpresent hsent => State.switchCheck_done hswitch hpresent hsent⟩

theorem vfeScbCmd_block : ∀ b : Fin 4,
    plainReg (Reg.vfeScbCmd b) = true ∧ claimRegs.contains (Reg.vfeScbCmd b) = false ∧ Reg.vfeScbCmd b / 0x10000 = 0x09 ∧
      Reg.vfeScbCmd b ≠ Reg.vfeCtrl ∧ (List.range 4).find? (fun c => Reg.vfeScbCmd c == Reg.vfeScbCmd b) = some b.val := by
  decide

/-- The frame that a host write of VFE_SCB_b_CMD names (R62). -/
def hostFrame (b v : Nat) : ScbFrame :=
  { addr := fld v (Reg.vfeScbCmd_addr b), rd := fld v (Reg.vfeScbCmd_rd b) == 1
    reg := fld v (Reg.vfeScbCmd_reg b), data := fld v (Reg.vfeScbCmd_data b), host := true }

/-- A host write of VFE_SCB_b_CMD sends its frame with GO (R62). -/
theorem State.pathWrite_vfeScbCmd {v : Word} (b : Fin 4) (h : s.accepts p (Reg.vfeScbCmd b) v) :
    s.pathWrite p (Reg.vfeScbCmd b) v = if fld v.toNat (Reg.vfeScbCmd_go b) = 1
      then (s.stored (Reg.vfeScbCmd b) v).scbStart b (hostFrame b v.toNat) else s.stored (Reg.vfeScbCmd b) v := by
  obtain ⟨hplain, hclaim, hblock, hctrl, hbus⟩ := vfeScbCmd_block b
  rw [State.pathWrite_unclaimed hplain hclaim h]
  simp only [State.effect, hblock, State.effectVideo, if_neg hctrl, hbus]
  rfl

theorem State.scbRetry_waiting {b : Nat} {f : ScbFrame} (hcur : (tget (fun _ => ScbBus.init) s.vfe.scb b).cur = some f)
    (hwait : (tget (fun _ => ScbBus.init) s.vfe.scb b).waiting = true) : s.scbRetry b = s.scbStart b f := by
  simp only [State.scbRetry, hcur, hwait, if_true]

theorem State.scbRetry_idle {b : Nat} (h : (tget (fun _ => ScbBus.init) s.vfe.scb b).cur = none ∨
    (tget (fun _ => ScbBus.init) s.vfe.scb b).waiting = false) : s.scbRetry b = s := by
  unfold State.scbRetry
  rcases h with h | h
  · simp only [h]
  · simp only [h, Bool.false_eq_true, if_false]
    split <;> rfl

/-- A reply to no frame changes nothing. -/
theorem State.scbReply_idle {b status data : Nat} {good : Bool} (h : (tget (fun _ => ScbBus.init) s.vfe.scb b).cur = none ∨
    (tget (fun _ => ScbBus.init) s.vfe.scb b).waiting = true) : s.scbReply b status data good = s := by
  unfold State.scbReply
  rcases h with h | h
  · simp only [h]
  · simp only [h, if_true]
    split <;> rfl

/-- The status and the repeats that the bus shows after a reply (R60, R62). -/
def State.scbShown (s : State) (b status repeats : Nat) : State :=
  (s.fput (Reg.vfeScbStat_st b) status).fput (Reg.vfeScbStat_tries b) repeats

@[simp] theorem State.raise_vfe {code src pay : Nat} {sev : Sev} : (s.raise code sev src pay).vfe = s.vfe := by
  unfold State.raise State.raiseAt State.stage
  split
  · rfl
  · split
    · rfl
    · split <;> rfl

section
variable {b data : Nat} {good : Bool} {bus : ScbBus} {f : ScbFrame} (hbus : tget (fun _ => ScbBus.init) s.vfe.scb b = bus)
  (hcur : bus.cur = some f) (hwait : bus.waiting = false)
include hbus hcur hwait

/-- ACK, with a good check where the frame reads, ends the frame (R60). -/
theorem State.scbReply_ack (hgood : f.rd = false ∨ good = true) :
    s.scbReply b 10 data good =
      (let u := s.scbShown b 10 bus.repeats
       (if f.rd then u.fput (Reg.vfeScbData_data b) data else u).scbEnd b f false bus.queue) := by
  have hok : (!f.rd || good) = true := by rcases hgood with h | h <;> simp [h]
  simp only [State.scbReply, hbus, hcur, hwait, hok, Bool.false_eq_true, if_false, and_self, if_true]
  rfl

/-- 0b0110 ends the frame in error; on a frame of a switch to voltage mode the segment is absent (R60). -/
theorem State.scbReply_refused :
    s.scbReply b 6 data good =
      (let u := (s.scbShown b 6 bus.repeats).raise 0x5006 .warn (16 * b + f.addr) (pf 22 1 f.reg + pf 23 1 6)
       (if f.forSwitch && (s.switching (16 * b + f.addr)).isSome then u.segAbsent (16 * b + f.addr) else u).scbEnd b f true
         bus.queue) := by
  have hack : ¬ (6 = 0b1010 ∧ (!f.rd || good) = true) := fun h => absurd h.1 (by decide)
  have hswitch : ∀ t : State, t.vfe = s.vfe → t.switching = s.switching := fun t ht => by unfold State.switching; rw [ht]
  simp only [State.scbReply, hbus, hcur, hwait, Bool.false_eq_true, if_false, if_neg hack, if_true]
  rw [hswitch _ (by simp)]
  rfl

/-- BUSY makes the frame wait, at most 100 times (R60). -/
theorem State.scbReply_busy :
    s.scbReply b 3 data good =
      (let u := s.scbShown b 3 bus.repeats
       if bus.busies < 100 then { u with
         vfe := { u.vfe with
           scb := tput (fun _ => ScbBus.init) u.vfe.scb b { bus with busies := bus.busies + 1, waiting := true } } }
       else (u.scbGiveUp b f 3).scbEnd b f true bus.queue) := by
  have hack : ¬ (3 = 0b1010 ∧ (!f.rd || good) = true) := fun h => absurd h.1 (by decide)
  have hrefused : ¬ 3 = 0b0110 := by decide
  simp only [State.scbReply, hbus, hcur, hwait, Bool.false_eq_true, if_false, if_neg hack, if_neg hrefused, if_true]
  rfl

/-- Any other reply, and an ACK whose check fails, repeats the frame (R60). -/
theorem State.scbReply_repeat {status : BitVec 4}
    (hother : (status ≠ 10 ∧ status ≠ 6 ∧ status ≠ 3) ∨ (status = 10 ∧ f.rd = true ∧ good = false)) :
    s.scbReply b status.toNat data good = (s.scbShown b status.toNat bus.repeats).scbRepeat b bus f status.toNat := by
  have hnot : ¬ (status.toNat = 0b1010 ∧ (!f.rd || good) = true) ∧ ¬ status.toNat = 0b0110 ∧ ¬ status.toNat = 0b0011 := by
    rcases hother with ⟨hack, hrefused, hbusy⟩ | ⟨rfl, hrd, hbad⟩
    · exact ⟨fun h => hack (BitVec.eq_of_toNat_eq h.1), fun h => hrefused (BitVec.eq_of_toNat_eq h),
        fun h => hbusy (BitVec.eq_of_toNat_eq h)⟩
    · exact ⟨by simp [hrd, hbad], by decide, by decide⟩
  obtain ⟨hack, hrefused, hbusy⟩ := hnot
  simp only [State.scbReply, hbus, hcur, hwait, Bool.false_eq_true, if_false, if_neg hack, if_neg hrefused, if_neg hbusy]
  rfl

end

/-- Settles O23: by the status of the reply, its check, and the repeats and BUSY replies there were. -/
theorem segmentControlFrames : Obligations.SegmentControlFrames := by
  unfold Obligations.SegmentControlFrames
  intro s b
  refine ⟨fun p v hacc => next_eq (State.pathWrite_vfeScbCmd b hacc), fun hctl => ⟨fun f hcur hwait =>
      next_ctl hctl (State.scbRetry_waiting hcur hwait), fun hidle => next_ctl hctl (State.scbRetry_idle hidle)⟩,
    fun status data check hctl hidle => next_ctl hctl (congrArg s.scbSettle (State.scbReply_idle hidle)),
    fun f status data check hctl hcur hwait => ?_⟩
  have hsettle {t : State} (h : s.scbReply b status.toNat data.toNat
      (crc8 (bitsMsb 4 status.toNat ++ bitsMsb 16 data.toNat) == check.toNat) = t) :
      exec (.scbReply b status data check) s = .next (s.scbSettle t) := next_ctl hctl (congrArg s.scbSettle h)
  refine ⟨fun hst hgood => hsettle ?_, fun hst hfree => hsettle ?_, fun hst hfor hswitch => hsettle ?_,
    fun hst hfew => hsettle ?_, fun hother hfew => hsettle ?_, fun hmany => hsettle ?_⟩
  · subst hst
    exact State.scbReply_ack rfl hcur hwait hgood
  · subst hst
    refine (State.scbReply_refused rfl hcur hwait).trans ?_
    have hstays : (f.forSwitch && (s.switching (16 * b + f.addr)).isSome) = false := by
      rcases hfree with h | h <;> simp [h]
    rw [hstays]
    rfl
  · subst hst
    refine (State.scbReply_refused rfl hcur hwait).trans ?_
    rw [hfor, Option.isSome_iff_ne_none.2 hswitch]
    rfl
  · subst hst
    exact (State.scbReply_busy rfl hcur hwait).trans (if_pos hfew)
  · exact (State.scbReply_repeat rfl hcur hwait hother).trans (if_pos hfew)
  · rcases hmany with ⟨hst, hmany⟩ | ⟨hother, hmany⟩
    · subst hst
      exact (State.scbReply_busy rfl hcur hwait).trans (if_neg (Nat.not_lt.2 hmany))
    · exact (State.scbReply_repeat rfl hcur hwait hother).trans (if_neg (Nat.not_lt.2 hmany))

end Sys2Proof.Machine
end

section
/-!
Slice calibrations, hand-over points by time, and the control writes of the converter groups (R70 to R73, R77, R78, R86, R87).
-/

namespace Sys2Proof.Machine

variable {s : State} {p : Path}

/-- An address of a family of registers at distinct addresses has the index it was made from. -/
theorem famIx_apply {f : Nat → Nat} {n i : Nat} (hf : Function.Injective f) (hi : i < n) : famIx f n (f i) = some i := by
  unfold famIx
  rw [List.find?_range_eq_some]
  refine ⟨beq_self_eq_true _, List.mem_range.2 hi, fun j hj => ?_⟩
  have hne : f j ≠ f i := fun h => (Nat.ne_of_lt hj) (hf h)
  simp [hne]

theorem adcGrpCtrl_injective : Function.Injective Reg.adcGrpCtrl := fun g h hgh => by
  unfold Reg.adcGrpCtrl at hgh
  omega

/-- A slice that is calibrated takes its measurements (R71) and is accepted when no check of R72 fails. -/
theorem State.sliceCal_of_calibrating {n : Nat} {m : CalMeas} (h : s.calibrating (groupOf n) (localOf n) = true) :
    s.sliceCal n m =
      (let r := calCompute m (s.fgetI (Reg.adcSliceSkew_skew n))
       let G := s.grp (groupOf n)
       let mask := s.calChecks n r (!(G.startup.contains (localOf n) || G.retest.contains (localOf n)))
       if mask = 0 then s.calAccept (groupOf n) (localOf n) r else s.calReject (groupOf n) (localOf n) r mask) := by
  unfold State.sliceCal
  exact if_neg (by simp [h])

/-- A group whose segment clocks stand takes a hand-over point (R78). -/
theorem State.idleStep_stands {g : Nat} (hg : g < 64) (hclocks : s.vfe.clocks = false) : s.idleStep g = s.handOver g true :=
  if_pos ⟨hg, hclocks⟩

theorem adcGrpCtrl_plain : ∀ g : Fin 65,
    plainReg (Reg.adcGrpCtrl g) = true ∧ claimRegs.contains (Reg.adcGrpCtrl g) = false := by
  decide

/-- The control register of a group lies in its block and is neither VFE_CTRL nor a VFE_SCB_b_CMD. -/
theorem adcGrpCtrl_block {g : Nat} (hg : g < 65) :
    Reg.adcGrpCtrl g / 0x10000 = 0x0B ∧ Reg.adcGrpCtrl g ≠ Reg.vfeCtrl ∧
      (List.range 4).find? (fun b => Reg.vfeScbCmd b == Reg.adcGrpCtrl g) = none := by
  refine ⟨?_, ?_, List.find?_eq_none.2 fun b hb => ?_⟩
  · unfold Reg.adcGrpCtrl; omega
  · unfold Reg.adcGrpCtrl Reg.vfeCtrl; omega
  · have hb : b < 4 := List.mem_range.1 hb
    have hne : Reg.vfeScbCmd b ≠ Reg.adcGrpCtrl g := by unfold Reg.vfeScbCmd Reg.adcGrpCtrl; omega
    simp [hne]

/-- RETEST alone acts beyond the fields of a group's control register (R86). -/
theorem State.effect_adcGrpCtrl {before : State} {g v : Nat} (hg : g < 65) :
    s.effect before p (Reg.adcGrpCtrl g) v = if fld v (Reg.adcGrpCtrl_retest g) = 1 then s.retest g else s := by
  obtain ⟨hblock, hctrl, hbus⟩ := adcGrpCtrl_block hg
  simp only [State.effect, hblock, State.effectVideo, if_neg hctrl, hbus, famIx_apply adcGrpCtrl_injective hg]

theorem State.pathWrite_adcGrpCtrl {v : Word} (g : Fin 65) (h : s.accepts p (Reg.adcGrpCtrl g) v) :
    s.pathWrite p (Reg.adcGrpCtrl g) v = if fld v.toNat (Reg.adcGrpCtrl_retest g) = 1
      then (s.stored (Reg.adcGrpCtrl g) v).retest g else s.stored (Reg.adcGrpCtrl g) v := by
  obtain ⟨hplain, hclaim⟩ := adcGrpCtrl_plain g
  rw [State.pathWrite_unclaimed hplain hclaim h, State.effect_adcGrpCtrl g.isLt]

/-- FREEZE is a field alone: its write stores it (R87). -/
theorem State.pathWrite_adcCtrl {v : Word} (h : s.accepts p Reg.adcCtrl v) :
    s.pathWrite p Reg.adcCtrl v = s.stored Reg.adcCtrl v :=
  State.pathWrite_unclaimed (by decide) (by decide) h

/-- Settles O24: by what each operation waits for, and by the register that a write names; PARK is a field of the same
register as RETEST. -/
theorem converterGroups : Obligations.ConverterGroups := by
  unfold Obligations.ConverterGroups
  exact fun s => ⟨fun n m hup hcal => next_live hup (State.sliceCal_of_calibrating hcal),
    fun g hup hg hclocks => next_live hup (State.idleStep_stands hg hclocks),
    fun p g v hacc => ⟨next_eq (State.pathWrite_adcGrpCtrl g hacc), rfl⟩,
    fun p v hacc => next_eq (State.pathWrite_adcCtrl hacc)⟩

end Sys2Proof.Machine
end

section
/-! Chop periods, the timers of the monitor, and its BLANK input (R76, R77, R269, R271 to R288). -/

namespace Sys2Proof.Machine

variable {s : State}

/-- The sources of the 3-wire channels are exchanged (R269). -/
def State.swapped (s : State) : State := { s with mon := { s.mon with swap := !s.mon.swap } }

/-- A chop period is part of a pause (R285): BLANK is obeyed and at its active level, or not yet away from it for HOLD. -/
def State.pauses (s : State) : Bool :=
  s.flag Reg.monBlank_en && !s.flag Reg.monStat_blank_ign &&
    (s.blankActive || s.flag Reg.monStat_blanked && decide (s.sys.now < s.mon.resumeAt))

/-- What a chop period does once the monitor runs (R271 to R288): a pause, and the period that ends one, take no sample. -/
theorem State.chopPeriod_running {c : ChopIn} (hen : s.flag Reg.monCtrl_en = true) (hstart : (s.grp 64).startup = []) :
    s.chopPeriod c =
      if s.pauses || s.flag Reg.monStat_blanked then
        (s.swapped.fputB Reg.monStat_blanked s.pauses).newPeriod.convPause.boundaryWork
      else
        (((((s.swapped.monErrCheck c.err0 c.err1).windowChecks c.cm).monRate.newPeriod).convPeriod c).boundaryWork) := by
  have hrun : ¬ (s.swapped.grp 64).startup != [] := by
    show ¬ (s.grp 64).startup != []
    simp [hstart]
  unfold State.chopPeriod
  rw [if_neg (by simp [hen])]
  exact if_neg hrun

/-- No pause begins while BLANK is ignored or not at its active level (R285). -/
theorem State.pauses_of_clear (hshown : s.flag Reg.monStat_blanked = false)
    (hblank : s.flag Reg.monBlank_en = false ∨ s.flag Reg.monStat_blank_ign = true ∨ s.blankActive = false) :
    s.pauses = false := by
  unfold State.pauses
  rcases hblank with hen | hign | hactive
  · simp [hen]
  · simp [hign]
  · simp [hactive, hshown]

theorem State.pauses_of_active (hen : s.flag Reg.monBlank_en = true) (hign : s.flag Reg.monStat_blank_ign = false)
    (hactive : s.blankActive = true) : s.pauses = true := by
  simp [State.pauses, hen, hign, hactive]

/-- A pause is over once BLANK has been away from its active level for HOLD (R285). -/
theorem State.pauses_of_resumed (hactive : s.blankActive = false) (hresume : s.mon.resumeAt ≤ s.sys.now) : s.pauses = false := by
  simp [State.pauses, hactive, Nat.not_lt.2 hresume]

theorem State.dieTimer_enabled (hen : s.flag Reg.monCtrl_en = true) :
    s.dieTimer = { s with mon := { s.mon with dieDue := true } } := if_pos hen

theorem State.monCalTimer_idle (hen : s.flag Reg.monCtrl_en = true) (hper : s.fget Reg.monCtrl_cal_per ≠ 0)
    (hbusy : s.flag Reg.monStat_cal_busy = false) : s.monCalTimer = { s with mon := { s.mon with calReq := true } } := by
  unfold State.monCalTimer
  exact if_pos (by simp [hen, hper, hbusy])

theorem State.monAged_valid {n : Nat} (hage : s.fget Reg.monCtrl_age ≠ 0) (hvalid : s.flag (Reg.monChRes_valid n) = true) :
    s.monAged n = (s.setChan n { s.chan n with aged := true }).showStale n := if_pos ⟨hage, hvalid⟩

/-- Outside a pass a trigger of the triggered sequence waits for the next boundary (R282, R283). -/
theorem State.monTrigger_waits (hmode : bitAt s.seqCtl 30 = true) (hpass : s.mon.inPass = false) :
    s.monTrigger = { s with mon := { s.mon with trig := true } } := by
  simp [State.monTrigger, hmode, hpass]

/-- An obeyed level that stays too long is ignored and reported (R285). -/
theorem State.blankLong_stuck (hactive : s.blankActive = true) (hen : s.flag Reg.monBlank_en = true)
    (hmax : s.fget Reg.monBlank_max ≠ 0) (hign : s.flag Reg.monStat_blank_ign = false) :
    s.blankLong = (s.fput Reg.monStat_blank_ign 1).raise 0xE00B .warn 17 0 := by
  unfold State.blankLong
  exact if_pos (by simp [hactive, hen, hmax, hign])

/-- Settles O46: a chop period by whether it pauses and whether BLANKED shows, a timer by what it waits for. -/
theorem monitorPeriodsAndTimers : Obligations.MonitorPeriodsAndTimers := by
  unfold Obligations.MonitorPeriodsAndTimers
  refine ⟨fun s hup => ⟨fun c hen hstart => ?_, fun hen => ⟨next_live hup (State.dieTimer_enabled hen), fun hper hbusy =>
        next_live hup (State.monCalTimer_idle hen hper hbusy)⟩,
      fun n hage hvalid => next_live hup (State.monAged_valid hage hvalid), fun htsrc => next_live hup (if_pos htsrc),
      fun htsrc => next_live hup (if_neg htsrc), State.monTrigger_waits⟩,
    fun s hup => ⟨next_live hup rfl, next_live hup rfl, fun hactive hen hmax hign =>
      next_live hup (State.blankLong_stuck hactive hen hmax hign)⟩⟩
  have hrun := State.chopPeriod_running (c := c) hen hstart
  refine ⟨fun hshown hblank => next_live hup ?_, fun hobeys hign hactive => next_live hup ?_,
    fun hshown hactive hresume => next_live hup ?_⟩
  · rw [hrun, State.pauses_of_clear hshown hblank, hshown]
    rfl
  · rw [hrun, State.pauses_of_active hobeys hign hactive]
    rfl
  · rw [hrun, State.pauses_of_resumed hactive hresume, hshown]
    rfl

end Sys2Proof.Machine
end

section
/-! What a free lamp bus starts next, by priority (R107, R109, R112 to R114). -/

namespace Sys2Proof.Machine

variable {s : State} {b z : Nat}

/-- The lowest-numbered zone that a bus serves and that satisfies `p` (R107, R114). -/
def State.firstServed (s : State) (b : Nat) (p : Nat → Bool) : Option Nat :=
  (List.range 64).find? (fun z => s.serves b z && p z)

theorem State.firstServed_eq_some {p : Nat → Bool} (hz : z < 64) (hserves : s.serves b z = true) (hp : p z = true)
    (hfirst : ∀ y < z, ¬ (s.serves b y = true ∧ p y = true)) : s.firstServed b p = some z := by
  unfold State.firstServed
  rw [List.find?_range_eq_some]
  refine ⟨by simp [hserves, hp], List.mem_range.2 hz, fun y hy => ?_⟩
  simpa [imp_iff_not_or] using hfirst y hy

theorem State.firstServed_eq_none {p : Nat → Bool} (h : ∀ y < 64, p y = false) : s.firstServed b p = none := by
  unfold State.firstServed
  rw [List.find?_eq_none]
  intro y hy
  simp [h y (List.mem_range.1 hy)]

theorem roundRobin_eq_none {pos : Nat} {p : Nat → Bool} (h : ∀ y < 64, p y = false) : roundRobin pos p = none := by
  unfold roundRobin
  rw [List.find?_eq_none]
  intro y hy
  obtain ⟨i, -, rfl⟩ := List.mem_map.1 hy
  simp [h _ (Nat.mod_lt _ (by decide))]

/-- The zone whose CONFIG a bus that is UP may send next (R112, R114). -/
def State.configNext (s : State) (b : Nat) : Option Nat :=
  if s.lbMay .config then s.firstServed b (fun z => (s.zone z).configDue) else none

/-- The zone whose values a bus that is UP may send next (R114, R151). -/
def State.valueNext (s : State) (b : Nat) : Option Nat :=
  if s.valuesMay then roundRobin (s.lbus b).rrValue (fun z => s.serves b z && s.zoneState z == 1 && (s.zone z).need) else none

/-- The zone that a bus that is UP may ask for its reports next (R114). -/
def State.reportNext (s : State) (b : Nat) : Option Nat :=
  if s.reporting then roundRobin (s.lbus b).rrReport (fun z => s.serves b z && s.zoneState z == 1) else none

theorem State.configNext_eq_none (h : s.lbMay .config = false ∨ ∀ y < 64, (s.zone y).configDue = false) :
    s.configNext b = none := by
  unfold State.configNext
  rcases h with hmay | hdue
  · simp [hmay]
  · simp [State.firstServed_eq_none hdue]

theorem State.valueNext_eq_none (h : s.valuesMay = false ∨ ∀ y < 64, (s.zone y).need = false) : s.valueNext b = none := by
  unfold State.valueNext
  rcases h with hmay | hneed
  · simp [hmay]
  · have hnone : ∀ y < 64, (s.serves b y && s.zoneState y == 1 && (s.zone y).need) = false := fun y hy => by simp [hneed y hy]
    simp [roundRobin_eq_none hnone]

theorem State.lbRegular_down (hdown : s.busUp b = false) : s.lbRegular b = none := by
  simp [State.lbRegular, hdown]

/-- A bus that is UP sends CONFIG before values, and values before it asks for reports (R114). -/
theorem State.lbRegular_up (hup : s.busUp b = true) :
    s.lbRegular b =
      ((s.configNext b).map (fun z => (s.setZone z { s.zone z with configDue := false }).lbStart b (.plain .config z))
        <|> (s.valueNext b).map (fun z => (s.setLbus b { s.lbus b with rrValue := (z + 1) % 64 }).lbValues b z)
        <|> (s.reportNext b).map (fun z =>
          (s.setLbus b { s.lbus b with rrReport := (z + 1) % 64 }).lbStart b (.plain .report z))) := by
  unfold State.lbRegular
  exact if_neg (by simp [hup])

theorem State.lbRegular_config (hup : s.busUp b = true) (hconfig : s.configNext b = some z) :
    s.lbRegular b = some ((s.setZone z { s.zone z with configDue := false }).lbStart b (.plain .config z)) := by
  rw [State.lbRegular_up hup, hconfig]
  rfl

theorem State.lbRegular_values (hup : s.busUp b = true) (hconfig : s.configNext b = none) (hvalue : s.valueNext b = some z) :
    s.lbRegular b = some ((s.setLbus b { s.lbus b with rrValue := (z + 1) % 64 }).lbValues b z) := by
  rw [State.lbRegular_up hup, hconfig, hvalue]
  rfl

theorem State.lbRegular_report (hup : s.busUp b = true) (hconfig : s.configNext b = none) (hvalue : s.valueNext b = none)
    (hreport : s.reportNext b = some z) :
    s.lbRegular b = some ((s.setLbus b { s.lbus b with rrReport := (z + 1) % 64 }).lbStart b (.plain .report z)) := by
  rw [State.lbRegular_up hup, hconfig, hvalue, hreport]
  rfl

theorem State.lbService_ping {r : List Nat} (hdeliv : s.lmp.delivering = false) (hping : (s.lbus b).pingDue = z :: r) :
    s.lbService b = (s.setLbus b { s.lbus b with pingDue := r }).lbStart b (.plain .ping z) := by
  simp [State.lbService, hdeliv, hping]

/-- The zone whose open-lamp map a bus that is UP asks for next (R105, R114). -/
def State.diagNext (s : State) (b : Nat) : Option Nat := s.firstServed b (fun z => s.zoneState z == 1 && (s.zone z).diagDue)

/-- The zone to which a bus that is UP sends a CLEAR next (R105, R114). -/
def State.clearNext (s : State) (b : Nat) : Option Nat := s.firstServed b (fun z => (s.zone z).clearDue != 0)

/-- With no PING due a bus that is UP sends GET_DIAG (R114). -/
theorem State.lbService_diag (hup : s.busUp b = true) (hdeliv : s.lmp.delivering = false) (hping : (s.lbus b).pingDue = [])
    (hdiag : s.diagNext b = some z) :
    s.lbService b = (s.setZone z { s.zone z with diagDue := false }).lbStart b (.plain .getDiag z) := by
  unfold State.diagNext State.firstServed at hdiag
  simp only [State.lbService, hdeliv, hping, hup, hdiag, if_true, Bool.false_eq_true, if_false]

/-- CLEAR comes after every GET_DIAG (R114). -/
theorem State.lbService_clear (hup : s.busUp b = true) (hdeliv : s.lmp.delivering = false) (hping : (s.lbus b).pingDue = [])
    (hdiag : s.diagNext b = none) (hclear : s.clearNext b = some z) :
    s.lbService b =
      (s.setZone z { s.zone z with clearDue := 0 }).lbStart b (.plain (.clear (s.zone z).clearDue) z) := by
  unfold State.diagNext State.firstServed at hdiag
  unfold State.clearNext State.firstServed at hclear
  simp only [State.lbService, hdeliv, hping, hup, hdiag, hclear, if_true, Bool.false_eq_true, if_false]

section
variable (hcur : (s.lbus b).cur = none) (hon : s.fget (Reg.lmpBusStat_state b) ≠ 0)
include hcur hon

theorem State.lbNext_allOff (hdue : 0 < (s.lbus b).allOffDue) :
    s.lbNext b = (s.lbBroadcast b .allOff).setLbus b { s.lbus b with allOffDue := (s.lbus b).allOffDue - 1 } := by
  simp [State.lbNext, hcur, hon, hdue]

/-- The first repeat that waits goes out when it may; one on a DOWN bus waits while the other is UP (R113, R114). -/
theorem State.lbNext_retry {q : LbReq} {r : List LbReq} (hdue : (s.lbus b).allOffDue = 0) (hretry : (s.lbus b).retry = q :: r)
    (hbus : s.busUp b = true ∨ s.busUp (1 - b) = false) (hmay : s.lbMay q.op = true) :
    s.lbNext b = (s.setLbus b { s.lbus b with retry := r }).lbStart b q := by
  have hgoes : (s.busUp b || !s.busUp (1 - b)) = true := by simpa using hbus
  simp [State.lbNext, hcur, hon, hdue, hretry, hgoes, hmay]

theorem State.lbNext_work (hdue : (s.lbus b).allOffDue = 0) (hretry : (s.lbus b).retry = []) :
    s.lbNext b = (s.lbRegular b).getD (s.lbService b) := by
  simp [State.lbNext, hcur, hon, hdue, hretry]

theorem State.lbNext_regular {t : State} (hdue : (s.lbus b).allOffDue = 0) (hretry : (s.lbus b).retry = [])
    (hregular : s.lbRegular b = some t) : s.lbNext b = t := by
  rw [State.lbNext_work hcur hon hdue hretry, hregular]
  rfl

theorem State.lbNext_service (hdue : (s.lbus b).allOffDue = 0) (hretry : (s.lbus b).retry = [])
    (hregular : s.lbRegular b = none) : s.lbNext b = s.lbService b := by
  rw [State.lbNext_work hcur hon hdue hretry, hregular]
  rfl

end

/-- Settles O25: by the first of ALL_OFF, repeats, CONFIG, values, reports and service that has something to send. -/
theorem lampBusTransactions : Obligations.LampBusTransactions := by
  unfold Obligations.LampBusTransactions
  intro s b hup hcur hon
  refine ⟨fun hdue => next_live hup (State.lbNext_allOff hcur hon hdue),
    fun q r hdue hretry hbus hmay => next_live hup (State.lbNext_retry hcur hon hdue hretry hbus hmay),
    fun hdue hretry hbus => ?_, fun hdue hretry hregular hdeliv => ?_, fun z r hdue hretry hdown hdeliv hping => ?_⟩
  · have hnext {t : State} (h : s.lbRegular b = some t) : exec (.lampBusTransaction b) s = .next t :=
      next_live hup (State.lbNext_regular hcur hon hdue hretry h)
    refine ⟨fun z hz hmay hserves hconfig hfirst => hnext (State.lbRegular_config hbus ?_),
      fun z hconfig hmay hround => ?_, fun z hconfig hvalue hreporting hround => ?_⟩
    · exact (if_pos hmay).trans (State.firstServed_eq_some hz hserves hconfig hfirst)
    · exact hnext (State.lbRegular_values hbus (State.configNext_eq_none hconfig) ((if_pos hmay).trans hround))
    · exact hnext (State.lbRegular_report hbus (State.configNext_eq_none hconfig) (State.valueNext_eq_none hvalue)
        ((if_pos hreporting).trans hround))
  · have hnext {t : State} (h : s.lbService b = t) : exec (.lampBusTransaction b) s = .next t :=
      next_live hup ((State.lbNext_service hcur hon hdue hretry hregular).trans h)
    refine ⟨fun z r hping => hnext (State.lbService_ping hdeliv hping), fun hbus hping z hz hserves =>
      ⟨fun hanswers hdiag hfirst => hnext ?_, fun hclear hfirst hnodiag => hnext ?_⟩⟩
    · have hzone : s.diagNext b = some z :=
        State.firstServed_eq_some hz hserves (by simp [hanswers, hdiag]) (by simpa using hfirst)
      exact State.lbService_diag hbus hdeliv hping hzone
    · have hnone : s.diagNext b = none := State.firstServed_eq_none fun y hy => by simp [hnodiag y hy]
      have hzone : s.clearNext b = some z :=
        State.firstServed_eq_some hz hserves (by simpa using hclear) (by simpa using hfirst)
      exact State.lbService_clear hbus hdeliv hping hnone hzone
  · exact next_live hup ((State.lbNext_service hcur hon hdue hretry (State.lbRegular_down hdown)).trans
      (State.lbService_ping hdeliv hping))

end Sys2Proof.Machine
end

section
/-! Replies on a lamp bus (R99, R100, R105, R110, R111, R113). -/

namespace Sys2Proof.Machine

variable {s : State} {b : Nat} {q : LbReq} {fr : List Byte}

/-- A frame is as long as its length byte says, its CRC holds, and it answers the request (R108, R110). -/
def LbReq.answered (q : LbReq) (fr : List Byte) : Bool :=
  decide (fr.length = 5 + leAt fr 2 1) && leAt fr (3 + leAt fr 2 1) 2 == crc16 (fr.take (3 + leAt fr 2 1)) &&
    leAt fr 0 1 == 0x80 + q.zone.getD 0 && leAt fr 1 1 == q.op.code

theorem LbReq.answered_of_badCrc (h : leAt fr (3 + leAt fr 2 1) 2 ≠ crc16 (fr.take (3 + leAt fr 2 1))) :
    q.answered fr = false := by
  simp [LbReq.answered, h]

theorem LbReq.answered_of_fields (hlen : fr.length = 5 + leAt fr 2 1)
    (hcrc : leAt fr (3 + leAt fr 2 1) 2 = crc16 (fr.take (3 + leAt fr 2 1))) (haddr : leAt fr 0 1 = 0x80 + q.zone.getD 0)
    (hcode : leAt fr 1 1 = q.op.code) : q.answered fr = true := by
  simp [LbReq.answered, hlen, hcrc, haddr, hcode]

/-- What a good reply brings by the operation that it answers (R99, R100, R105). -/
def State.lbTake (s : State) (q : LbReq) (fr : List Byte) : State :=
  match q.op with
  | .value => (s.lbDelivered (q.zone.getD 0) q.vals).lbReports (q.zone.getD 0) fr
  | .report => s.lbReports (q.zone.getD 0) fr
  | .getDiag => s.lampMap (q.zone.getD 0) (leAt fr 5 8)
  | _ => s

/-- What a reply frame does to the transaction in progress (R110, R111, R113). -/
theorem State.lbReply_eq (hcur : (s.lbus b).cur = some q) :
    s.lbReply b fr =
      if !q.answered fr then ((s.bump (Reg.lmpBusErr_badcrc b) 1).lbFail b q).deliveryCheck
      else if bitAt (leAt fr 3 2) 12 || bitAt (leAt fr 3 2) 11 then (s.lbFail b q).deliveryCheck
      else (((s.lbSuccess b (q.zone.getD 0)).lbTake q fr).lbStatus (q.zone.getD 0) (leAt fr 3 2)).deliveryCheck := by
  simp only [State.lbReply, hcur]
  rfl

theorem State.lbReply_unanswered (hcur : (s.lbus b).cur = some q) (h : q.answered fr = false) :
    s.lbReply b fr = ((s.bump (Reg.lmpBusErr_badcrc b) 1).lbFail b q).deliveryCheck := by
  rw [State.lbReply_eq hcur, if_pos (by simp [h])]

theorem State.lbReply_error (hcur : (s.lbus b).cur = some q) (h : q.answered fr = true)
    (herr : bitAt (leAt fr 3 2) 12 = true ∨ bitAt (leAt fr 3 2) 11 = true) :
    s.lbReply b fr = (s.lbFail b q).deliveryCheck := by
  rw [State.lbReply_eq hcur, if_neg (by simp [h]), if_pos (by simpa using herr)]

theorem State.lbReply_good (hcur : (s.lbus b).cur = some q) (h : q.answered fr = true)
    (hlen : bitAt (leAt fr 3 2) 12 = false) (hop : bitAt (leAt fr 3 2) 11 = false) :
    s.lbReply b fr =
      (((s.lbSuccess b (q.zone.getD 0)).lbTake q fr).lbStatus (q.zone.getD 0) (leAt fr 3 2)).deliveryCheck := by
  rw [State.lbReply_eq hcur, if_neg (by simp [h]), if_neg (by simp [hlen, hop])]

/-- The replies to PING, CONFIG and CLEAR bring their STATUS alone (R109). -/
theorem State.lbTake_statusOnly (h : q.op = .ping ∨ q.op = .config ∨ ∃ m, q.op = .clear m) : s.lbTake q fr = s := by
  unfold State.lbTake
  rcases h with h | h | ⟨m, h⟩ <;> rw [h]

/-- The reply to a value XCHG brings its delivery and then the tint reports (R99, R100). -/
theorem State.lbTake_value (h : q.op = .value) :
    s.lbTake q fr = (s.lbDelivered (q.zone.getD 0) q.vals).lbReports (q.zone.getD 0) fr := by
  simp only [State.lbTake, h]

theorem State.lbTake_report (h : q.op = .report) : s.lbTake q fr = s.lbReports (q.zone.getD 0) fr := by
  simp only [State.lbTake, h]

theorem State.lbTake_getDiag (h : q.op = .getDiag) : s.lbTake q fr = s.lampMap (q.zone.getD 0) (leAt fr 5 8) := by
  simp only [State.lbTake, h]

/-- Settles O26: by whether the frame answers the request, by its error bits, and by the operation it answers. -/
theorem lampReplies : Obligations.LampReplies := by
  unfold Obligations.LampReplies
  intro s b q hup hcur
  refine ⟨next_live hup (by simp only [State.lbNoReply, hcur]),
    fun fr hbad => next_live hup (State.lbReply_unanswered hcur (LbReq.answered_of_badCrc hbad)),
    fun fr hlen hcrc haddr hcode => ?_⟩
  have hans : q.answered fr = true := LbReq.answered_of_fields hlen hcrc haddr hcode
  refine ⟨fun herr => next_live hup (State.lbReply_error hcur hans herr), fun hlenErr hopErr => ?_⟩
  have htakes {t : State} (h : (s.lbSuccess b (q.zone.getD 0)).lbTake q fr = t) :
      exec (.lampReply b fr) s = .next (t.lbStatus (q.zone.getD 0) (leAt fr 3 2)).deliveryCheck :=
    next_live hup ((State.lbReply_good hcur hans hlenErr hopErr).trans (by rw [h]))
  exact ⟨fun hop => htakes (State.lbTake_statusOnly hop), fun hop => htakes (State.lbTake_value hop),
    fun hop => htakes (State.lbTake_report hop), fun hop => htakes (State.lbTake_getDiag hop)⟩

end Sys2Proof.Machine
end

section
/-! Pings, the broadcast slot, and the writes of the lamp control registers (R99, R100, R105, R113, R114, R116). -/

namespace Sys2Proof.Machine

variable {s : State} {p : Path}

theorem State.zonePing_noReply {z : Nat} (h : s.zoneState z = 2) :
    s.zonePing z = s.each ((List.range 2).filter s.busUp) (fun b s => s.pingOn z b) := if_pos h

/-- The lowest-numbered answering zone. -/
theorem State.find_answering {z : Nat} (hz : z < 64) (hen : s.zoneEn z = true) (hanswers : s.zoneState z = 1)
    (hfirst : ∀ y < z, ¬ (s.zoneEn y = true ∧ s.zoneState y = 1)) :
    s.enabledZones.find? (fun z => s.zoneState z == 1) = some z := by
  unfold State.enabledZones
  rw [List.find?_filter, List.find?_range_eq_some]
  refine ⟨by simp [hen, hanswers], List.mem_range.2 hz, fun y hy => ?_⟩
  simpa [imp_iff_not_or] using hfirst y hy

theorem State.busPing_down {b z : Nat} (hdown : s.fget (Reg.lmpBusStat_state b) = 2)
    (hfirst : s.enabledZones.find? (fun z => s.zoneState z == 1) = some z) : s.busPing b = s.pingOn z b := by
  unfold State.busPing
  rw [if_pos hdown, hfirst]

/-- The broadcast slot of a line sends a COMMIT that is due, unless it would change nothing (R99). -/
theorem State.commitSlot_due {n : Nat} (hcur : s.seq.cur = some n) (hline : isOverlap n = false)
    (hlast : s.seq.started = s.colourPhases) (hrise : s.lmp.rise = none) (hdue : s.lmp.commitDue = true)
    (hdeliv : s.lmp.delivering = false) (hfree : ∀ b < 2, s.busUp b = true → (s.lbus b).cur = none) :
    s.commitSlot = if s.commitChanges then s.lampCommit else { s with lmp := { s.lmp with commitDue := false } } := by
  have hidle : (List.range 2).any (fun b => s.busUp b && (s.lbus b).cur.isSome) = false := by
    rw [List.any_eq_false]
    intro b hb
    simpa using hfree b (List.mem_range.1 hb)
  unfold State.commitSlot
  rw [hcur]
  exact if_pos (by simp [hline, hlast, hrise, hdue, hdeliv, hidle])

theorem State.effect_lmpCtrl {before : State} {v : Nat} :
    s.effect before p Reg.lmpCtrl v =
      if fld v Reg.lmpCtrl_all_off = 1 then (s.each (List.range 2) (fun b u => u.busEnable b)).hostAllOff
      else s.each (List.range 2) (fun b u => u.busEnable b) := rfl

/-- ALL_OFF goes out on the buses that the same write enables (R114, R116). -/
theorem State.pathWrite_lmpCtrl_allOff {v : Word} (h : s.accepts p Reg.lmpCtrl v) (hoff : fld v.toNat Reg.lmpCtrl_all_off = 1) :
    s.pathWrite p Reg.lmpCtrl v = ((s.stored Reg.lmpCtrl v).each (List.range 2) (fun b u => u.busEnable b)).hostAllOff := by
  rw [State.pathWrite_unclaimed (by decide) (by decide) h, State.effect_lmpCtrl, if_pos hoff]

/-- Every tint factor becomes 1 (R100). -/
def State.resetTints (s : State) : State :=
  (s.each (List.range 256) (fun i u => u.fput (Reg.lmpZoneStrStat_f (i / 4) (i % 4)) 16384)).tintInside true

theorem State.effect_lmpTint {before : State} {v : Nat} :
    s.effect before p Reg.lmpTint v = if fld v Reg.lmpTint_resetf = 1 then s.resetTints else s := rfl

theorem State.pathWrite_lmpTint_resetf {v : Word} (h : s.accepts p Reg.lmpTint v)
    (hreset : fld v.toNat Reg.lmpTint_resetf = 1) : s.pathWrite p Reg.lmpTint v = (s.stored Reg.lmpTint v).resetTints := by
  rw [State.pathWrite_unclaimed (by decide) (by decide) h, State.effect_lmpTint, if_pos hreset]

/-- PING asks a zone for a GET_DIAG and puts a ping on the zone's home bus, or on the other where that is not UP (R113). -/
def State.askPing (s : State) (z : Nat) : State :=
  let u := s.setZone z { s.zone z with diagDue := true }
  let b := if u.busUp (z % 2) then z % 2 else 1 - z % 2
  u.setLbus b { u.lbus b with pingDue := (u.lbus b).pingDue ++ [z] }

/-- CLEAR asks a zone for a CLEAR of the strings of a mask (R105). -/
def State.askClear (s : State) (z m : Nat) : State := s.setZone z { s.zone z with clearDue := (s.zone z).clearDue ||| m }

theorem lmpZoneCtrl_injective : Function.Injective Reg.lmpZoneCtrl := fun y z h => by
  unfold Reg.lmpZoneCtrl at h
  omega

theorem lmpZoneCtrl_plain : ∀ z : Fin 64,
    plainReg (Reg.lmpZoneCtrl z) = true ∧ claimRegs.contains (Reg.lmpZoneCtrl z) = false := by
  decide

/-- The control register of a zone lies in the lamp block and is none of the block's other registers with an effect. -/
theorem lmpZoneCtrl_block {z : Nat} (hz : z < 64) :
    Reg.lmpZoneCtrl z / 0x10000 = 0x0F ∧ Reg.lmpZoneCtrl z ≠ Reg.lmpCtrl ∧ Reg.lmpZoneCtrl z ≠ Reg.lmpTint ∧
      Reg.lmpZoneCtrl z ≠ Reg.lmpTintLim ∧ famIx Reg.lmpZoneCfg 64 (Reg.lmpZoneCtrl z) = none := by
  refine ⟨?_, ?_, ?_, ?_, List.find?_eq_none.2 fun y hy => ?_⟩
  · unfold Reg.lmpZoneCtrl; omega
  · unfold Reg.lmpZoneCtrl Reg.lmpCtrl; omega
  · unfold Reg.lmpZoneCtrl Reg.lmpTint; omega
  · unfold Reg.lmpZoneCtrl Reg.lmpTintLim; omega
  · have hne : Reg.lmpZoneCfg y ≠ Reg.lmpZoneCtrl z := by unfold Reg.lmpZoneCfg Reg.lmpZoneCtrl; omega
    simp [hne]

/-- An enabled zone takes PING, then CLEAR (R105, R113, R116). -/
theorem State.effect_lmpZoneCtrl {before : State} {z v : Nat} (hz : z < 64) (hen : s.zoneEn z = true) :
    s.effect before p (Reg.lmpZoneCtrl z) v =
      State.askClear (if fld v (Reg.lmpZoneCtrl_ping z) = 1 then s.askPing z else s) z (fld v (Reg.lmpZoneCtrl_clear z)) := by
  obtain ⟨hblock, hctrl, htint, hlim, hcfg⟩ := lmpZoneCtrl_block hz
  simp only [State.effect, hblock, State.effectLamp, if_neg hctrl, if_neg htint, if_neg hlim, hcfg,
    famIx_apply lmpZoneCtrl_injective hz, hen, Bool.not_true, Bool.false_eq_true, if_false]
  rfl

theorem State.pathWrite_lmpZoneCtrl {v : Word} (z : Fin 64) (h : s.accepts p (Reg.lmpZoneCtrl z) v)
    (hen : (s.stored (Reg.lmpZoneCtrl z) v).zoneEn z = true) :
    s.pathWrite p (Reg.lmpZoneCtrl z) v =
      State.askClear (if fld v.toNat (Reg.lmpZoneCtrl_ping z) = 1 then (s.stored (Reg.lmpZoneCtrl z) v).askPing z
        else s.stored (Reg.lmpZoneCtrl z) v) z (fld v.toNat (Reg.lmpZoneCtrl_clear z)) := by
  obtain ⟨hplain, hclaim⟩ := lmpZoneCtrl_plain z
  rw [State.pathWrite_unclaimed hplain hclaim h, State.effect_lmpZoneCtrl z.isLt hen]

/-- Settles O27: by what each timer and the slot wait for, and by the register and the field that a write names. -/
theorem lampTimersAndSlot : Obligations.LampTimersAndSlot := by
  unfold Obligations.LampTimersAndSlot
  refine ⟨fun s hup => ⟨fun z hstate => next_live hup (State.zonePing_noReply hstate),
      fun b z hdown hz hen hanswers hfirst =>
        next_live hup (State.busPing_down hdown (State.find_answering hz hen hanswers hfirst)),
      fun n hcur hline hlast hrise hdue hdeliv hfree =>
        next_live hup (State.commitSlot_due hcur hline hlast hrise hdue hdeliv hfree)⟩,
    fun s p v => ⟨fun hacc hoff => next_eq (State.pathWrite_lmpCtrl_allOff hacc hoff),
      fun hacc hreset => next_eq (State.pathWrite_lmpTint_resetf hacc hreset), fun z hacc hen => ?_⟩⟩
  have hwrite := State.pathWrite_lmpZoneCtrl z hacc hen
  refine ⟨fun hping => next_eq (hwrite.trans ?_), fun hnone => next_eq (hwrite.trans ?_)⟩
  · rw [if_pos hping]
    rfl
  · rw [if_neg (by omega)]
    rfl

end Sys2Proof.Machine
end

section
/-! The work that the engines of the pools take and finish (R133, R135, R140, R142, R185, R199, R201, R203, R249). -/

namespace Sys2Proof.Machine

variable {s : State} {k : EngKind} {e : Nat}

/-! What engines take. -/

theorem State.stealFrom_home (h : s.queue (e % 16) ≠ []) : s.stealFrom e = some (e % 16) := if_pos h

/-- The engine that chooses next takes the head of the queue it is to take from, and a queue other than its home counts a
steal (R135). -/
theorem State.pixelTake_head {q : Nat} {b : Blk} {rest : List Blk} (hnext : s.engNext .pixel = some e)
    (hfrom : s.stealFrom e = some q) (hqueue : s.queue q = b :: rest) :
    s.pixelTake e =
      if q = e % 16 then ((s.setQueue q rest).setHoldP e (some b)).fput (engBusyF .pixel e) 1
      else (((s.setQueue q rest).setHoldP e (some b)).fput (engBusyF .pixel e) 1).bump Reg.pxeCntSteal_val 1 := by
  simp only [State.pixelTake, hnext, ne_eq, not_true_eq_false, if_false, hfrom, hqueue]

theorem State.nozzleTake_chunk {c : Chunk} (hnext : s.engNext .nozzle = some e) (hchunk : s.chunkNext = some c) :
    s.nozzleTake e =
      (({ s with nzl := { s.nzl with queue := s.nzl.queue.filter (· != c) } } : State).setHoldN e (some c)).fput
        (engBusyF .nozzle e) 1 := by
  simp only [State.nozzleTake, hnext, ne_eq, not_true_eq_false, if_false, hchunk]

theorem State.corrTake_head {i : CorrItem} {rest : List CorrItem} (hnext : s.engNext .correlator = some e)
    (hqueue : s.trk.queue = i :: rest) :
    s.corrTake e =
      (({ s with trk := { s.trk with queue := rest } } : State).setHoldC e
        (some { item := i, ref := (s.corrCopy i.kind).1, cur := (s.corrCopy i.kind).2 })).fput (engBusyF .correlator e) 1 := by
  simp only [State.corrTake, hnext, ne_eq, not_true_eq_false, if_false, hqueue]

/-! What engines finish. -/

theorem State.engDone_stays (h : s.engLeave k e = none) :
    s.engDone k e = (s.fput (engBusyF k e) 0).bump (engCntF k e) 1 := by
  have hleave : ((s.fput (engBusyF k e) 0).bump (engCntF k e) 1).engLeave k e = none := h
  simp only [State.engDone, hleave]

theorem State.engDone_leaves {r : Nat} (h : s.engLeave k e = some r) :
    s.engDone k e = ((s.fput (engBusyF k e) 0).bump (engCntF k e) 1).engOut k e r := by
  have hleave : ((s.fput (engBusyF k e) 0).bump (engCntF k e) 1).engLeave k e = some r := h
  simp only [State.engDone, hleave]

theorem State.pixelDone_block {b : Blk} (h : tget (fun _ => none) s.pxe.hold e = some b) :
    s.pixelDone e = ((s.setHoldP e none).blockDone b).engDone .pixel e := by
  simp only [State.pixelDone, h]

theorem State.nozzleDone_chunk {c : Chunk} (h : tget (fun _ => none) s.nzl.hold e = some c) :
    s.nozzleDone e = ((s.setHoldN e none).chunkApply c).engDone .nozzle e := by
  simp only [State.nozzleDone, h]

/-- The result of a correlator engine's item is applied by its kind (R201, R203, R249). -/
def State.corrApply (s : State) (h : CorrHold) : State :=
  match h.item.kind with
  | .chain w r c => (s.chainDone w r c h).trackLat c.com
  | .tick w c => (s.tickDone w c h).trackLat c.com
  | .couch n => s.couchDone n h

theorem State.corrDone_item {h : CorrHold} (hhold : tget (fun _ => none) s.trk.hold e = some h) :
    s.corrDone e = ((s.setHoldC e none).corrApply h).engDone .correlator e := by
  simp only [State.corrDone, hhold]
  rfl

theorem State.corrApply_chain {h : CorrHold} {w : Nat} {r c : Patch} (hkind : h.item.kind = .chain w r c) :
    s.corrApply h = (s.chainDone w r c h).trackLat c.com := by
  simp only [State.corrApply, hkind]

theorem State.corrApply_tick {h : CorrHold} {w : Nat} {c : Patch} (hkind : h.item.kind = .tick w c) :
    s.corrApply h = (s.tickDone w c h).trackLat c.com := by
  simp only [State.corrApply, hkind]

theorem State.corrApply_couch {h : CorrHold} {n : Nat} (hkind : h.item.kind = .couch n) : s.corrApply h = s.couchDone n h := by
  simp only [State.corrApply, hkind]

/-- Settles O28: by the queue an engine takes from, and by the work it holds and whether it is to leave. -/
theorem enginesTakeWork : Obligations.EnginesTakeWork := by
  unfold Obligations.EnginesTakeWork
  refine ⟨fun s hup => ⟨fun e blk rest hnext hhome => ?_, fun e q blk rest hnext hhome hfrom hqueue => ?_,
      fun e c hnext hchunk => next_live hup (State.nozzleTake_chunk hnext hchunk),
      fun e i rest hnext hqueue => next_live hup (State.corrTake_head hnext hqueue)⟩,
    fun s hup => ⟨fun k e => ⟨State.engDone_stays, fun r => State.engDone_leaves⟩,
      fun e blk hhold => next_live hup (State.pixelDone_block hhold),
      fun e c hhold => next_live hup (State.nozzleDone_chunk hhold), fun e h hhold => ?_⟩⟩
  · have hfrom : s.stealFrom e = some (e.val % 16) := State.stealFrom_home (by rw [hhome]; exact List.cons_ne_nil _ _)
    exact next_live hup ((State.pixelTake_head hnext hfrom hhome).trans (if_pos rfl))
  · have haway : q ≠ e.val % 16 := fun hq => List.cons_ne_nil blk rest (hqueue.symm.trans (hq ▸ hhome))
    exact next_live hup ((State.pixelTake_head hnext hfrom hqueue).trans (if_neg haway))
  · have hdone {t : State} (happly : (s.setHoldC e none).corrApply h = t) :
        exec (.corrItemDone e) s = .next (t.engDone .correlator e) :=
      next_live hup ((State.corrDone_item hhold).trans (by rw [happly]))
    exact ⟨fun w r c hkind => hdone (State.corrApply_chain hkind), fun w c hkind => hdone (State.corrApply_tick hkind),
      fun n hkind => hdone (State.corrApply_couch hkind)⟩

end Sys2Proof.Machine
end

section
/-! Writes of an engine's CTRL register, parity errors, and the end of a built-in test (R140, R141, R187, R200). -/

namespace Sys2Proof.Machine

variable {s : State} {p : Path} {k : EngKind} {e : Nat}

/-- A write leaves every other key of a table as it was, whether or not the table is canonical. -/
theorem tget_tput_ne {α : Type} [DecidableEq α] {d : Nat → α} {j key : Nat} (v : α) (hj : j ≠ key) (t : Table α) :
    tget d (tput d t key v) j = tget d t j := by
  induction t with
  | nil =>
    unfold tput
    split
    · rfl
    · simp [tget, hj]
  | cons a r ih =>
    unfold tput
    split
    · split
      · rfl
      · simp [tget, hj]
    · split
      next hkey =>
        have hja : j ≠ a.1 := hkey ▸ hj
        split <;> simp [tget, hj, hja]
      next => simp [tget, ih]

/-- A field keeps its value when a field of another register is put, whatever the form of the register file. -/
theorem State.fget_fput_otherReg {f g : Fld} {v : Nat} (h : g.addr ≠ f.addr) : (s.fput f v).fget g = s.fget g :=
  congrArg (fun w : Word => bitsAt w.toNat g.lo g.w) (tget_tput_ne _ h s.regs)

/-- HOLD is a field of CTRL, PASS one of STAT behind it (R140). -/
theorem State.flag_engHold_putPass {b : Bool} : (s.fputB (engPassF k e) b).flag (engHoldF k e) = s.flag (engHoldF k e) :=
  congrArg (· == 1) (State.fget_fput_otherReg (Nat.ne_of_lt (Nat.lt_add_of_pos_right (by decide))))

theorem engCtrl_plain (he : e < engCount k) : plainReg (engCtrl k e) = true ∧ claimRegs.contains (engCtrl k e) = false := by
  revert e
  cases k with
  | pixel => decide
  | nozzle => decide
  | correlator => decide

theorem engAt_engCtrl (he : e < engCount k) : engAt (engCtrl k e) = some (k, e) := by
  revert e
  cases k with
  | pixel => decide
  | nozzle => decide
  | correlator => decide

theorem pxeEngCtrl_block (he : e < 48) : Reg.pxeEngCtrl e / 0x10000 = 0x0D := by unfold Reg.pxeEngCtrl; omega

theorem nzlEngCtrl_block (he : e < 24) : Reg.nzlEngCtrl e / 0x10000 = 0x11 := by unfold Reg.nzlEngCtrl; omega

theorem trkEngCtrl_block (he : e < 16) : Reg.trkEngCtrl e / 0x10000 = 0x12 := by unfold Reg.trkEngCtrl; omega

/-- The three pools' blocks hand a write of CTRL to the same rules (R140, R187, R200). -/
theorem State.effect_engCtrl {before : State} {v : Nat} (he : e < engCount k) :
    s.effect before p (engCtrl k e) v = s.engWrite k e v := by
  have heng := engAt_engCtrl he
  cases k with
  | pixel =>
    have hblock : engCtrl .pixel e / 0x10000 = 0x0D := pxeEngCtrl_block he
    simp only [State.effect, hblock, State.effectPool, heng]
  | nozzle =>
    have hblock : engCtrl .nozzle e / 0x10000 = 0x11 := nzlEngCtrl_block he
    simp only [State.effect, hblock, heng]
  | correlator =>
    have hblock : engCtrl .correlator e / 0x10000 = 0x12 := trkEngCtrl_block he
    simp only [State.effect, hblock, heng]

theorem State.pathWrite_engCtrl {v : Word} (he : e < engCount k) (h : s.accepts p (engCtrl k e) v) :
    s.pathWrite p (engCtrl k e) v = (s.stored (engCtrl k e) v).engWrite k e v.toNat := by
  obtain ⟨hplain, hclaim⟩ := engCtrl_plain he
  rw [State.pathWrite_unclaimed hplain hclaim h, State.effect_engCtrl he]

/-- HOLD is put, and an engine that is in its pool and stays there goes for test before hold (R140). -/
theorem State.engWrite_inPool {v : Nat} (hstate : (s.fputB (engHoldF k e) (bitAt v 0)).fget (engStateF k e) = 0)
    (hleave : (s.fputB (engHoldF k e) (bitAt v 0)).engLeave k e = none) :
    s.engWrite k e v =
      (let t := s.fputB (engHoldF k e) (bitAt v 0)
       if bitAt v 31 = true then t.engGo k e 1 else if bitAt v 0 = true then t.engGo k e 2 else t) := by
  simp only [State.engWrite, hstate, hleave]

theorem State.engGo_idle {r : Nat} (h : s.engWork k e = false) : s.engGo k e r = s.engOut k e r := by
  simp only [State.engGo, h, Bool.false_eq_true, if_false]

theorem State.engGo_working {r : Nat} (h : s.engWork k e = true) : s.engGo k e r = s.setLeave k e (some r) := if_pos h

theorem State.engParity_working (h : s.engWork k e = true) :
    s.engParity k e = ((s.workBack k e).fput (engBusyF k e) 0).engOut k e 3 := if_pos h

/-! The ways a built-in test of an engine in test ends (R140). -/

theorem State.engTested_fails {n : Nat} (h : s.fget (engStateF k e) = 2) :
    s.engTested k e false n =
      ((s.fputB (engPassF k e) false).fput (engStateF k e) 3).raise 0x7003 .fault (engSrc k + e) (pf 24 4 n) := by
  simp [State.engTested, h]

theorem State.engTested_held {n : Nat} (h : s.fget (engStateF k e) = 2) (hhold : s.flag (engHoldF k e) = true) :
    s.engTested k e true n = (s.fputB (engPassF k e) true).fput (engStateF k e) 1 := by
  simp [State.engTested, h, State.flag_engHold_putPass, hhold]

theorem State.engTested_returns {n : Nat} (h : s.fget (engStateF k e) = 2) (hhold : s.flag (engHoldF k e) = false) :
    s.engTested k e true n = (s.fputB (engPassF k e) true).engBack k e 1 := by
  simp [State.engTested, h, State.flag_engHold_putPass, hhold]

/-- Settles O29: by TEST before HOLD, by the work the engine holds, and by the result of the test. -/
theorem engineTestAndHold : Obligations.EngineTestAndHold := by
  unfold Obligations.EngineTestAndHold
  refine fun s k e he => ⟨fun p v hacc => ?_, fun hup => ⟨fun hwork => ?_, fun n hstate => ?_⟩⟩
  · intro t hstate hleave
    have hwrite : (if e.val < engCount k then s.pathWrite p (engCtrl k e) v else s) =
        if bitAt v.toNat 31 = true then t.engGo k e 1 else if bitAt v.toNat 0 = true then t.engGo k e 2 else t :=
      (if_pos he).trans ((State.pathWrite_engCtrl he hacc).trans (State.engWrite_inPool hstate hleave))
    have htest (h31 : bitAt v.toNat 31 = true) := hwrite.trans (if_pos h31)
    have hhold (h31 : bitAt v.toNat 31 = false) (h0 : bitAt v.toNat 0 = true) :=
      hwrite.trans ((if_neg (ne_true_of_eq_false h31)).trans (if_pos h0))
    exact ⟨fun h31 hidle => next_eq ((htest h31).trans (State.engGo_idle hidle)),
      fun h31 hwork => next_eq ((htest h31).trans (State.engGo_working hwork)),
      fun h31 h0 hidle => next_eq ((hhold h31 h0).trans (State.engGo_idle hidle)),
      fun h31 h0 hwork => next_eq ((hhold h31 h0).trans (State.engGo_working hwork))⟩
  · exact next_live hup ((if_pos he).trans (State.engParity_working hwork))
  · have hended {pass : Bool} {t : State} (htested : s.engTested k e pass n = t) :
        exec (.engineTestDone k e pass n) s = .next t := next_live hup ((if_pos he).trans htested)
    exact ⟨hended (State.engTested_fails hstate), fun hhold => hended (State.engTested_held hstate hhold),
      fun hfree => hended (State.engTested_returns hstate hfree)⟩

end Sys2Proof.Machine
end

section
/-! The commit of a line, and its read by the analysis island (R163, R168, R190, R297, R299). -/

namespace Sys2Proof.Machine

variable {s : State}

/-- A line of another regime than PACED has no overlap for the couch to take (R299). -/
theorem State.commitNext_unpaced {n : Nat} {r : Resv} (hnext : s.nextCommit = some (n, r)) (hpaced : r.cfg.paced = false) :
    s.commitNext = (s.commitLine n r).driftCommit r := by
  simp [State.commitNext, hnext, hpaced]

theorem State.commitNext_paced {n : Nat} {r : Resv} (hnext : s.nextCommit = some (n, r)) (hpaced : r.cfg.paced = true) :
    s.commitNext = ((s.commitLine n r).driftCommit r).putStrips false
      { n := n, cfg := r.cfg, runs := r.runs, com := ((s.commitLine n r).driftCommit r).sys.now } := by
  simp [State.commitNext, hnext, hpaced]

/-- Parity failures leave the lines that the analysis island has yet to read (R291). -/
@[simp] theorem State.flip_analysis {l : List (BitVec 23)} : (s.flip l).lff.analysis = s.lff.analysis := rfl

/-- With no committed line left to read, the analysis island does nothing. -/
theorem State.analysisRead_nil (h : s.lff.analysis = []) : s.analysisRead = s := by
  simp only [State.analysisRead, h]

/-- A committed line as the analysis island reads it: the pixels of its poisoned words are missing (R297). -/
def State.imageRead (s : State) (x : Nat) (i : LineImg) : LineImg :=
  { i with bad := s.badItems x (4 + i.cfg.c * i.cfg.plane / 16) }

/-- The line that the analysis island is to read next (R190): with none left behind line `i`, what follows it up to the last
committed one was dropped. -/
def State.readUpTo (s : State) (i : LineImg) (rest : List (Nat × LineImg)) : Nat :=
  let bin := bitAt i.cfg.fmt 1
  if rest = [] then max (nextLine bin i.n) (nextLine bin (s.wget Reg.lffLastCommit0)) else nextLine bin i.n

/-- The readers of a line take it: the tracking windows, the patches and chunks that it completes, the streak monitor (R168). -/
def State.givenToReaders (s : State) (j : LineImg) (rest : List (Nat × LineImg)) (upto : Nat) : State :=
  let bin := bitAt j.cfg.fmt 1
  let u : State := { s with
    lff := { s.lff with analysis := rest }
    nzl := { s.nzl with hist := j :: s.nzl.hist, readTo := upto } }
  let u := u.trackLine j
  let u := (u.each u.busyWins (fun w u => u.patchesDone w (outLine bin upto))).chunksReady
  (u.streakLine j (outLine bin s.nzl.readTo) (outLine bin upto)).histTrim.advanceFree

theorem State.analysisRead_cons {x : Nat} {i : LineImg} {rest : List (Nat × LineImg)} (h : s.lff.analysis = (x, i) :: rest) :
    s.analysisRead =
      (let t := s.bump Reg.lffCntPoison_val (s.imageRead x i).bad.length
       t.givenToReaders (s.imageRead x i) rest (t.readUpTo i rest)) := by
  simp only [State.analysisRead, h]
  rfl

/-- Settles O30: by the regime of the line that commits, and by whether a committed line is left to read. -/
theorem lineCommitAndAnalysis : Obligations.LineCommitAndAnalysis := by
  unfold Obligations.LineCommitAndAnalysis
  exact fun s hup => ⟨fun n r hnext => ⟨fun hpaced => next_live hup (State.commitNext_unpaced hnext hpaced),
      fun hpaced => next_live hup (State.commitNext_paced hnext hpaced)⟩,
    fun flips x i rest hline => next_live hup (State.analysisRead_cons (State.flip_analysis.trans hline)),
    fun flips hnone => next_live hup (State.analysisRead_nil (State.flip_analysis.trans hnone))⟩

end Sys2Proof.Machine
end

section
/-! Selections, checks and memory tests of the shading banks (R145, R146, R161, R162, R431). -/

namespace Sys2Proof.Machine

variable {s : State} {p : Path} {b : Nat}

/-- Every pending selection is withdrawn (R146). -/
def State.unselected (s : State) : State := { s with pend := s.pend.filter (fun q => q.addr != Reg.shdBank) }

theorem State.unselected_no_shadow (s : State) : ∀ q ∈ s.unselected.pend, q.addr ≠ Reg.shdBank := fun q hq => by
  simpa using (List.mem_filter.1 hq).2

/-- A selection of the bank in force withdraws a pending one (R146). -/
theorem State.selectBank_inForce (h : b = s.fget Reg.shdBank_sel) : s.selectBank b = s.unselected := if_pos h

/-- A selection of another bank is the one shadow of SHD_BANK (R146). -/
theorem State.selectBank_other (h : b ≠ s.fget Reg.shdBank_sel) :
    s.selectBank b = { s.unselected with
      pend := s.unselected.pend ++
        [{ cls := .lb, axis := 0, addr := Reg.shdBank, mask := 1, val := b &&& 1, stuck := false }] } := by
  have hnone : s.unselected.pend.any (fun q => q.at .lb Reg.shdBank) = false := by
    simpa [Shadow.at] using fun q hq haddr => absurd haddr (s.unselected_no_shadow q hq)
  have hshadow : s.selectBank b = s.unselected.shadow .lb 0 Reg.shdBank 1 b := if_neg h
  rw [hshadow, State.shadow, hnone]
  rfl

/-- A selection takes force at a boundary only: the registers and the calibration stay as they were (R146). -/
theorem State.selectBank_regs_shd : (s.selectBank b).regs = s.regs ∧ (s.selectBank b).shd = s.shd := by
  by_cases h : b = s.fget Reg.shdBank_sel
  · rw [State.selectBank_inForce h]; exact ⟨rfl, rfl⟩
  · rw [State.selectBank_other h]; exact ⟨rfl, rfl⟩

theorem State.find_unselected (s : State) : s.unselected.pend.find? (fun q => q.addr == Reg.shdBank) = none :=
  List.find?_eq_none.2 fun q hq => by simpa using s.unselected_no_shadow q hq

theorem State.bankPend_selectBank_inForce (h : b = s.fget Reg.shdBank_sel) : (s.selectBank b).bankPend = none := by
  rw [State.selectBank_inForce h, State.bankPend, s.find_unselected]

theorem State.bankPend_selectBank_other (h : b ≠ s.fget Reg.shdBank_sel) (hb : b < 2) :
    (s.selectBank b).bankPend = some b := by
  rw [State.selectBank_other h]
  simp [State.bankPend, List.find?_append, s.find_unselected, Nat.le_of_lt_succ hb]

/-- A write of SHD_BANK that nothing refuses is a selection (R146). -/
theorem State.pathWrite_shdBank {v : Word} (h : s.accepts p Reg.shdBank v) :
    s.pathWrite p Reg.shdBank v = s.selectBank (fld v.toNat Reg.shdBank_sel) := by
  have hreg : findReg Reg.shdBank = some ⟨Reg.shdBank, [], [⟨0, 1, .rws, 0, some .lb⟩]⟩ := by decide
  have hchan : chanAt Reg.shdBank = none := by decide
  have hgroup : writeGroup Reg.shdBank = none := by decide
  have hcause : Reg.shdBank ≠ Reg.sysSafeCause := by decide
  rw [State.pathWrite_of_accepts h]
  simp [State.regDo, hreg, hchan, hgroup, RegDesc.writes, State.doWrite, hcause]

theorem State.bankCommit_selects {e : CmdEntry} (h : s.selectReason (commitBank e) = 0) :
    s.bankCommit e = (s.selectBank (commitBank e)).cmdFinish 8 e 0 := if_neg (not_not_intro h)

theorem State.bankCommit_refused {e : CmdEntry} (h : s.selectReason (commitBank e) ≠ 0) :
    s.bankCommit e = s.cmdRefuse 8 e (s.selectReason (commitBank e)) 0 := if_pos h

/-- Settles O31: by whether the bank is the one in force, and by the reason of R431. -/
theorem bankSelections : Obligations.BankSelections := by
  unfold Obligations.BankSelections
  refine fun s => ⟨fun p v hacc => ⟨next_eq (State.pathWrite_shdBank hacc), ?_, State.bankPend_selectBank_inForce,
    fun hother => State.bankPend_selectBank_other hother (bitsAt_lt _ _ _)⟩, fun e r hhead hsafe => ?_⟩
  · unfold State.fget
    rw [State.rget_of_regs State.selectBank_regs_shd.1]
  · have hwork : s.ringWork 8 e (fun t => t.bankCommit e) = ((s.popped r).bankCommit e).cmdNext :=
      State.ringWork_of_atHead hhead hsafe _
    exact ⟨fun haccepted => next_eq (hwork.trans (congrArg State.cmdNext (State.bankCommit_selects haccepted))),
      fun hreason => next_eq (hwork.trans (congrArg State.cmdNext (State.bankCommit_refused hreason)))⟩

theorem shdBankCtrl_plain : ∀ b : Fin 2,
    plainReg (Reg.shdBankCtrl b) = true ∧ claimRegs.contains (Reg.shdBankCtrl b) = false := by
  decide

/-- The control register of a bank lies in its block and is that of no engine. -/
theorem shdBankCtrl_block : ∀ b : Fin 2,
    Reg.shdBankCtrl b / 0x10000 = 0x0E ∧ engAt (Reg.shdBankCtrl b) = none ∧ Reg.shdBankCtrl b ≠ Reg.shdCtrl ∧
      (List.range 2).find? (fun c => Reg.shdBankCtrl c == Reg.shdBankCtrl b) = some b.val := by
  decide

/-- CHECK and MBIST act beyond the fields of a bank's control register (R161, R162). -/
theorem State.effect_shdBankCtrl {before : State} {v : Nat} (b : Fin 2) :
    s.effect before p (Reg.shdBankCtrl b) v =
      (let t := if fld v (Reg.shdBankCtrl_check b) = 1 then s.checkStart b else s
       if fld v (Reg.shdBankCtrl_mbist b) = 1 then t.mbistStart b else t) := by
  obtain ⟨hblock, heng, hctrl, hbank⟩ := shdBankCtrl_block b
  simp only [State.effect, hblock, State.effectPool, heng, if_neg hctrl, hbank]

theorem State.pathWrite_bankCheck {v : Word} (b : Fin 2) (h : s.accepts p (Reg.shdBankCtrl b) v)
    (hcheck : fld v.toNat (Reg.shdBankCtrl_check b) = 1) (hmbist : fld v.toNat (Reg.shdBankCtrl_mbist b) = 0) :
    s.pathWrite p (Reg.shdBankCtrl b) v = (s.stored (Reg.shdBankCtrl b) v).checkStart b := by
  obtain ⟨hplain, hclaim⟩ := shdBankCtrl_plain b
  rw [State.pathWrite_unclaimed hplain hclaim h, State.effect_shdBankCtrl]
  simp [hcheck, hmbist]

theorem State.pathWrite_bankMbist {v : Word} (b : Fin 2) (h : s.accepts p (Reg.shdBankCtrl b) v)
    (hcheck : fld v.toNat (Reg.shdBankCtrl_check b) = 0) (hmbist : fld v.toNat (Reg.shdBankCtrl_mbist b) = 1) :
    s.pathWrite p (Reg.shdBankCtrl b) v = (s.stored (Reg.shdBankCtrl b) v).mbistStart b := by
  obtain ⟨hplain, hclaim⟩ := shdBankCtrl_plain b
  rw [State.pathWrite_unclaimed hplain hclaim h, State.effect_shdBankCtrl]
  simp [hcheck, hmbist]

/-- Outside a load no selection follows the check (R145, R161). -/
theorem State.bankChecked_host (h : s.shd.check.contains b = true) (hload : s.cfg.bankCheck = false) :
    s.bankChecked b = s.checkEnd b := by
  unfold State.bankChecked
  rw [if_neg (by simpa using h), hload]
  rfl

/-- The bank is zeroed, and its memory test runs no more (R162). -/
def State.mbistZeroed (s : State) (b : Nat) : State :=
  let u := s.clear (bankBase b) 0x800000
  { u with shd := { u.shd with mbist := u.shd.mbist.filter (· != b) } }

theorem State.mbistEnd_repaired (h : s.shd.mbist.contains b = true) :
    s.mbistEnd b none = (s.mbistZeroed b).fputB (bankBadFld b) false := if_neg (by simpa using h)

theorem State.mbistEnd_unrepaired {o : Nat} (h : s.shd.mbist.contains b = true) :
    s.mbistEnd b (some o) = ((s.mbistZeroed b).fputB (bankBadFld b) true).raise 0x8006 .fault b (pf 24 4 o) :=
  if_neg (by simpa using h)

/-- Settles O34: by the bit that the write of the bank's control register sets, and by the check or test that runs. -/
theorem bankTests : Obligations.BankTests := by
  unfold Obligations.BankTests
  exact fun s b => ⟨fun p v hacc =>
      ⟨fun hcheck hmbist => next_eq (State.pathWrite_bankCheck b hacc hcheck hmbist),
        fun hcheck hmbist => next_eq (State.pathWrite_bankMbist b hacc hcheck hmbist)⟩,
    fun hup hrun hload => next_live hup (State.bankChecked_host hrun hload),
    fun hup hrun => ⟨next_live hup (State.mbistEnd_repaired hrun), fun _ => next_live hup (State.mbistEnd_unrepaired hrun)⟩⟩

end Sys2Proof.Machine
end

section
/-! The passes, the end and the abort of a shading calibration (R152 to R160). -/

namespace Sys2Proof.Machine

variable {s : State} {p : Path} {c : Cal}

/-! What an event leaves as it was (R342). -/

theorem State.stage_pend_shd {e : Event} : (s.stage e).pend = s.pend ∧ (s.stage e).shd = s.shd := by
  unfold State.stage
  split
  · exact ⟨rfl, rfl⟩
  · split
    · exact ⟨rfl, rfl⟩
    · split <;> exact ⟨rfl, rfl⟩

@[simp] theorem State.raise_pend {code src pay : Nat} {sev : Sev} : (s.raise code sev src pay).pend = s.pend :=
  State.stage_pend_shd.1

@[simp] theorem State.raise_shd {code src pay : Nat} {sev : Sev} : (s.raise code sev src pay).shd = s.shd :=
  State.stage_pend_shd.2

theorem State.bankPend_of_pend {t u : State} (h : t.pend = u.pend) : t.bankPend = u.bankPend := by
  unfold State.bankPend
  rw [h]

@[simp] theorem State.bankWritten_shd {b : Nat} : (s.bankWritten b).shd = s.shd := by
  unfold State.bankWritten
  split <;> rfl

/-! A pass ends (R152 to R156). -/

section
variable {c₀ : Cal} (hcal : s.shd.cal = some c₀) (hends : s.calPassEnds (s.calWarmed c₀) = true)
include hcal hends

theorem State.calPassEnd_aborting (habort : (s.calWarmed c₀).aborting = true) :
    s.calPassEnd = s.calReturn (s.calWarmed c₀) := by
  simp [State.calPassEnd, hcal, hends, habort]

theorem State.calPassEnd_dark (habort : (s.calWarmed c₀).aborting = false) (hstep : (s.calWarmed c₀).step = .dark) :
    s.calPassEnd =
      (let r := s.calDark (s.calWarmed c₀)
       if s.calLastPass (s.calWarmed c₀) = false then r.1.calNextPass r.2
       else if (s.calWarmed c₀).kind = 1 then r.1.calVerdict r.2 else r.1.calShutter r.2) := by
  simp [State.calPassEnd, hcal, hends, habort, hstep]

theorem State.calPassEnd_gain (habort : (s.calWarmed c₀).aborting = false) (hstep : (s.calWarmed c₀).step = .gain) :
    s.calPassEnd =
      (let r := s.calGain (s.calWarmed c₀)
       if s.calLastPass (s.calWarmed c₀) = false then r.1.calNextPass r.2
       else (r.1.calTref r.2).calStep r.2 (if s.calPasses = 0 then .verify else .writing)) := by
  simp [State.calPassEnd, hcal, hends, habort, hstep]

theorem State.calPassEnd_verify (habort : (s.calWarmed c₀).aborting = false) (hstep : (s.calWarmed c₀).step = .verify)
    (hlast : s.calLastPass (s.calWarmed c₀) = false) :
    s.calPassEnd = (s.calRnu (s.calWarmed c₀)).calNextPass (s.calWarmed c₀) := by
  simp [State.calPassEnd, hcal, hends, habort, hstep, hlast]

theorem State.calVerifyEnd_last (habort : (s.calWarmed c₀).aborting = false) (hstep : (s.calWarmed c₀).step = .verify)
    (hlast : s.calLastPass (s.calWarmed c₀) = true) :
    s.calVerifyEnd = (s.calRnu (s.calWarmed c₀)).calVerdict (s.calWarmed c₀) := by
  simp [State.calVerifyEnd, hcal, hends, habort, hstep, hlast]

end

/-! The shutter, and the end of a calibration (R154, R157, R159, R160). -/

/-- There is no shutter, or it rests at a position: what TILE and PARK are waited for with (R154, R157). -/
theorem State.shutter_there {a : Nat} {x : Int}
    (h : s.flag Reg.shdCtrl_shutter = false ∨ (s.moving a = false ∧ s.axPos a = x)) :
    (!s.flag Reg.shdCtrl_shutter || (!s.moving a && s.axPos a == x)) = true := by
  rcases h with hnone | ⟨hrest, hpos⟩
  · simp [hnone]
  · simp [hrest, hpos]

theorem State.calSettled_there (hcal : s.shd.cal = some c) (hstep : c.step = .shutter) (hlamps : s.lmp.delivering = false)
    (hthere : s.flag Reg.shdCtrl_shutter = false ∨
      (s.moving 6 = false ∧ s.axPos 6 = toInt 32 (s.rget Reg.shdTile0).toNat)) : s.calSettled = s.calStep c .gain := by
  simp only [State.calSettled, hcal]
  exact if_pos ⟨hstep, hlamps, State.shutter_there hthere⟩

theorem State.calEnd_there (hcal : s.shd.cal = some c) (hstep : c.step = .returning)
    (hthere : s.flag Reg.shdCtrl_shutter = false ∨
      (s.moving 6 = false ∧ s.axPos 6 = toInt 32 (s.rget Reg.shdTile1).toNat)) : s.calEnd = s.calFinish c := by
  simp only [State.calEnd, hcal]
  exact if_pos ⟨hstep, State.shutter_there hthere⟩

/-- The calibration runs no more, and the registers show its result (R157, R159). -/
def State.calShown (s : State) (c : Cal) : State :=
  let s := s.setCal none
  let s := ((s.fput Reg.shdStat_busy 0).fput Reg.shdStat_step 0).fput Reg.shdStat_result
    (match c.outcome with
      | none => 1
      | some n => if n ≤ 2 then 2 else 3)
  (s.fput Reg.shdResult0_failed c.failed).fput Reg.shdResult1_marked c.marked

theorem State.calShown_cal : (s.calShown c).shd.cal = none := rfl

theorem State.calShown_bankInForce : (s.calShown c).fget Reg.shdBank_sel = s.fget Reg.shdBank_sel := by
  unfold State.calShown
  rw [State.fget_fput_otherReg (by decide), State.fget_fput_otherReg (by decide), State.fget_fput_otherReg (by decide),
    State.fget_fput_otherReg (by decide), State.fget_fput_otherReg (by decide)]
  rfl

theorem State.calFinish_succeeded (h : c.outcome = none) :
    s.calFinish c = (if c.auto then (s.calShown c).selectBank c.target else s.calShown c).raise 0x8001 .info c.target
      (pf 24 4 c.kept + pf 28 4 c.marked) := by
  simp only [State.calFinish, State.calShown, h]

theorem State.calFinish_failed {n : Nat} (h : c.outcome = some n) :
    s.calFinish c = ((s.calShown c).bankWritten c.target).raise 0x8002 .warn c.target
      (pf 22 1 n + pf 23 1 (min 255 c.verdict.2)) := by
  simp only [State.calFinish, State.calShown, h]

/-- No calibration runs once one has ended, so its bank is no longer BUSY by it (R147, R157). -/
theorem State.calFinish_cal : (s.calFinish c).shd.cal = none := by
  cases h : c.outcome with
  | none =>
    rw [State.calFinish_succeeded h, State.raise_shd]
    split
    · rw [State.selectBank_regs_shd.2, State.calShown_cal]
    · exact State.calShown_cal
  | some n => rw [State.calFinish_failed h, State.raise_shd, State.bankWritten_shd, State.calShown_cal]

/-- AUTO selects the bank of a calibration that succeeded (R157). -/
theorem State.bankPend_calFinish (hauto : c.auto = true) (hgood : c.outcome = none) (htarget : c.target < 2)
    (hother : c.target ≠ s.fget Reg.shdBank_sel) : (s.calFinish c).bankPend = some c.target := by
  have hselects : c.target ≠ (s.calShown c).fget Reg.shdBank_sel := fun h => hother (h.trans State.calShown_bankInForce)
  rw [State.calFinish_succeeded hgood, if_pos hauto, State.bankPend_of_pend State.raise_pend,
    State.bankPend_selectBank_other hselects htarget]

/-! CAL_ABORT (R159). -/

/-- A calibration whose capture is to end, with cause 3 (R159). -/
def Cal.aborted (c : Cal) : Cal := { c with aborting := true, outcome := some 3 }

/-- A calibration takes a line at its steps of passes only (R152). -/
def CalStep.hasLines (t : CalStep) : Bool := t == .dark || t == .gain || t == .verify

theorem State.calAbort_returning (hcal : s.shd.cal = some c) (hstep : c.step = .returning) : s.calAbort = s := by
  simp only [State.calAbort, hcal, if_pos hstep]

theorem State.calAbort_eq (hcal : s.shd.cal = some c) (hstep : c.step ≠ .returning) :
    s.calAbort =
      if c.step.hasLines && !s.calPassEnds c.aborted then s.setCal (some c.aborted) else s.calReturn c.aborted := by
  simp only [State.calAbort, hcal, if_neg hstep]
  rfl

theorem State.pathWrite_calAbort {v : Word} (h : s.accepts p Reg.shdCtrl v) (habort : fld v.toNat Reg.shdCtrl_cal_abort = 1) :
    s.pathWrite p Reg.shdCtrl v = (s.stored Reg.shdCtrl v).calAbort := by
  have heffect : ∀ t u : State, t.effect u p Reg.shdCtrl v.toNat = t.effectPool Reg.shdCtrl v.toNat := fun t u => rfl
  have heng : engAt Reg.shdCtrl = none := by decide
  rw [State.pathWrite_unclaimed (by decide) (by decide) h, heffect, State.effectPool, heng]
  simp [habort]

/-- A write of SHD_CTRL stores DRIFT_EN alone. -/
theorem State.stored_shdCtrl (s : State) (v : Word) : s.stored Reg.shdCtrl v = s.blended Reg.shdCtrl 1 v.toNat :=
  State.stored_of_rw v (d := ⟨Reg.shdCtrl, [], [⟨31, 1, .ro, 0, none⟩, ⟨30, 1, .wo, 0, none⟩, ⟨0, 1, .rw, 0, none⟩]⟩)
    (by decide) (by decide) (by decide) (by decide) (by decide)

theorem State.stored_shdCtrl_shd {v : Word} : (s.stored Reg.shdCtrl v).shd = s.shd := by
  rw [State.stored_shdCtrl]
  rfl

/-- Settles O33: by the step of the calibration and its last pass, by where the shutter is, and for CAL_ABORT by whether a line
is in progress. -/
theorem calibrationPasses : Obligations.CalibrationPasses := by
  unfold Obligations.CalibrationPasses
  refine ⟨fun s c₀ hctl hcal => ⟨fun hends habort => ?_,
      fun hends habort => next_ctl hctl (State.calPassEnd_aborting hcal hends habort),
      fun hstep hlamps hthere => next_ctl hctl (State.calSettled_there hcal hstep hlamps hthere)⟩,
    fun s c hcal => ⟨fun hctl hstep hthere => ⟨next_ctl hctl (State.calEnd_there hcal hstep hthere), State.calFinish_cal,
      State.bankPend_calFinish⟩, fun p v hacc hbit => ?_⟩⟩
  · have hdark := State.calPassEnd_dark hcal hends habort
    have hgain := State.calPassEnd_gain hcal hends habort
    exact ⟨fun hstep hlast => next_ctl hctl ((hdark hstep).trans (if_pos hlast)),
      fun hstep hlast hkind => next_ctl hctl ((hdark hstep).trans ((if_neg (ne_false_of_eq_true hlast)).trans (if_pos hkind))),
      fun hstep hlast hkind => next_ctl hctl ((hdark hstep).trans ((if_neg (ne_false_of_eq_true hlast)).trans (if_neg hkind))),
      fun hstep hlast => next_ctl hctl ((hgain hstep).trans (if_pos hlast)),
      fun hstep hlast => next_ctl hctl ((hgain hstep).trans (if_neg (ne_false_of_eq_true hlast))),
      fun hstep hlast => next_ctl hctl (State.calPassEnd_verify hcal hends habort hstep hlast),
      fun hstep hlast => next_ctl hctl (State.calVerifyEnd_last hcal hends habort hstep hlast)⟩
  · have hwrite := State.pathWrite_calAbort hacc hbit
    have hcal' : (s.stored Reg.shdCtrl v).shd.cal = some c := by rw [State.stored_shdCtrl_shd, hcal]
    refine ⟨fun hstep => next_eq (hwrite.trans (State.calAbort_returning hcal' hstep)),
      fun hret hdark hgain hverify => ?_, fun hline hwaits => ?_⟩
    · have hnone : c.step.hasLines = false := by simp [CalStep.hasLines, hdark, hgain, hverify]
      exact next_eq (hwrite.trans ((State.calAbort_eq hcal' hret).trans (if_neg (by simp [hnone]))))
    · have hlines : c.step.hasLines = true := by simpa [CalStep.hasLines, or_assoc] using hline
      have hret : c.step ≠ .returning := fun h => by simp [h] at hline
      exact next_eq (hwrite.trans ((State.calAbort_eq hcal' hret).trans (if_pos (by simp [hlines, Cal.aborted, hwaits]))))

end Sys2Proof.Machine
end

section
/-!
CONTEXT_EXPORT and the end of an export (R192, R346): by the reason of a refusal and whether an export runs, then by where the
bytes go.
-/

namespace Sys2Proof.Machine

variable {s : State} {e : CmdEntry} {x : Export}

/-- The export a CONTEXT_EXPORT asks for, its contexts not yet taken (R192). -/
def exportAsked (e : CmdEntry) : Export :=
  { first := expFirst e, count := expCount e, dst := expDst e, taken := false, line := 0, time := 0, band := 0, data := [] }

/-- An export is held behind the one that runs (R192); outside a job it takes its contexts now. -/
def State.exportHold (s : State) (x : Export) : State :=
  ({ s with nzl := { s.nzl with expHeld := some (if s.running then x else s.exportTake x lineNone) } } : State).fput
    Reg.nzlStat_exp_pend 1

theorem State.contextExport_refused (h : s.exportReason e ≠ 0) :
    s.contextExport e = s.cmdRefuse 0x0A e (s.exportReason e) 0 := if_pos h

theorem State.contextExport_begins (h : s.exportReason e = 0) (hidle : s.nzl.exp = none) :
    s.contextExport e = (s.exportBegin (exportAsked e)).cmdFinish 0x0A e 0 := by
  simp only [State.contextExport, if_neg (not_not_intro h), hidle]
  rfl

theorem State.contextExport_held (h : s.exportReason e = 0) (hrun : s.nzl.exp ≠ none) :
    s.contextExport e = (s.exportHold (exportAsked e)).cmdFinish 0x0A e 0 := by
  simp only [State.contextExport, if_neg (not_not_intro h), if_pos (Option.isSome_iff_ne_none.2 hrun)]
  rfl

/-- No export runs any more. -/
def State.exportOver (s : State) : State :=
  ({ s with nzl := { s.nzl with exp := none } } : State).fput Reg.nzlStat_exp_busy 0

/-- A written export gives its channel back, EXPORT_DONE tells all its contexts, and the held export follows (R192). -/
def State.exportTold (s : State) (x : Export) : State :=
  ((s.exportChannel false).raiseAt 0xA008 .info 0 x.line (pf 24 4 x.count + pf 28 4 x.count)).exportNext

theorem State.exportDone_host (hexp : s.nzl.exp = some x) (htaken : x.taken = true) (hhost : isHost x.dst = true) :
    s.exportDone true = (s.exportOver.dmaWrite x.dst x.bytes).exportTold x := by
  simp only [State.exportDone, hexp, htaken, hhost, Bool.not_true, Bool.false_and, Bool.false_eq_true, if_true, if_false]
  rfl

theorem State.exportDone_outer (hexp : s.nzl.exp = some x) (htaken : x.taken = true) (hhost : isHost x.dst = false)
    (hrule : s.dstRule x.dst (64 + 16 * x.count) ≠ .refuse) :
    s.exportDone true = (s.exportOver.outerStore .ring x.dst x.bytes).exportTold x := by
  simp only [State.exportDone, hexp, htaken, hhost, beq_eq_false_iff_ne.2 hrule, Bool.not_true, Bool.and_false,
    Bool.false_eq_true, if_true, if_false]
  rfl

/-- An export whose destination refuses it halts its channel and fails (R192). -/
theorem State.exportDone_conflict (hexp : s.nzl.exp = some x) (htaken : x.taken = true) (hhost : isHost x.dst = false)
    (hrule : s.dstRule x.dst (64 + 16 * x.count) = .refuse) :
    s.exportDone true =
      (let c := s.fget Reg.nzlCtrl_expch
       (((s.exportOver.dmaConflict c x.dst).dmaHalt c 3).raiseAt 0xA009 .warn 0 x.line (pf 24 4 x.count)).exportNext) := by
  simp only [State.exportDone, hexp, htaken, hhost, hrule, Bool.not_true, Bool.not_false, Bool.true_and, beq_self_eq_true,
    Bool.false_eq_true, if_true, if_false]
  rfl

/-- Settles O36, by what `exportReason` and the running export decide, and by the destination of the bytes. -/
theorem contextExports : Obligations.ContextExports := by
  unfold Obligations.ContextExports
  refine fun s => ⟨fun e r hhead => ?_, fun x hup hexp htaken => ?_⟩
  · have hexec : exec (.contextExport e) s = .next ((s.popped r).contextExport e).cmdNext :=
      next_eq (State.ringCommand_of_atHead hhead _)
    rw [hexec]
    exact ⟨fun hreason => by rw [State.contextExport_refused hreason],
      fun hreason hidle => by rw [State.contextExport_begins hreason hidle]; rfl,
      fun hreason hrun => by rw [State.contextExport_held hreason hrun]; rfl⟩
  · exact ⟨fun hhost => next_live hup (State.exportDone_host hexp htaken hhost),
      fun hhost hrule => next_live hup (State.exportDone_outer hexp htaken hhost hrule),
      fun hhost hrule => next_live hup (State.exportDone_conflict hexp htaken hhost hrule)⟩

end Sys2Proof.Machine
end

section
/-! Triggers by position and the held line (R239, R241). -/

namespace Sys2Proof.Machine

variable {s : State} {n num trig : Nat} {feed : Int}

/-- The feed position in a line's header (R239): F where F comes from counts or has jumped, else the line's own position. -/
def State.triggerFeed (s : State) (n : Nat) : Int := if s.feedQei.isSome || s.mot.jump then s.feedNm else s.linePos n

/-- The trigger of output line `n` is taken: the next one concerns the line after it (R239). -/
def State.counted (s : State) (n : Nat) : State := { s with seq := { s.seq with next := n + 1 } }

/-- A trigger by position goes to the line that the feed has passed (R239). -/
theorem State.positionTrigger_passed (hline : s.triggerLine = some (n, false)) (hedge : s.linesByEdge = false)
    (hpassed : s.linePos n * 2 ^ 32 < s.mot.f) : s.positionTrigger = s.lineTrigger (s.triggerFeed n) := by
  simp only [State.positionTrigger, hline, hedge, Bool.false_eq_true, if_false, if_pos hpassed]
  rfl

/-- The three ways of a trigger of an output line (R241). -/
theorem State.lineTrigger_output (hctl : s.sys.ctlLost = false) (hline : s.triggerLine = some (n, false)) :
    s.lineTrigger feed =
      if s.seq.held.isSome then (s.counted n).lineOverrun n feed
      else if (s.counted n).lineBusy then
        { s.counted n with seq := { (s.counted n).seq with held := some (n, s.sys.now, feed) } }
      else (s.counted n).startLine n feed := by
  simp only [State.lineTrigger, hctl, hline, Bool.false_eq_true, if_false]
  rfl

/-- A held line starts behind the last phase of the line in progress, or once no readout is left (R241). -/
theorem State.releaseHeld_starts (hheld : s.seq.held = some (num, trig, feed)) (hwait : s.seq.waitFlush = false)
    (hflush : s.vfe.flush = 0) (hphases : s.seq.cur ≠ none → s.seq.phases ≤ s.seq.started)
    (hreads : s.seq.cur = none → s.vfe.reads = []) : s.releaseHeld = s.startLine num feed := by
  cases hcur : s.seq.cur with
  | none => simp [State.releaseHeld, hheld, hcur, hwait, hflush, hreads hcur]
  | some c => simp [State.releaseHeld, hheld, hcur, hwait, hflush, hphases (by simp [hcur])]

/-- Settles O19: a trigger meets a held line, a busy sequencer or a free one; a held line waits for the line before it. -/
theorem lineStart : Obligations.LineStart := by
  unfold Obligations.LineStart
  refine ⟨fun s n hctl hline hedge hpassed => ?_, fun s num trig feed hctl hheld hwait hflush hphases hreads =>
    next_ctl hctl (State.releaseHeld_starts hheld hwait hflush hphases hreads)⟩
  have htrigger := (State.positionTrigger_passed hline hedge hpassed).trans (State.lineTrigger_output hctl.2 hline)
  refine ⟨fun hnone hfree => ?_, fun hnone hbusy => ?_, fun hheld => ?_⟩
  · refine next_ctl hctl (htrigger.trans ?_)
    rw [hnone]
    exact if_neg (ne_true_of_eq_false hfree)
  · refine next_ctl hctl (htrigger.trans ?_)
    rw [hnone]
    exact if_pos hbusy
  · exact next_ctl hctl (htrigger.trans (if_pos (Option.isSome_iff_ne_none.2 hheld)))

end Sys2Proof.Machine
end

section
/-! Profile ticks: the round of the axes, and the profile of one of them (R223, R224, R226, R228, R232). -/

namespace Sys2Proof.Machine

variable {x : Axis} {vline : Int}

/-- What a profile still has to travel (R223). -/
def Axis.left (x : Axis) : Int := ((x.tgt * one48 - x.p).natAbs : Nat)

/-- A profile whose rest is no more than its speed or VSTART ends on its target (R223). -/
theorem Axis.tick_arrives (h : x.left ≤ max x.v x.vst) :
    x.tick vline = ({ x with p := x.tgt * one48, v := 0, a := 0 }, true) := if_pos h

/-- Any other one moves towards its target by its new speed (R223). -/
theorem Axis.tick_moves (h : max x.v x.vst < x.left) :
    (x.tick vline).2 = false ∧
      (x.tick vline).1.p = if x.p ≤ x.tgt * one48 then x.p + (x.tick vline).1.v else x.p - (x.tick vline).1.v := by
  have hon : ¬ x.left ≤ max x.v x.vst := Int.not_le.2 h
  unfold Axis.left at hon
  simp only [Axis.tick, if_neg hon, true_and]

/-- Without a jerk limit and far enough from its target, a profile below its speed gains ACC up to the speed (R223). -/
theorem Axis.tick_accelerates (h : max x.v x.vst < x.left) (hj : x.j = 0) (hbraking : x.braking = false) (hvline : vline ≤ 0)
    (hfar : brake x.v x.a x.dec x.j + x.v < x.left) (hslow : x.v < x.vmax) (hacc : 0 < x.acc) :
    (x.tick vline).1.v = min (x.v + x.acc) x.vmax ∧ (x.tick vline).1.goal = .accel := by
  have hon : ¬ x.left ≤ max x.v x.vst := Int.not_le.2 h
  have hnear : ¬ x.left ≤ brake x.v x.a x.dec x.j + x.v := Int.not_le.2 hfar
  have hup : ¬ x.acc < 0 := Int.not_lt.2 hacc.le
  rw [hj] at hnear
  unfold Axis.left at hon hnear
  simp only [Axis.tick, if_neg hon, hj, hnear, hbraking, if_neg (Int.not_lt.2 hvline), if_neg (Int.not_lt.2 hslow.le),
    if_pos hslow, if_neg hup, hacc, decide_false, Bool.or_false, Bool.false_eq_true, if_false, if_true, Int.lt_irrefl,
    false_and, true_or]
  exact ⟨trivial, trivial⟩

/-- Without a jerk limit, a profile within its stopping distance loses DEC down to VSTART (R223). -/
theorem Axis.tick_brakes (h : max x.v x.vst < x.left) (hj : x.j = 0) (hdec : 0 < x.dec)
    (hnear : x.left ≤ brake x.v x.a x.dec x.j + x.v) :
    (x.tick vline).1.v = max (x.v - x.dec) x.vst ∧ (x.tick vline).1.braking = true := by
  have hon : ¬ x.left ≤ max x.v x.vst := Int.not_le.2 h
  have hdown : -x.dec < 0 := Int.neg_neg_of_pos hdec
  rw [hj] at hnear
  unfold Axis.left at hon hnear
  have hnotUp : ¬ (0 < -x.dec ∨ -x.dec = 0 ∧ true = false) := by omega
  simp only [Axis.tick, if_neg hon, hj, hnear, decide_true, Bool.true_or, if_true, if_pos hdown, if_neg hnotUp]
  exact ⟨rfl, trivial⟩

/-- Settles O37: the row runs the axes as its definition says; a profile goes by what is left, its stopping distance and its speed. -/
theorem profileTick : Obligations.ProfileTick := by
  unfold Obligations.ProfileTick
  refine ⟨fun s hup => next_live hup rfl, fun x vline => ⟨Axis.tick_arrives, fun hon => ?_⟩⟩
  obtain ⟨hgoes, hp⟩ := Axis.tick_moves (vline := vline) hon
  exact ⟨hgoes, fun hahead => hp.trans (if_pos hahead), fun hbehind => hp.trans (if_neg (Int.not_le.2 hbehind)),
    fun hj hbraking hvline hfar hslow hacc => Axis.tick_accelerates hon hj hbraking hvline hfar hslow hacc,
    fun hj hdec hnear => Axis.tick_brakes hon hj hdec hnear⟩

end Sys2Proof.Machine
end

section
/-! MOVE, the driver's fault and the current of an axis (R225, R226, R230, R234 to R236). -/

namespace Sys2Proof.Machine

variable {s : State} {a : Nat} {e : CmdEntry}

/-- The target that a MOVE asks for (R226): a relative one counts from the present position. -/
def State.moveTo (s : State) (e : CmdEntry) : Int :=
  toInt 48 ((if moveRel e then moveTarget e + s.axPos (moveAxis e) else moveTarget e) % 2 ^ 48).toNat

/-- The move that a MOVE asks for (R225). -/
def askedMove (e : CmdEntry) : MoveKind := .move (moveNotify e) (moveEvstop e) (moveEvi e)

theorem State.moveCmd_refused (h : s.moveReason e ≠ 0) : s.moveCmd e = s.cmdRefuse 6 e (s.moveReason e) 0 := if_pos h

theorem State.moveCmd_accepted (h : s.moveReason e = 0) :
    s.moveCmd e = (s.cmdFinish 6 e 0).moveOrQueue (moveAxis e) (askedMove e) (s.moveTo e) := if_neg (not_not_intro h)

theorem State.moveOrQueue_moving {k : MoveKind} {tgt : Int} (h : s.moving a = true) :
    s.moveOrQueue a k tgt =
      (s.setAxis a { s.axis a with queued := some { kind := k, tgt := tgt } }).fput (Reg.motAxStat_queued a) 1 := if_pos h

theorem State.moveOrQueue_rest {k : MoveKind} {tgt : Int} (h : s.moving a = false) :
    s.moveOrQueue a k tgt = s.moveStart a k tgt := if_neg (ne_true_of_eq_false h)

/-- The fault of an axis is noted and raises AXIS_FAULT; one of axis 6 ends a calibration (R159, R235). -/
def State.noteFault (s : State) (a : Nat) : State :=
  let t := (s.setAxis a { s.axis a with faulted := true }).raise 0xC003 .fault a (pfI 24 6 (s.axPos a))
  if a = 6 then t.calAxis else t

theorem State.axisFault_disabled (hflt : s.flag (Reg.motAxStat_flt a) = true) (hnew : (s.axis a).faulted = false)
    (hoff : s.flag (Reg.motAxCtrl_ena a) = false) : s.axisFault a = s.noteFault a := by
  simp only [State.axisFault, hflt, hnew, hoff, Bool.not_true, Bool.or_self, Bool.false_eq_true, if_false, Bool.false_and]
  rfl

/-- The fault of an enabled axis stops it before it is noted, and then the feed, where it is a feed axis (R234, R236). -/
theorem State.axisFault_enabled (hflt : s.flag (Reg.motAxStat_flt a) = true) (hnew : (s.axis a).faulted = false)
    (hon : s.flag (Reg.motAxCtrl_ena a) = true) :
    s.axisFault a =
      if a < 2 then ((s.stopAxes [a] 6).noteFault a).feedStop a 2 else (s.stopAxes [a] 6).noteFault a := by
  simp only [State.axisFault, hflt, hnew, hon, Bool.not_true, Bool.or_self, Bool.false_eq_true, if_false, if_true,
    Bool.true_and, decide_eq_true_eq]
  rfl

theorem State.holdDrop_rest (h : s.moving a = false) : s.holdDrop a = s.fput (Reg.motAxStat_hold a) 1 :=
  if_neg (ne_true_of_eq_false h)

/-- Settles O41: a fault acts once, and by the enable of its axis; the other rows act at once. -/
theorem axisFaultsAndCurrent : Obligations.AxisFaultsAndCurrent := by
  unfold Obligations.AxisFaultsAndCurrent
  exact fun s a hup => ⟨next_live hup rfl, next_live hup rfl,
    fun hflt hnew => ⟨fun hoff => next_live hup (State.axisFault_disabled hflt hnew hoff),
      fun hon => next_live hup (State.axisFault_enabled hflt hnew hon)⟩,
    fun hrest => next_live hup (State.holdDrop_rest hrest), next_live hup rfl⟩

end Sys2Proof.Machine
end

section
/-! Writes of MOT_CTRL and MOT_AX_a_CTRL: STOP, HALT and ENA (R227, R231, R234, R346, R349). -/

namespace Sys2Proof.Machine

variable {s : State} {p : Path} {v : Word}

theorem motAxCtrl_injective : Function.Injective Reg.motAxCtrl := fun x y h => by
  unfold Reg.motAxCtrl at h
  omega

theorem motAxCtrl_plain : ∀ a : Fin 8,
    plainReg (Reg.motAxCtrl a) = true ∧ claimRegs.contains (Reg.motAxCtrl a) = false := by
  decide

theorem motAxCtrl_block {a : Nat} (ha : a < 8) : Reg.motAxCtrl a / 0x10000 = 0x14 ∧ Reg.motAxCtrl a ≠ Reg.motCtrl := by
  unfold Reg.motAxCtrl Reg.motCtrl
  omega

/-- What STOP and HALT of an axis's control register do: STOP wins (R227, R234). -/
def State.stopOrHalt (s : State) (a v : Nat) : State :=
  if fld v (Reg.motAxCtrl_stop a) = 1 then s.hostStop [a]
  else if fld v (Reg.motAxCtrl_halt a) = 1 then s.halt (if a = 1 ∧ s.moving 0 = true then 0 else a)
  else s

/-- A write without ENCSET drives EN_a, then stops or halts (R227, R231, R234). -/
theorem State.effect_motAxCtrl {before : State} {a v : Nat} (ha : a < 8) (hencset : fld v (Reg.motAxCtrl_encset a) = 0) :
    s.effect before p (Reg.motAxCtrl a) v =
      (s.enableAxis a (before.flag (Reg.motAxCtrl_ena a))).stopOrHalt a v := by
  obtain ⟨hblock, hctrl⟩ := motAxCtrl_block ha
  simp only [State.effect, hblock, State.effectMotion, if_neg hctrl, famIx_apply motAxCtrl_injective ha, hencset,
    Nat.zero_ne_one, if_false]
  rfl

theorem State.pathWrite_motAxCtrl (a : Fin 8) (h : s.accepts p (Reg.motAxCtrl a) v)
    (hencset : fld v.toNat (Reg.motAxCtrl_encset a) = 0) :
    s.pathWrite p (Reg.motAxCtrl a) v =
      ((s.stored (Reg.motAxCtrl a) v).enableAxis a (s.flag (Reg.motAxCtrl_ena a))).stopOrHalt a v.toNat := by
  obtain ⟨hplain, hclaim⟩ := motAxCtrl_plain a
  rw [State.pathWrite_unclaimed hplain hclaim h, State.effect_motAxCtrl a.isLt hencset]

theorem State.enableAxis_same {a : Nat} {was : Bool} (h : s.flag (Reg.motAxCtrl_ena a) = was) : s.enableAxis a was = s :=
  if_pos h

/-- MOT_CTRL.STOP stops all eight axes; the claims follow the settings of the same write (R234, R378). -/
theorem State.pathWrite_motCtrl_stop (h : s.accepts p Reg.motCtrl v) (hstop : fld v.toNat Reg.motCtrl_stop = 1) :
    s.pathWrite p Reg.motCtrl v = ((s.stored Reg.motCtrl v).hostStop (List.range 8)).reclaim := by
  have heffect : ∀ t u : State, t.effect u p Reg.motCtrl v.toNat = t.effectMotion u Reg.motCtrl v.toNat := fun t u => rfl
  rw [State.pathWrite_claims (by decide) (by decide) h, heffect, State.effectMotion, if_pos rfl, if_pos hstop]

/-- Settles O38: MOVE by its reason and by whether the axis moves, a write by STOP before HALT. -/
theorem moveHaltStop : Obligations.MoveHaltStop := by
  unfold Obligations.MoveHaltStop
  refine fun s => ⟨fun e r hhead hsafe => ?_, fun p a v hacc => ?_, fun p v hacc hstop =>
    next_eq (State.pathWrite_motCtrl_stop hacc hstop)⟩
  · have hexec : exec (.move e) s = .next ((s.popped r).moveCmd e).cmdNext :=
      next_eq (State.ringWork_of_atHead hhead hsafe _)
    rw [hexec]
    exact ⟨fun hreason => by rw [State.moveCmd_refused hreason],
      fun hreason hmoving => by rw [State.moveCmd_accepted hreason, State.moveOrQueue_moving hmoving]; rfl,
      fun hreason hrest => by rw [State.moveCmd_accepted hreason, State.moveOrQueue_rest hrest]; rfl⟩
  · intro t hena hencset
    have hwrite : s.pathWrite p (Reg.motAxCtrl a) v = t.stopOrHalt a v.toNat := by
      rw [State.pathWrite_motAxCtrl a hacc hencset, State.enableAxis_same hena]
    refine ⟨fun hstop => next_eq (hwrite.trans (if_pos hstop)), fun hno hhalt => next_eq (hwrite.trans ?_)⟩
    rw [State.stopOrHalt, if_neg (by omega), if_pos hhalt]

end Sys2Proof.Machine
end

section
/-! Edges, speeds and control writes of the incremental ports (R263 to R266). -/

namespace Sys2Proof.Machine

variable {s : State} {p : Path} {n : Nat} {z : Bool} {v : Word}

/-- A change of A alone goes forward in the order 00, 10, 11, 01 from equal levels (R263). -/
theorem quadPhase_changeA : ∀ a b : Bool, decide (quadPhase (!a) b = (quadPhase a b + 1) % 4) = (a == b) := by decide

/-- A change of B alone goes forward from unequal levels (R263). -/
theorem quadPhase_changeB : ∀ a b : Bool, decide (quadPhase a (!b) = (quadPhase a b + 1) % 4) = (a != b) := by decide

/-- The level at A of a port's last sample (R268). -/
def State.qeiA (s : State) (n : Nat) : Bool := bitAt (s.fget (Reg.posQeiStat_lvl n)) 0

/-- The level at B of a port's last sample (R268). -/
def State.qeiB (s : State) (n : Nat) : Bool := bitAt (s.fget (Reg.posQeiStat_lvl n)) 1

/-- A count forward or backward, against the sign that DIRINV gives it; F may follow it (R238, R263). -/
def State.qeiStep (s : State) (n : Nat) (forward : Bool) : State :=
  let neg := forward == s.flag (Reg.posQeiCfg_dirinv n)
  (s.qeiCount n neg).feedCount n neg

/-- A sample of an enabled port: two changed levels are illegal, none counts nothing, and one counts by its place in the order;
the index edge follows (R263 to R265). -/
theorem State.qeiEdge_enabled (hen : s.flag (Reg.posQeiCfg_en n) = true) (a b z : Bool) :
    s.qeiEdge n a b z =
      (if a != s.qeiA n && b != s.qeiB n then s.qeiIllegal n
       else if a == s.qeiA n && b == s.qeiB n then s
       else s.qeiStep n (decide (quadPhase a b = (quadPhase (s.qeiA n) (s.qeiB n) + 1) % 4))).qeiLevels n a b z := by
  unfold State.qeiEdge
  rw [hen]
  rfl

theorem State.qeiEdge_both (hen : s.flag (Reg.posQeiCfg_en n) = true) :
    s.qeiEdge n (!s.qeiA n) (!s.qeiB n) z = (s.qeiIllegal n).qeiLevels n (!s.qeiA n) (!s.qeiB n) z := by
  rw [State.qeiEdge_enabled hen, if_pos (by simp)]

theorem State.qeiEdge_changeA (hen : s.flag (Reg.posQeiCfg_en n) = true) :
    s.qeiEdge n (!s.qeiA n) (s.qeiB n) z = (s.qeiStep n (s.qeiA n == s.qeiB n)).qeiLevels n (!s.qeiA n) (s.qeiB n) z := by
  rw [State.qeiEdge_enabled hen, if_neg (by simp), if_neg (by simp), quadPhase_changeA]

theorem State.qeiEdge_changeB (hen : s.flag (Reg.posQeiCfg_en n) = true) :
    s.qeiEdge n (s.qeiA n) (!s.qeiB n) z = (s.qeiStep n (s.qeiA n != s.qeiB n)).qeiLevels n (s.qeiA n) (!s.qeiB n) z := by
  rw [State.qeiEdge_enabled hen, if_neg (by simp), if_neg (by simp), quadPhase_changeB]

/-- A change of Z alone keeps both levels, and so counts nothing (R265). -/
theorem State.qeiZ_enabled (hen : s.flag (Reg.posQeiCfg_en n) = true) :
    s.qeiZ n z = s.qeiLevels n (s.qeiA n) (s.qeiB n) z := by
  have hsame : s.qeiZ n z = s.qeiEdge n (s.qeiA n) (s.qeiB n) z := rfl
  rw [hsame, State.qeiEdge_enabled hen, if_neg (by simp), if_pos (by simp)]

theorem State.qeiWindowEnd_enabled (hen : s.flag (Reg.posQeiCfg_en n) = true) : s.qeiWindowEnd n = s.qeiWindow n := if_pos hen

theorem State.qeiStill_enabled (hen : s.flag (Reg.posQeiCfg_en n) = true) :
    s.qeiStill n =
      (let u := s.setQei n { s.qeiPort n with spdp := 0 }
       if u.flag (Reg.posQeiStat_smode n) then u.setSpd n 0 else u) := if_neg (by simp [hen])

theorem posQeiCtrl_injective : Function.Injective Reg.posQeiCtrl := fun m n h => by
  unfold Reg.posQeiCtrl at h
  omega

theorem posQeiCtrl_plain : ∀ n : Fin 4,
    plainReg (Reg.posQeiCtrl n) = true ∧ claimRegs.contains (Reg.posQeiCtrl n) = false := by
  decide

/-- The control register of an incremental port lies in the block of the ports and is no absolute port's. -/
theorem posQeiCtrl_block : ∀ n : Fin 4,
    Reg.posQeiCtrl n / 0x10000 = 0x15 ∧ famIx Reg.posAbsCtrl 4 (Reg.posQeiCtrl n) = none := by
  decide

/-- A write of a port's control register claims no port: it stands behind the port's configuration (R256). -/
theorem State.claimPort_posQeiCtrl (s : State) (n : Nat) : s.claimPort (Reg.posQeiCtrl n) = s := by
  have hoffset : Reg.posQeiCtrl n - Reg.posQeiCfg 0 = 12 + 64 * n := by unfold Reg.posQeiCtrl Reg.posQeiCfg; omega
  have habs : ¬ Reg.posQeiCtrl n < Reg.posQeiCfg 0 := by unfold Reg.posQeiCtrl Reg.posQeiCfg; omega
  unfold State.claimPort
  rw [if_neg (fun h => habs h.2.1), hoffset, if_neg (by omega)]

/-- CLRUNC clears what uncertain counts have set (R264). -/
def State.qeiCleared (s : State) (n : Nat) : State :=
  let t := (s.setQeiUnc n false).fput (Reg.posQeiStat_iflt n) 0
  t.setQei n { t.qeiPort n with ill := false }

/-- REIDX makes the next index edge the reference (R265). -/
def State.qeiRearmed (s : State) (n : Nat) : State :=
  (s.setQei n { s.qeiPort n with reidx := true }).fput (Reg.posQeiStat_iflt n) 0

theorem State.effect_posQeiCtrl {before : State} {v : Nat} (n : Fin 4) :
    s.effect before p (Reg.posQeiCtrl n) v =
      (let t := if fld v (Reg.posQeiCtrl_clrunc n) = 1 then s.qeiCleared n else s
       if fld v (Reg.posQeiCtrl_reidx n) = 1 then t.qeiRearmed n else t) := by
  obtain ⟨hblock, habs⟩ := posQeiCtrl_block n
  simp only [State.effect, hblock, State.claimPort_posQeiCtrl, State.effectPos, habs, famIx_apply posQeiCtrl_injective n.isLt]
  rfl

theorem State.pathWrite_posQeiCtrl (n : Fin 4) (h : s.accepts p (Reg.posQeiCtrl n) v) :
    s.pathWrite p (Reg.posQeiCtrl n) v =
      (let t := if fld v.toNat (Reg.posQeiCtrl_clrunc n) = 1 then (s.stored (Reg.posQeiCtrl n) v).qeiCleared n
         else s.stored (Reg.posQeiCtrl n) v
       if fld v.toNat (Reg.posQeiCtrl_reidx n) = 1 then t.qeiRearmed n else t) := by
  obtain ⟨hplain, hclaim⟩ := posQeiCtrl_plain n
  rw [State.pathWrite_unclaimed hplain hclaim h, State.effect_posQeiCtrl]

/-- Settles O45: an edge by which levels it changes, a write by its two fields. -/
theorem qeiPorts : Obligations.QeiPorts := by
  unfold Obligations.QeiPorts
  refine fun s n => ⟨fun hup hen => ⟨fun z => next_live hup (State.qeiEdge_both hen),
      fun z => next_live hup (State.qeiEdge_changeA hen), fun z => next_live hup (State.qeiEdge_changeB hen),
      fun z => next_live hup (State.qeiZ_enabled hen), next_live hup (State.qeiWindowEnd_enabled hen),
      next_live hup (State.qeiStill_enabled hen)⟩, fun p v hacc => ?_⟩
  have hwrite := State.pathWrite_posQeiCtrl n hacc
  refine ⟨fun hclr hno => next_eq (hwrite.trans ?_), fun hno hidx => next_eq (hwrite.trans ?_)⟩
  · simp only [hclr, hno, Nat.zero_ne_one, if_true, if_false]
    rfl
  · simp only [hno, hidx, Nat.zero_ne_one, if_true, if_false]
    rfl

end Sys2Proof.Machine
end

section
/-! Registers that an event, the end of a calibration and the stop of the clocks leave as they were (R45, R157, R342). -/

namespace Sys2Proof.Machine

variable {s t u : State}

theorem State.regsKept_refl (s : State) (l : List Nat) : s.regsKept s l := fun _ _ => rfl

theorem State.regsKept.trans {l m : List Nat} (h : s.regsKept t l) (h' : t.regsKept u m) : s.regsKept u (l ++ m) := fun b hb =>
  (h' b (fun hm => hb (List.mem_append_right l hm))).trans (h b (fun hl => hb (List.mem_append_left m hl)))

theorem State.regsKept_of_regs {l : List Nat} (h : t.regs = s.regs) : s.regsKept t l := fun b _ => State.rget_of_regs h b

/-- A put field changes its own register alone, whatever the form of the register file. -/
theorem State.rget_fput_otherReg {f : Fld} {v b : Nat} (h : b ≠ f.addr) : (s.fput f v).rget b = s.rget b :=
  tget_tput_ne _ h s.regs

theorem State.flag_of_regsKept {l : List Nat} {f : Fld} (h : s.regsKept t l) (hf : f.addr ∉ l) : t.flag f = s.flag f := by
  unfold State.flag State.fget
  rw [h f.addr hf]

/-- The registers in which the loss of an event shows (R342). -/
def lostEventRegs : List Nat := [Reg.evqStat, Reg.evqCntLost]

theorem State.regsKept_loseEvent (s : State) : s.regsKept s.loseEvent lostEventRegs := fun b hb => by
  obtain ⟨hstat, hlost⟩ : b ≠ Reg.evqStat ∧ b ≠ Reg.evqCntLost := by simpa [lostEventRegs] using hb
  unfold State.loseEvent State.bump
  rw [State.rget_fput_otherReg hstat, State.rget_fput_otherReg hlost]
  rfl

theorem State.regsKept_stage (s : State) (e : Event) : s.regsKept (s.stage e) lostEventRegs := by
  unfold State.stage
  split
  · exact s.regsKept_refl _
  · split
    · exact s.regsKept_refl _
    · split
      · exact State.regsKept_of_regs rfl
      · exact s.regsKept_loseEvent

theorem State.regsKept_raise (s : State) (code : Nat) (sev : Sev) (src pay : Nat) :
    s.regsKept (s.raise code sev src pay) lostEventRegs :=
  s.stamp.2.regsKept_stage _

/-- The registers in which the end of a calibration shows (R157, R160). -/
def calEndRegs : List Nat := [Reg.shdStat, Reg.shdResult0, Reg.shdResult1]

theorem State.regsKept_calShown (s : State) (c : Cal) : s.regsKept (s.calShown c) calEndRegs := fun b hb => by
  obtain ⟨hstat, hfailed, hmarked⟩ : b ≠ Reg.shdStat ∧ b ≠ Reg.shdResult0 ∧ b ≠ Reg.shdResult1 := by
    simpa [calEndRegs] using hb
  unfold State.calShown
  rw [State.rget_fput_otherReg hmarked, State.rget_fput_otherReg hfailed, State.rget_fput_otherReg hstat,
    State.rget_fput_otherReg hstat, State.rget_fput_otherReg hstat]
  rfl

theorem State.bankWritten_regs {b : Nat} : (s.bankWritten b).regs = s.regs := by
  unfold State.bankWritten
  split <;> rfl

theorem State.regsKept_calFinish (s : State) (c : Cal) : s.regsKept (s.calFinish c) (calEndRegs ++ lostEventRegs) := by
  cases hout : c.outcome with
  | none =>
    rw [State.calFinish_succeeded hout]
    refine State.regsKept.trans ?_ (State.regsKept_raise _ _ _ _ _)
    split
    · exact fun b hb => (State.rget_of_regs State.selectBank_regs_shd.1 b).trans (s.regsKept_calShown c b hb)
    · exact s.regsKept_calShown c
  | some n =>
    rw [State.calFinish_failed hout]
    exact State.regsKept.trans (fun b hb => (State.rget_of_regs State.bankWritten_regs b).trans (s.regsKept_calShown c b hb))
      (State.regsKept_raise _ _ _ _ _)

theorem State.abandonPulses_regs : s.abandonPulses.regs = s.regs := by
  unfold State.abandonPulses State.each
  refine (foldl_regs_mem _ (fun t k => ?_) s).1
  dsimp only
  split <;> exact ⟨rfl, rfl⟩

theorem State.stopClocks_regs : s.stopClocks.regs = s.regs := by
  unfold State.stopClocks
  split <;> rfl

/-- The end of a calibration by a fault or an uncertain position of axis 6 shows in its own registers and the events' (R159). -/
theorem State.regsKept_calAxis (s : State) : s.regsKept s.calAxis (calEndRegs ++ lostEventRegs) := by
  unfold State.calAxis
  split
  · exact s.regsKept_refl _
  · intro b hb
    rw [State.regsKept_calFinish _ _ b hb, State.rget_of_regs State.stopClocks_regs,
      State.rget_of_regs State.abandonPulses_regs]
    rfl

end Sys2Proof.Machine
end

section
/-! EN_a follows ENA, and a write that would let it fall is refused where R231 says so (R231, R349). -/

namespace Sys2Proof.Machine

variable {s : State} {p : Path} {v : Word} {a : Nat}

/-- The fields of MOT_AX_a_CTRL (R254). -/
def motAxCtrlDesc : RegDesc :=
  ⟨0x141000, [(256, 8)], [⟨31, 1, .wo, 0, none⟩, ⟨30, 1, .wo, 0, none⟩, ⟨29, 1, .wo, 0, none⟩, ⟨0, 1, .rw, 0, none⟩]⟩

theorem findReg_motAxCtrl : ∀ a : Fin 8, findReg (Reg.motAxCtrl a) = some motAxCtrlDesc := by decide

theorem famIx_lmpZoneCfg_motAxCtrl : ∀ a : Fin 8, famIx Reg.lmpZoneCfg 64 (Reg.motAxCtrl a) = none := by decide

/-- ENA is the whole of what a write of MOT_AX_a_CTRL stores (R254). -/
theorem State.stored_motAxCtrl (s : State) (a : Fin 8) (v : Word) :
    s.stored (Reg.motAxCtrl a) v = s.blended (Reg.motAxCtrl a) 1 v.toNat :=
  State.stored_of_rw v (findReg_motAxCtrl a) (famIx_lmpZoneCfg_motAxCtrl a) (by decide) (by decide) (by decide)

/-- ENA is the bit that a write may set. -/
theorem motAxCtrl_ena_bit : ∀ a : Fin 8, (Reg.motAxCtrl_ena a).lo + (Reg.motAxCtrl_ena a).w ≤ 32 ∧
    bitsAt 1 (Reg.motAxCtrl_ena a).lo (Reg.motAxCtrl_ena a).w = 2 ^ (Reg.motAxCtrl_ena a).w - 1 := by
  decide

theorem State.flag_ena_stored (h : Regs.wf s.regs) (a : Fin 8) (v : Word) :
    (s.stored (Reg.motAxCtrl a) v).flag (Reg.motAxCtrl_ena a) = (fld v.toNat (Reg.motAxCtrl_ena a) == 1) := by
  rw [State.stored_motAxCtrl]
  obtain ⟨hfit, hones⟩ := motAxCtrl_ena_bit a
  exact congrArg (· == 1) ((State.bitsAt_rget_blended h hfit).trans (bitsAt_blend_of_ones hfit hones))

/-- A feed axis that is enabled restores its phase (R232). -/
def State.restoreStart (s : State) (a : Nat) : State :=
  ((s.setAxis a { s.axis a with restore := some .seek }).fput (Reg.motAxStat_state a) 5).fput (Reg.motAxStat_hold a) 1

/-- A restoration in progress ends with the enable (R232). -/
def State.restoreCut (s : State) (a : Nat) : State := if (s.axis a).restore.isSome then s.restoreStop a else s

/-- EN_a falls (R231, R232); the loss of axis 6's position ends a calibration (R159). -/
def State.enableLost (s : State) (a : Nat) : State :=
  let w := s.restoreCut a
  if a = 6 ∧ w.flag (Reg.motAxStat_unc a) = false then (w.enableFalls a).calAxis else w.enableFalls a

theorem State.enableAxis_rises (h : s.flag (Reg.motAxCtrl_ena a) = true) :
    s.enableAxis a false = if a < 2 then s.restoreStart a else s := by
  simp only [State.enableAxis, h, Bool.true_eq_false, if_false, if_true]
  rfl

theorem State.enableAxis_falls (h : s.flag (Reg.motAxCtrl_ena a) = false) : s.enableAxis a true = s.enableLost a := by
  simp only [State.enableAxis, h, Bool.false_eq_true, if_false, Bool.not_eq_true']
  rfl

/-- The registers in which a change of EN_a shows (R231, R232), with those of a calibration that it ends (R159). -/
def enableRegs (a : Nat) : List Nat := [Reg.motAxStat a, Reg.motAxPhase a] ++ (calEndRegs ++ lostEventRegs)

theorem motAxCtrl_not_mem_enableRegs : ∀ a : Fin 8, Reg.motAxCtrl a ∉ enableRegs a := by decide

theorem motAxStat_not_mem_calAxis : ∀ a : Fin 8, Reg.motAxStat a ∉ calEndRegs ++ lostEventRegs := by decide

theorem State.rget_restoreCut {b : Nat} (h : b ≠ Reg.motAxStat a) : (s.restoreCut a).rget b = s.rget b := by
  unfold State.restoreCut
  split
  · exact State.rget_fput_otherReg h
  · rfl

theorem State.restoreCut_regs_wf (h : Regs.wf s.regs) : Regs.wf (s.restoreCut a).regs := by
  unfold State.restoreCut
  split
  · exact tput_wf _ _ h
  · exact h

theorem State.rget_enableFalls {b : Nat} (hstat : b ≠ Reg.motAxStat a) (hphase : b ≠ Reg.motAxPhase a) :
    (s.enableFalls a).rget b = s.rget b := by
  unfold State.enableFalls
  split
  · exact State.rget_fput_otherReg hphase
  · exact (State.rget_fput_otherReg hstat).trans (State.rget_fput_otherReg hstat)

theorem State.regsKept_enableLost (s : State) (a : Nat) : s.regsKept (s.enableLost a) (enableRegs a) := fun b hb => by
  obtain ⟨haxis, hend⟩ := not_or.1 (fun h => hb (List.mem_append.2 h))
  obtain ⟨hstat, hphase⟩ : b ≠ Reg.motAxStat a ∧ b ≠ Reg.motAxPhase a := by simpa using haxis
  have hfalls : ((s.restoreCut a).enableFalls a).rget b = s.rget b :=
    (State.rget_enableFalls hstat hphase).trans (State.rget_restoreCut hstat)
  unfold State.enableLost
  dsimp only
  split
  · exact (State.regsKept_calAxis _ b hend).trans hfalls
  · exact hfalls

/-- What a change of EN_a does leaves ENA itself (R231). -/
theorem State.flag_ena_enableAxis (a : Fin 8) (was : Bool) :
    (s.enableAxis a was).flag (Reg.motAxCtrl_ena a) = s.flag (Reg.motAxCtrl_ena a) := by
  have hstat : Reg.motAxCtrl a ≠ Reg.motAxStat a := by unfold Reg.motAxCtrl Reg.motAxStat; omega
  cases hon : s.flag (Reg.motAxCtrl_ena a) with
  | false =>
    cases was with
    | false => rw [State.enableAxis_same hon, hon]
    | true =>
      rw [State.enableAxis_falls hon,
        State.flag_of_regsKept (s.regsKept_enableLost a) (motAxCtrl_not_mem_enableRegs a), hon]
  | true =>
    cases was with
    | false =>
      rw [State.enableAxis_rises hon, ← hon]
      split
      · exact congrArg (· == 1) ((State.fget_fput_otherReg hstat).trans (State.fget_fput_otherReg hstat))
      · rfl
    | true => rw [State.enableAxis_same hon, hon]

/-- The position of an axis that does not feed is lost with its enable: REF falls and UNC rises (R231, R233). -/
theorem State.enableFalls_position (h : Regs.wf s.regs) (ha : 2 ≤ a) :
    (s.enableFalls a).flag (Reg.motAxStat_ref a) = false ∧ (s.enableFalls a).flag (Reg.motAxStat_unc a) = true := by
  have href : (Reg.motAxStat_ref a).lo + (Reg.motAxStat_ref a).w ≤ 32 := by simp [Reg.motAxStat_ref]
  have hunc : (Reg.motAxStat_unc a).lo + (Reg.motAxStat_unc a).w ≤ 32 := by simp [Reg.motAxStat_unc]
  have hapart : (Reg.motAxStat_unc a).lo + (Reg.motAxStat_unc a).w ≤ (Reg.motAxStat_ref a).lo := by
    simp [Reg.motAxStat_unc, Reg.motAxStat_ref]
  unfold State.enableFalls State.flag
  rw [if_neg (by omega), State.fget_fput_other (State.fput_regs h) hunc (.inr (.inr hapart)), State.fget_fput h href,
    State.fget_fput (State.fput_regs h) hunc]
  exact ⟨rfl, rfl⟩

theorem State.enableLost_position (h : Regs.wf s.regs) (a : Fin 8) (ha : 2 ≤ a.val) :
    (s.enableLost a).flag (Reg.motAxStat_ref a) = false ∧ (s.enableLost a).flag (Reg.motAxStat_unc a) = true := by
  have hfalls := State.enableFalls_position (State.restoreCut_regs_wf (a := a) h) ha
  unfold State.enableLost
  dsimp only
  split
  · rw [State.flag_of_regsKept (State.regsKept_calAxis _) (motAxStat_not_mem_calAxis a),
      State.flag_of_regsKept (State.regsKept_calAxis _) (motAxStat_not_mem_calAxis a)]
    exact hfalls
  · exact hfalls

/-- A refused write of a register that is no word of a multi-word value (R349). -/
theorem State.pathWrite_refused {b : Nat} (h : s.reaches p) (hreason : s.regReason p b v ≠ 0) (hgroup : writeGroup b = none) :
    s.pathWrite p b v = s.regRefused p b v (s.regReason p b v) := by
  have hlost : s.sys.ctlLost = false := h.1.2
  simp [State.pathWrite, State.access_of_reaches h, State.regWrite, hlost, hreason, State.dropHeld, hgroup]

/-- A refusal for reason 4 shows as REG_REFUSED and as CONFLICT, but on the debug port (R349, R350, R401). -/
theorem State.regRefused_conflict {b : Nat} (h : p ≠ .dbg) :
    s.regRefused p b v 4 =
      (s.raise 0x0006 .warn (pathNum p) (pf 22 1 4 + pf 24 4 b + pf 28 4 v.toNat)).raise 0x0007 .warn (pathNum p)
        (pf 22 1 1 + pf 24 4 b) := if_neg h

/-- MOT_AX_a_CTRL may be written on every path, and is no word of a multi-word value. -/
theorem motAxCtrl_writable : ∀ a : Fin 8,
    sealReg (Reg.motAxCtrl a) = false ∧ writeGroup (Reg.motAxCtrl a) = none := by
  decide

/-- The rules of state of the video, converter and light blocks do not name MOT_AX_a_CTRL. -/
theorem motAxCtrl_unruled : ∀ a : Fin 8,
    (List.range 4).find? (fun b => Reg.vfeScbCmd b == Reg.motAxCtrl a) = none ∧
      famIx Reg.adcGrpCtrl 65 (Reg.motAxCtrl a) = none ∧
      (List.range 2).find? (fun b => Reg.shdBankCtrl b == Reg.motAxCtrl a) = none ∧ engAt (Reg.motAxCtrl a) = none := by
  decide

theorem find_motAxCtrl : ∀ a : Fin 8,
    (List.range 8).find? (fun x => Reg.motAxCtrl x / 256 == Reg.motAxCtrl a / 256) = some a.val := by
  decide

theorem State.lightReason_motAxCtrl (a : Fin 8) (v : Nat) : s.lightReason (Reg.motAxCtrl a) v = 0 := by
  obtain ⟨hscb, hgrp, hbank, heng⟩ := motAxCtrl_unruled a
  have hne : Reg.motAxCtrl a ≠ Reg.vfeCtrl ∧ Reg.motAxCtrl a ≠ Reg.lmpCtrl ∧ Reg.motAxCtrl a ≠ Reg.shdBank := by
    unfold Reg.motAxCtrl Reg.vfeCtrl Reg.lmpCtrl Reg.shdBank
    omega
  simp only [State.lightReason, if_neg hne.1, if_neg hne.2.1, if_neg hne.2.2, hscb, hgrp, hbank, heng]

theorem valueBad_motAxCtrl (get : Nat → Nat) (volt : Nat → Bool) (bin : Bool) (a : Fin 8) (w : Nat) :
    valueBad get volt bin (Reg.motAxCtrl a) w = false := by
  have hblock := (motAxCtrl_block a.isLt).1
  have hspeed : Reg.motAxCtrl a ≠ Reg.motAxSpeed a := by unfold Reg.motAxCtrl Reg.motAxSpeed; omega
  have hvstart : Reg.motAxCtrl a ≠ Reg.motAxVstart a := by unfold Reg.motAxCtrl Reg.motAxVstart; omega
  have hramp : ¬ (Reg.motAxCtrl a = Reg.motAxAcc a ∨ Reg.motAxCtrl a = Reg.motAxDec a) := by
    unfold Reg.motAxCtrl Reg.motAxAcc Reg.motAxDec; omega
  have hnm : Reg.motAxCtrl a ≠ Reg.motAxNm a := by unfold Reg.motAxCtrl Reg.motAxNm; omega
  have hpulse : Reg.motAxCtrl a ≠ Reg.motAxPulse a := by unfold Reg.motAxCtrl Reg.motAxPulse; omega
  simp only [valueBad, hblock, badMotion, find_motAxCtrl, if_neg hspeed, if_neg hvstart, if_neg hramp, if_neg hnm,
    if_neg hpulse]

/-- A word that would let EN_a fall in a move, or that of a feed axis in a job or a couch, conflicts (R231). -/
theorem State.senseReason_enaFalls (a : Fin 8) {v w : Nat} (hon : s.flag (Reg.motAxCtrl_ena a) = true)
    (hoff : fld w (Reg.motAxCtrl_ena a) = 0)
    (hbusy : s.moving a = true ∨ (a.val < 2 ∧ (s.running = true ∨ s.mot.couch ≠ none))) :
    s.senseReason (Reg.motAxCtrl a) v w = 4 := by
  have hne : Reg.motAxCtrl a ≠ Reg.nzlCtrl ∧ Reg.motAxCtrl a ≠ Reg.monCtrl ∧ Reg.motAxCtrl a ≠ Reg.monInj := by
    unfold Reg.motAxCtrl Reg.nzlCtrl Reg.monCtrl Reg.monInj
    omega
  have hkept : (s.moving a || (decide (a.val < 2) && (s.running || s.mot.couch.isSome))) = true := by
    simpa [Option.isSome_iff_ne_none] using hbusy
  simp only [State.senseReason, if_neg hne.1, if_neg hne.2.1, if_neg hne.2.2, find_motAxCtrl, hon, hoff, hkept,
    if_true, beq_self_eq_true, Bool.and_self]

/-- The enable that the settings will hold is the one written, whatever pends (R231). -/
theorem State.fld_ena_newWord (a : Fin 8) (v : Nat) :
    fld (s.newWord motAxCtrlDesc (Reg.motAxCtrl a) v) (Reg.motAxCtrl_ena a) = fld v (Reg.motAxCtrl_ena a) := by
  obtain ⟨hfit, hones⟩ := motAxCtrl_ena_bit a
  have hmask : fieldMask motAxCtrlDesc.flds (fun f => f.acc == .rw || f.acc == .rws) = 1 := by decide
  unfold State.newWord
  rw [State.writable_eq fun _ => famIx_lmpZoneCfg_motAxCtrl a, hmask]
  exact bitsAt_blend_of_ones hfit hones

theorem State.regReason_enaFalls (a : Fin 8) (hbare : s.bare = false) (hon : s.flag (Reg.motAxCtrl_ena a) = true)
    (hoff : fld v.toNat (Reg.motAxCtrl_ena a) = 0)
    (hbusy : s.moving a = true ∨ (a.val < 2 ∧ (s.running = true ∨ s.mot.couch ≠ none))) :
    s.regReason p (Reg.motAxCtrl a) v = 4 := by
  obtain ⟨hseal, hgroup⟩ := motAxCtrl_writable a
  have hwrites : (!motAxCtrlDesc.writes || heldOnly (Reg.motAxCtrl a)) = false := by
    rw [heldOnly, hgroup]
    decide
  have hnew := (s.fld_ena_newWord a v.toNat).trans hoff
  have hrule (get : Nat → Nat) :
      s.writeReason get (Reg.motAxCtrl a) v.toNat (s.newWord motAxCtrlDesc (Reg.motAxCtrl a) v.toNat) = 4 := by
    simp only [State.writeReason, State.lightReason_motAxCtrl, State.senseReason_enaFalls a hon hnew hbusy,
      valueBad_motAxCtrl]
    rfl
  simp [State.regReason, hbare, findReg_motAxCtrl, hseal, hwrites, hrule]

/-- Settles O39: ENA is stored before EN_a follows it, and nothing that follows touches it. -/
theorem axisEnaDrivesEn : Obligations.AxisEnaDrivesEn := by
  unfold Obligations.AxisEnaDrivesEn
  refine fun s p a v hs => ⟨fun hacc hstop hhalt hencset => ?_, fun hreach hbare hon hoff hbusy => ?_⟩
  · have hwrite : s.pathWrite p (Reg.motAxCtrl a) v =
        (s.stored (Reg.motAxCtrl a) v).enableAxis a (s.flag (Reg.motAxCtrl_ena a)) := by
      rw [State.pathWrite_motAxCtrl a hacc hencset, State.stopOrHalt, if_neg (by omega), if_neg (by omega)]
    have hstored := State.flag_ena_stored hs.regs a v
    refine ⟨_, next_eq hwrite, (State.flag_ena_enableAxis a _).trans hstored, fun ha hwas hfalls => ?_⟩
    have hregs : Regs.wf (s.stored (Reg.motAxCtrl a) v).regs := by
      rw [State.stored_motAxCtrl]
      exact State.blended_regs_wf hs.regs
    rw [hwas, State.enableAxis_falls (hstored.trans (by rw [hfalls]; rfl))]
    exact State.enableLost_position hregs a ha
  · have hreason := State.regReason_enaFalls (p := p) a hbare hon hoff hbusy
    obtain ⟨-, hgroup⟩ := motAxCtrl_writable a
    have hrefused := State.pathWrite_refused hreach (by rw [hreason]; decide) hgroup
    exact ⟨next_eq (hrefused.trans (by rw [hreason])), State.regRefused_conflict⟩

end Sys2Proof.Machine
end

section
/-! Triggers and frames of the absolute ports, and the write of their control register (R234, R256 to R262, R268). -/

namespace Sys2Proof.Machine

variable {s : State} {p : Path} {n : Nat} {f : AbsFrame} {v : Word}

/-! A trigger and what leads to it (R257, R259, R262). -/

/-- A trigger on a free port starts its frame and ends a run of overruns. -/
theorem State.absTrigger_free (hruns : s.absRuns n = true) (hbusy : s.flag (Reg.posAbsStat_busy n) = false) :
    s.absTrigger n = (s.setAbs n { s.absPort n with overrun := false }).absStart n := by
  simp only [State.absTrigger, hruns, hbusy, Bool.not_true, Bool.not_false, Bool.false_eq_true, if_false, if_true]

/-- A trigger on a busy port that holds none is held and ends a run of overruns. -/
theorem State.absTrigger_held (hruns : s.absRuns n = true) (hbusy : s.flag (Reg.posAbsStat_busy n) = true)
    (hpend : s.flag (Reg.posAbsStat_pend n) = false) :
    s.absTrigger n = (s.setAbs n { s.absPort n with overrun := false }).fput (Reg.posAbsStat_pend n) 1 := by
  simp only [State.absTrigger, hruns, hbusy, hpend, Bool.not_true, Bool.not_false, Bool.false_eq_true, if_false, if_true]

/-- A further trigger is counted, and only the first of a run raises ABS_OVERRUN. -/
theorem State.absTrigger_overrun (hruns : s.absRuns n = true) (hbusy : s.flag (Reg.posAbsStat_busy n) = true)
    (hpend : s.flag (Reg.posAbsStat_pend n) = true) :
    s.absTrigger n =
      (let u := s.bump (Reg.posAbsOvr_val n) 1
       if (u.absPort n).overrun then u
       else (u.setAbs n { u.absPort n with overrun := true }).raise 0xD005 .warn n 0) := by
  simp only [State.absTrigger, hruns, hbusy, hpend, Bool.not_true, Bool.false_eq_true, if_false]

/-- A period triggers a port that runs; only a frame that starts looks at SLO. -/
theorem State.absPeriodic_triggers {ready : Bool} (hper : s.fget (Reg.posAbsTrig_per n) ≠ 0) (hruns : s.absRuns n = true) :
    s.absPeriodic n ready =
      if !s.flag (Reg.posAbsStat_busy n) && !ready then (s.absTrigger n).absNotReady n else s.absTrigger n := by
  have hgoes : ¬ (s.fget (Reg.posAbsTrig_per n) = 0 || !s.absRuns n) = true := by simp [hper, hruns]
  exact if_neg hgoes

/-- What was put under a key is read there whether or not the table is canonical, unless it is the key's default, which a table
does not store. -/
theorem tget_tput_self {α : Type} [DecidableEq α] {d : Nat → α} {key : Nat} {x : α} (hx : x ≠ d key) (t : Table α) :
    tget d (tput d t key x) key = x := by
  induction t with
  | nil => simp [tput, tget, hx]
  | cons a r ih =>
    unfold tput
    split
    · simp [tget]
    · split
      · simp [tget]
      · next hother => simp [tget, hother, ih]

theorem State.absPort_setAbs {x : AbsPort} (hx : x ≠ AbsPort.init) : (s.setAbs n x).absPort n = x := tget_tput_self hx _

/-- A port whose frame starts has a frame in progress. -/
theorem State.absStart_frame (s : State) (n : Nat) : ((s.absStart n).absPort n).frame = true := by
  have hput (x : AbsPort) (hframe : x.frame = true) :
      (((s.setAbs n x).fput (Reg.posAbsStat_busy n) 1).absPort n).frame = true := by
    have hx : x ≠ AbsPort.init := fun h => by simp [h, AbsPort.init] at hframe
    have hport : ((s.setAbs n x).fput (Reg.posAbsStat_busy n) 1).absPort n = x := State.absPort_setAbs (s := s) hx
    rw [hport, hframe]
  exact hput _ rfl

section
variable {ready : Bool} (hbusy : s.flag (Reg.posAbsStat_busy n) = true) (hframe : (s.absPort n).frame = false)
include hbusy hframe

/-- The end of a recovery leaves the port free, and a held trigger looks at SLO when its frame starts. -/
theorem State.absRecovered_busy :
    s.absRecovered n ready =
      (let u := s.fput (Reg.posAbsStat_busy n) 0
       let t := u.absHeld n
       if u.flag (Reg.posAbsStat_pend n) && !ready && (t.absPort n).frame then t.absNotReady n else t) := by
  simp only [State.absRecovered, hbusy, hframe, Bool.not_true, Bool.or_false, Bool.false_eq_true, if_false]

theorem State.absRecovered_nothingHeld (hpend : (s.fput (Reg.posAbsStat_busy n) 0).flag (Reg.posAbsStat_pend n) = false) :
    s.absRecovered n ready = s.fput (Reg.posAbsStat_busy n) 0 := by
  rw [State.absRecovered_busy hbusy hframe]
  simp only [State.absHeld, hpend, Bool.false_and, Bool.false_eq_true, if_false]

/-- A port that is no longer enabled drops the trigger it holds (log entry 64). -/
theorem State.absRecovered_dropped (hpend : (s.fput (Reg.posAbsStat_busy n) 0).flag (Reg.posAbsStat_pend n) = true)
    (hen : ((s.fput (Reg.posAbsStat_busy n) 0).fput (Reg.posAbsStat_pend n) 0).flag (Reg.posAbsCfg_en n) = false) :
    s.absRecovered n ready = (s.fput (Reg.posAbsStat_busy n) 0).fput (Reg.posAbsStat_pend n) 0 := by
  have hnone : (((s.fput (Reg.posAbsStat_busy n) 0).fput (Reg.posAbsStat_pend n) 0).absPort n).frame = false := hframe
  rw [State.absRecovered_busy hbusy hframe]
  simp only [State.absHeld, hpend, hen, hnone, Bool.and_false, Bool.false_eq_true, if_true, if_false]

theorem State.absRecovered_starts (hpend : (s.fput (Reg.posAbsStat_busy n) 0).flag (Reg.posAbsStat_pend n) = true)
    (hen : ((s.fput (Reg.posAbsStat_busy n) 0).fput (Reg.posAbsStat_pend n) 0).flag (Reg.posAbsCfg_en n) = true) :
    s.absRecovered n ready =
      (let t := ((s.fput (Reg.posAbsStat_busy n) 0).fput (Reg.posAbsStat_pend n) 0).absStart n
       if ready then t else t.absNotReady n) := by
  rw [State.absRecovered_busy hbusy hframe]
  simp only [State.absHeld, hpend, hen, if_true, State.absStart_frame, Bool.true_and, Bool.and_true]
  cases ready <;> rfl

end

/-! Frames that end (R234, R257, R258, R260). -/

theorem State.absEnded_notReady (hframe : (s.absPort n).frame = true) (hready : f.ready = false) :
    s.absEnded n f = s.absNotReady n := by
  simp only [State.absEnded, hframe, hready, Bool.not_true, Bool.not_false, Bool.false_eq_true, if_false, if_true]

/-- A frame that found SLO high is evaluated, and an axis that waits takes a valid word. -/
theorem State.absEnded_ready (hframe : (s.absPort n).frame = true) (hready : f.ready = true) :
    s.absEnded n f =
      if (s.absFrame n f).flag (Reg.posAbsStat_valid n) then (s.absFrame n f).posRestore n else s.absFrame n f := by
  simp only [State.absEnded, hframe, hready, Bool.not_true, Bool.false_eq_true, if_false]

/-- Of as many samples as were given, those from `i` on are a part of the list. -/
theorem AbsFrame.at_eq_take_drop {samples : List Bool} {i k : Nat} (h : i + k ≤ samples.length) :
    AbsFrame.at samples i k = (samples.drop i).take k := by
  unfold AbsFrame.at
  refine List.ext_getElem (by simp; omega) fun j hj _ => ?_
  have hlt : i + j < samples.length := by
    rw [List.length_map, List.length_range] at hj
    omega
  rw [List.getElem_map, List.getElem_range, List.getD_eq_getElem _ _ hlt, List.getElem_take, List.getElem_drop]

section
variable (hssi : cfgBiss (s.absPort n).cfg = false)
include hssi

theorem State.absFrame_ssi : s.absFrame n f = s.ssiFrame n f := if_neg (by simp [hssi])

/-- A high sample in the monoflop time (R257). -/
theorem State.absFrame_monoflopHigh
    (hhigh : f.samples.getD (cfgLead (s.absPort n).cfg + cfgDlen (s.absPort n).cfg) false = true) :
    s.absFrame n f = s.absFail n 2 := by
  rw [State.absFrame_ssi hssi]
  exact if_pos hhigh

/-- The word stands behind the LEAD samples (R257). -/
theorem State.absFrame_monoflopLow
    (hlow : f.samples.getD (cfgLead (s.absPort n).cfg + cfgDlen (s.absPort n).cfg) false = false)
    (hlen : cfgLead (s.absPort n).cfg + cfgDlen (s.absPort n).cfg ≤ f.samples.length) :
    s.absFrame n f = s.absJump n (cfgWord (s.absPort n).cfg
      ((f.samples.drop (cfgLead (s.absPort n).cfg)).take (cfgDlen (s.absPort n).cfg))) := by
  rw [State.absFrame_ssi hssi, ← AbsFrame.at_eq_take_drop hlen]
  exact if_neg (Bool.eq_false_iff.1 hlow)

end

section
variable {err : Nat} (hframe : (s.absPort n).frame = true) (hbiss : cfgBiss (s.absPort n).cfg = true)
include hframe hbiss

/-- A BiSS frame without an Ack fails and has no line delay to show (R258). -/
theorem State.bissFails_unmeasured : s.bissFails n err none = s.absFail n err := if_pos (by simp [hframe, hbiss])

/-- A BiSS frame that fails behind its Ack shows the line delay (R258, R268). -/
theorem State.bissFails_measured (ld : BitVec 11) :
    s.bissFails n err (some ld) = (s.fput (Reg.posAbsStat_ld n) ld.toNat).absFail n err :=
  if_pos (by simp [hframe, hbiss])

end

/-! The write of a port's control register (R256, R261, R262). -/

theorem posAbsCtrl_injective : Function.Injective Reg.posAbsCtrl := fun m n h => by
  unfold Reg.posAbsCtrl at h
  omega

theorem posAbsCtrl_plain : ∀ n : Fin 4,
    plainReg (Reg.posAbsCtrl n) = true ∧ claimRegs.contains (Reg.posAbsCtrl n) = false := by
  decide

/-- The control register of an absolute port lies in the block of the ports. -/
theorem posAbsCtrl_block : ∀ n : Fin 4, Reg.posAbsCtrl n / 0x10000 = 0x15 := by decide

/-- A write of a port's control register claims no port: it stands behind the port's configuration (R256). -/
theorem State.claimPort_posAbsCtrl (s : State) (n : Fin 4) : s.claimPort (Reg.posAbsCtrl n) = s := by
  have hoffset : Reg.posAbsCtrl n - Reg.posAbsCfg 0 = 0x10 + 0x40 * n := by unfold Reg.posAbsCtrl Reg.posAbsCfg; omega
  have hqei : ¬ Reg.posQeiCfg 0 ≤ Reg.posAbsCtrl n := by
    have hn := n.isLt
    unfold Reg.posAbsCtrl Reg.posQeiCfg
    omega
  unfold State.claimPort
  rw [if_neg (by rw [hoffset]; omega), if_neg (fun h => hqei h.1)]

/-- CLRUNC clears JUNC before REQ triggers the port. -/
theorem State.effect_posAbsCtrl {before : State} {v : Nat} (n : Fin 4) :
    s.effect before p (Reg.posAbsCtrl n) v =
      (let t := if fld v (Reg.posAbsCtrl_clrunc n) = 1 then (s.fput (Reg.posAbsStat_junc n) 0).absUnc n else s
       if fld v (Reg.posAbsCtrl_req n) = 1 then t.absTrigger n else t) := by
  simp only [State.effect, posAbsCtrl_block, State.claimPort_posAbsCtrl, State.effectPos,
    famIx_apply posAbsCtrl_injective n.isLt]

theorem State.pathWrite_posAbsCtrl (n : Fin 4) (h : s.accepts p (Reg.posAbsCtrl n) v) :
    s.pathWrite p (Reg.posAbsCtrl n) v =
      (let t := if fld v.toNat (Reg.posAbsCtrl_clrunc n) = 1 then
         ((s.stored (Reg.posAbsCtrl n) v).fput (Reg.posAbsStat_junc n) 0).absUnc n else s.stored (Reg.posAbsCtrl n) v
       if fld v.toNat (Reg.posAbsCtrl_req n) = 1 then t.absTrigger n else t) := by
  obtain ⟨hplain, hclaim⟩ := posAbsCtrl_plain n
  rw [State.pathWrite_unclaimed hplain hclaim h, State.effect_posAbsCtrl]

/-- Settles O44: a trigger by what the port does and holds, a write by its two fields, a frame by how it ends. -/
theorem absTriggers : Obligations.AbsTriggers := by
  unfold Obligations.AbsTriggers
  refine ⟨fun s n => ⟨fun t hruns => ⟨State.absTrigger_free hruns, State.absTrigger_held hruns, State.absTrigger_overrun hruns⟩,
    fun p v hacc => ?write, fun hup hper hruns => ?period, fun hup hbusy hframe => ?recovery⟩,
    fun s n hup hframe => ⟨fun f => ⟨fun hready => next_live hup (State.absEnded_notReady hframe hready),
      fun hready hvalid => ?valid, fun hready hvalid => ?invalid,
      fun hssi => ⟨State.absFrame_monoflopHigh hssi, State.absFrame_monoflopLow hssi⟩⟩, fun hbiss => ?biss⟩⟩
  case write =>
    have hwrite := State.pathWrite_posAbsCtrl n hacc
    refine ⟨fun hno hreq => next_eq (hwrite.trans ?_), fun hclr hno => next_eq (hwrite.trans ?_)⟩
    · simp only [hno, hreq, Nat.zero_ne_one, if_true, if_false]
    · simp only [hclr, hno, Nat.zero_ne_one, if_true, if_false]
  case period =>
    refine ⟨next_live hup ((State.absPeriodic_triggers hper hruns).trans (if_neg (by simp))), fun hfree => ?_⟩
    exact next_live hup ((State.absPeriodic_triggers hper hruns).trans (if_pos (by simp [hfree])))
  case recovery =>
    exact ⟨fun hpend _ => next_live hup (State.absRecovered_nothingHeld hbusy hframe hpend), fun hpend =>
      ⟨fun hen _ => next_live hup (State.absRecovered_dropped hbusy hframe hpend hen), fun hen =>
        ⟨next_live hup (State.absRecovered_starts hbusy hframe hpend hen),
          next_live hup (State.absRecovered_starts hbusy hframe hpend hen)⟩⟩⟩
  case valid => exact next_live hup ((State.absEnded_ready hframe hready).trans (if_pos hvalid))
  case invalid => exact next_live hup ((State.absEnded_ready hframe hready).trans (if_neg (by simp [hvalid])))
  case biss =>
    exact ⟨next_live hup (State.bissFails_unmeasured hframe hbiss),
      fun ld => next_live hup (State.bissFails_measured hframe hbiss ld),
      fun ld => next_live hup (State.bissFails_measured hframe hbiss ld)⟩

end Sys2Proof.Machine
end

section
/-!
Writes of the monitor's registers (R275, R277, R280 to R282, R284, R288).
-/

namespace Sys2Proof.Machine

variable {s : State} {p : Path} {v : Word}

/-- The monitor's block acts on a write of its registers (R8). -/
theorem State.effect_mon {before : State} {a v : Nat} (hblock : a / 0x10000 = 0x16) :
    s.effect before p a v = s.effectMon before a v := by
  simp only [State.effect, hblock]

/-! The registers of the monitor as a whole: the calibration, the sequence and the injected conversions. -/

/-- A new AGE is applied before CAL asks for a calibration (R277, R281). -/
theorem State.pathWrite_monCtrl_cal (h : s.accepts p Reg.monCtrl v) (hcal : fld v.toNat Reg.monCtrl_cal = 1) :
    s.pathWrite p Reg.monCtrl v =
      (let t := (s.stored Reg.monCtrl v).ageChanged (s.fget Reg.monCtrl_age)
       { t with mon := { t.mon with calReq := true } }) := by
  rw [State.pathWrite_unclaimed (by decide) (by decide) h, State.effect_mon (by decide), State.effectMon, if_pos rfl]
  exact if_pos hcal

/-- TSRC claims an EVI input for the sequence, so the write of its register ends with the claims (R376). -/
theorem State.pathWrite_monSeqCtrl_req (h : s.accepts p Reg.monSeqCtrl v) (hreq : fld v.toNat Reg.monSeqCtrl_req = 1) :
    s.pathWrite p Reg.monSeqCtrl v = ((s.stored Reg.monSeqCtrl v).monTriggerBy 0).reclaim := by
  rw [State.pathWrite_claims (by decide) (by decide) h, State.effect_mon (by decide), State.effectMon,
    if_neg (by decide), if_pos rfl, if_pos hreq]

/-- An injected conversion goes to the end of the queue (R284). -/
def State.injected (s : State) (ch : Nat) (notify : Bool) : State :=
  ({ s with mon := { s.mon with inj := s.mon.inj ++ [(ch, notify)] } } : State).fput Reg.monStat_inj_pend
    (s.mon.inj.length + 1)

theorem State.pathWrite_monInj_go (h : s.accepts p Reg.monInj v) (hgo : fld v.toNat Reg.monInj_go = 1) :
    s.pathWrite p Reg.monInj v =
      (s.stored Reg.monInj v).injected (fld v.toNat Reg.monInj_ch) (fld v.toNat Reg.monInj_notify == 1) := by
  rw [State.pathWrite_unclaimed (by decide) (by decide) h, State.effect_mon (by decide), State.effectMon,
    if_neg (by decide), if_neg (by decide), if_pos rfl, if_pos hgo]
  simp only [State.injected, List.length_append, List.length_singleton]

/-! The registers of a channel. -/

/-- A register of the channels lies behind those of the monitor as a whole, and its writes claim nothing (R376). -/
def monChanReg (a : Nat) : Bool :=
  plainReg a && claimRegs.contains a == false && a / 0x1000 == 0x161

theorem monChanReg_channel : ∀ n : Fin 16, monChanReg (Reg.monChCfg n) = true ∧ monChanReg (Reg.monChCmwin n) = true ∧
    monChanReg (Reg.monChCtrl n) = true := by
  decide

theorem monChanReg_ne {a : Nat} (ha : monChanReg a = true) :
    a ≠ Reg.monCtrl ∧ a ≠ Reg.monSeqCtrl ∧ a ≠ Reg.monInj ∧ a ≠ Reg.monBlank := by
  simp only [monChanReg, Bool.and_eq_true, beq_iff_eq] at ha
  unfold Reg.monCtrl Reg.monSeqCtrl Reg.monInj Reg.monBlank
  omega

theorem State.pathWrite_monChan {a : Nat} (ha : monChanReg a = true) (h : s.accepts p a v) :
    s.pathWrite p a v = (s.stored a v).effectMon s a v.toNat := by
  simp only [monChanReg, Bool.and_eq_true, beq_iff_eq] at ha
  obtain ⟨⟨hplain, hclaim⟩, hpage⟩ := ha
  rw [State.pathWrite_unclaimed hplain hclaim h, State.effect_mon (by omega)]

theorem famIx_monChCfg : ∀ n : Fin 16, famIx Reg.monChCfg 16 (Reg.monChCfg n) = some n.val := by decide

theorem famIx_monChCmwin : ∀ n : Fin 16, famIx Reg.monChCfg 16 (Reg.monChCmwin n) = none ∧
    famIx Reg.monChCmwin 16 (Reg.monChCmwin n) = some n.val := by
  decide

theorem famIx_monChCtrl : ∀ n : Fin 16, famIx Reg.monChCfg 16 (Reg.monChCtrl n) = none ∧
    famIx Reg.monChCmwin 16 (Reg.monChCtrl n) = none ∧ famIx Reg.monChCtrl 16 (Reg.monChCtrl n) = some n.val := by
  decide

/-- EN, FORM, EXC and GAIN are the settings whose change restarts a channel (R288). FAULT then follows from the constants there
are, unless a calibration will decide it (R280). -/
theorem State.pathWrite_monChCfg (n : Fin 16) (h : s.accepts p (Reg.monChCfg n) v) :
    s.pathWrite p (Reg.monChCfg n) v =
      (let t := s.stored (Reg.monChCfg n) v
       if chanKey n (s.rget (Reg.monChCfg n)).toNat = chanKey n (t.rget (Reg.monChCfg n)).toNat then t
       else
         let u := t.monChanged n (s.monHeld n)
         if u.mon.calFirst || u.flag Reg.monStat_cal_busy then u else u.faultUpdate) := by
  obtain ⟨hreg, -, -⟩ := monChanReg_channel n
  obtain ⟨hctrl, hseq, hinj, hblank⟩ := monChanReg_ne hreg
  simp only [State.pathWrite_monChan hreg h, State.effectMon, if_neg hctrl, if_neg hseq, if_neg hinj, if_neg hblank,
    famIx_monChCfg n]

/-- A new common-mode window restarts its channel (R288). -/
theorem State.pathWrite_monChCmwin (n : Fin 16) (h : s.accepts p (Reg.monChCmwin n) v) :
    s.pathWrite p (Reg.monChCmwin n) v =
      (let t := s.stored (Reg.monChCmwin n) v
       if s.rget (Reg.monChCmwin n) = t.rget (Reg.monChCmwin n) then t else t.monChanged n (s.monHeld n)) := by
  obtain ⟨-, hreg, -⟩ := monChanReg_channel n
  obtain ⟨hctrl, hseq, hinj, hblank⟩ := monChanReg_ne hreg
  obtain ⟨hcfg, hwin⟩ := famIx_monChCmwin n
  simp only [State.pathWrite_monChan hreg h, State.effectMon, if_neg hctrl, if_neg hseq, if_neg hinj, if_neg hblank, hcfg,
    hwin]

/-- LOAD marks the channel, whose next conversion takes its polynomial (R275). -/
theorem State.pathWrite_monChCtrl_load (n : Fin 16) (h : s.accepts p (Reg.monChCtrl n) v)
    (hload : fld v.toNat (Reg.monChCtrl_load n) = 1) :
    s.pathWrite p (Reg.monChCtrl n) v =
      (let t := s.stored (Reg.monChCtrl n) v
       t.setChan n { t.chan n with load := true }) := by
  obtain ⟨-, -, hreg⟩ := monChanReg_channel n
  obtain ⟨hctrl, hseq, hinj, hblank⟩ := monChanReg_ne hreg
  obtain ⟨hcfg, hwin, hchan⟩ := famIx_monChCtrl n
  simp only [State.pathWrite_monChan hreg h, State.effectMon, if_neg hctrl, if_neg hseq, if_neg hinj, if_neg hblank, hcfg,
    hwin, hchan, if_pos hload]

/-- Settles O47: a write by its register, a channel's settings by whether the write changes them. -/
theorem monitorWrites : Obligations.MonitorWrites := by
  unfold Obligations.MonitorWrites
  exact fun s p v => ⟨fun hacc hcal => next_eq (State.pathWrite_monCtrl_cal hacc hcal),
    fun hacc hreq hhost => next_eq ((State.pathWrite_monSeqCtrl_req hacc hreq).trans (congrArg State.reclaim (if_pos hhost))),
    fun hacc hgo => next_eq (State.pathWrite_monInj_go hacc hgo),
    fun n hacc hload => next_eq (State.pathWrite_monChCtrl_load n hacc hload),
    fun n hacc => ⟨fun hsame => next_eq ((State.pathWrite_monChCfg n hacc).trans (if_pos hsame)),
      fun hnew => next_eq ((State.pathWrite_monChCfg n hacc).trans (if_neg hnew))⟩,
    fun n hacc hnew => next_eq ((State.pathWrite_monChCmwin n hacc).trans (if_neg hnew))⟩

end Sys2Proof.Machine
end

section
/-!
What holds of every command: the state stays sound, the queue stays as it was, and FUSE_DONE alone changes a fuse (R342, R358,
R383).
-/

namespace Sys2Proof.Machine

variable {s : State}

/-- A sound state keeps its own queue and its own fuses. -/
theorem State.Sound.keeps (h : s.Sound) : s.Keeps (s.pending, s.sec.fuses) := ⟨h, rfl, rfl⟩

/-- A state stays sound when commands leave its queue. -/
theorem State.Sound.dequeued (h : s.Sound) (l : List Instr) : State.Sound { s with pending := l } :=
  ⟨h.mem, h.regs, h.staging⟩

theorem State.Sound.idle (h : s.Sound) : s.idle.Sound := by
  unfold State.idle
  split
  · exact h
  · exact ⟨h.mem, h.regs, h.staging⟩

/-- Settles O1. -/
theorem stepRunsFrontCommand : Obligations.StepRunsFrontCommand := by
  unfold Obligations.StepRunsFrontCommand
  exact fun _ _ _ => rfl

/-- Settles O4, by whether a command waits: the empty queue idles, and every command keeps the state sound. -/
theorem stepKeepsSound : Obligations.StepKeepsSound := by
  unfold Obligations.StepKeepsSound
  intro s hs
  unfold step
  split
  case h_1 => exact ⟨_, rfl, hs.idle⟩
  case h_2 c rest _ =>
    obtain ⟨_, t, hexec, ht⟩ := exec_total c (hs.dequeued rest).keeps
    exact ⟨t, hexec, ht.sound⟩

/-- Settles O5. -/
theorem execKeepsQueue : Obligations.ExecKeepsQueue := by
  unfold Obligations.ExecKeepsQueue
  intro c s hs
  obtain ⟨_, t, hexec, ht⟩ := exec_total c hs.keeps
  exact ⟨t, hexec, ht.rest.1⟩

theorem State.fuseDone_idle {ok : Bool} (h : s.sec.burning = none) : s.fuseDone ok = s := by
  unfold State.fuseDone
  rw [h]

/-- A fuse operation that reads back ill ends with FERR (R384). -/
theorem State.fuseDone_failed {x : Nat × List Word} (h : s.sec.burning = some x) :
    s.fuseDone false = State.fput { s with sec := { s.sec with burning := none } } Reg.secStat_ferr 1 := by
  unfold State.fuseDone
  rw [h]
  rfl

/-- FUSE_DONE burns nothing when the operation failed, when none burns, or where the control island does not act. -/
theorem fuseDone_keepsFuses {ok : Bool}
    (h : ok = false ∨ s.sec.burning = none ∨ s.cfg.held = true ∨ s.sys.ctlLost = true) :
    (s.ctl fun u => u.fuseDone ok).sec.fuses = s.sec.fuses := by
  have hdone (hburn : ok = false ∨ s.sec.burning = none) : (s.fuseDone ok).sec.fuses = s.sec.fuses := by
    cases hsec : s.sec.burning with
    | none => rw [State.fuseDone_idle hsec]
    | some x =>
      obtain rfl : ok = false := hburn.resolve_right (by simp [hsec])
      rw [State.fuseDone_failed hsec]
      rfl
  rcases h with h | h | h | h <;> unfold State.ctl
  · split
    · rfl
    · exact hdone (.inl h)
  · split
    · rfl
    · exact hdone (.inr h)
  · simp [h]
  · simp [h]

/-- Settles O6: FUSE_DONE by its own cases, every other command because it keeps the fuses. -/
theorem onlyFuseDoneChangesFuses : Obligations.OnlyFuseDoneChangesFuses := by
  unfold Obligations.OnlyFuseDoneChangesFuses
  intro c s hs
  by_cases hc : ∃ ok, c = .fuseDone ok
  · obtain ⟨ok, rfl⟩ := hc
    exact ⟨_, rfl, fun h => fuseDone_keepsFuses (h ok rfl)⟩
  · obtain ⟨t, hexec, ht⟩ := exec_keeps (fun ok h => hc ⟨ok, h⟩) hs.keeps
    exact ⟨t, hexec, fun _ => ht.rest.2⟩

end Sys2Proof.Machine
end

section
/-! A register write that a rule refuses (R349, R401). -/

namespace Sys2Proof.Machine

variable {s t : State} {p : Path}

theorem State.stage_mem {e : Event} : (s.stage e).mem = s.mem := by
  unfold State.stage
  split
  · rfl
  · split
    · rfl
    · split <;> rfl

theorem State.raise_mem {code src pay : Nat} {sev : Sev} : (s.raise code sev src pay).mem = s.mem :=
  State.stage_mem (s := s.stamp.2)

theorem State.regsKept.both {l : List Nat} {u : State} (h : s.regsKept t l) (h' : t.regsKept u l) : s.regsKept u l :=
  fun b hb => (h' b hb).trans (h b hb)

/-- REG_REFUSED, and CONFLICT beside it, touch the event queue alone. -/
theorem State.regsKept_regRefused {a reason : Nat} {v : Word} (h : p ≠ .dbg) :
    s.regsKept (s.regRefused p a v reason) lostEventRegs := by
  unfold State.regRefused
  rw [if_neg h]
  split
  · exact State.regsKept.both (State.regsKept_raise s _ _ _ _) (State.regsKept_raise _ _ _ _ _)
  · exact s.regsKept_raise _ _ _ _

theorem State.regRefused_mem {a reason : Nat} {v : Word} : (s.regRefused p a v reason).mem = s.mem := by
  unfold State.regRefused
  split
  · rfl
  · dsimp only
    split
    · exact State.raise_mem.trans State.raise_mem
    · exact State.raise_mem

/-- Settles O8: the refusal stands in for the write, and its events touch the event queue alone. -/
theorem refusedWriteRaisesRegRefused : Obligations.RefusedWriteRaisesRegRefused := by
  unfold Obligations.RefusedWriteRaisesRegRefused
  exact fun s p a v hreach hreason hgroup => ⟨next_eq (State.pathWrite_refused hreach hreason hgroup),
    fun hp _ => ⟨State.regsKept_regRefused hp, State.regRefused_mem⟩⟩

end Sys2Proof.Machine
end

section
/-! The two-wire target (R391 to R397, R410). -/

namespace Sys2Proof.Machine

variable {s : State}

/-- Inside its page the pointer goes to the next byte (R391). -/
theorem twbNext_inPage {p : Nat} (h : p % 32 < 31) : twbNext p = p + 1 := by
  unfold twbNext
  omega

/-- Bytes that stay in the page of the first and within the 32 of the buffer are all taken (R393). -/
theorem twbTake_all {data : List Byte} {p : Nat} {buf : List (Nat × Byte)} (hpage : p % 32 + data.length ≤ 32)
    (hroom : buf.length + data.length ≤ 32) :
    (twbTake (p / 32) data p buf).2.2 = 0 ∧ (twbTake (p / 32) data p buf).2.1.length = buf.length + data.length := by
  induction data generalizing p buf with
  | nil => exact ⟨rfl, rfl⟩
  | cons b l ih =>
    rw [List.length_cons] at hpage hroom
    have htake : twbTake (p / 32) (b :: l) p buf = twbTake (p / 32) l (twbNext p) (buf ++ [(p, b)]) :=
      if_pos ⟨rfl, by omega⟩
    have hlen : (buf ++ [(p, b)]).length = buf.length + 1 := List.length_append
    rw [htake, List.length_cons]
    cases l with
    | nil => exact ⟨rfl, hlen⟩
    | cons c r =>
      rw [List.length_cons] at hpage hroom ih
      rw [twbNext_inPage (by omega), show p / 32 = (p + 1) / 32 by omega]
      obtain ⟨hdrop, hbuf⟩ := ih (p := p + 1) (buf := buf ++ [(p, b)]) (by omega) (by omega)
      exact ⟨hdrop, by rw [hbuf, List.length_cons]; omega⟩

/-- The data bytes of a write phase whose pointer bytes are `hi` and `lo`, taken into the buffer (R393). -/
def State.twbTaken (s : State) (hi lo : Byte) (data : List Byte) : Nat × List (Nat × Byte) × Nat :=
  let p := 256 * hi.toNat + lo.toNat
  twbTake (((s.twb.buf.head?.map (·.1)).getD p) / 32) data p s.twb.buf

theorem State.twbBytes_data (s : State) (hi lo : Byte) (data : List Byte) :
    s.twbBytes (hi :: lo :: data) =
      (let r := s.twbTaken hi lo data
       ({ s with twb := { s.twb with ptr := r.1, buf := r.2.1, drop := s.twb.drop + r.2.2 } } : State).out
         (.twbAcks (List.replicate (3 + data.length - r.2.2) true ++ List.replicate r.2.2 false))) := rfl

/-- A write phase that stays in the page of the first byte buffered has all its bytes acknowledged and buffered (R393). -/
theorem State.twbTaken_all {hi lo : Byte} {data : List Byte} (hpage : (256 * hi.toNat + lo.toNat) % 32 + data.length ≤ 32)
    (hroom : s.twb.buf.length + data.length ≤ 32)
    (hfirst : ∀ e, s.twb.buf.head? = some e → e.1 / 32 = (256 * hi.toNat + lo.toNat) / 32) :
    (s.twbTaken hi lo data).2.2 = 0 ∧ (s.twbTaken hi lo data).2.1.length = s.twb.buf.length + data.length := by
  have hsame : ((s.twb.buf.head?.map (·.1)).getD (256 * hi.toNat + lo.toNat)) / 32 = (256 * hi.toNat + lo.toNat) / 32 := by
    cases hhead : s.twb.buf.head? with
    | none => rfl
    | some e => exact hfirst e hhead
  unfold State.twbTaken
  dsimp only
  rw [hsame]
  exact twbTake_all hpage hroom

theorem State.twbBytes_all {hi lo : Byte} {data : List Byte} (hpage : (256 * hi.toNat + lo.toNat) % 32 + data.length ≤ 32)
    (hroom : s.twb.buf.length + data.length ≤ 32)
    (hfirst : ∀ e, s.twb.buf.head? = some e → e.1 / 32 = (256 * hi.toNat + lo.toNat) / 32) :
    ∃ p l, l.length = s.twb.buf.length + data.length ∧ s.twbBytes (hi :: lo :: data) =
      ({ s with twb := { s.twb with ptr := p, buf := l } } : State).out
        (.twbAcks (List.replicate (3 + data.length) true)) := by
  obtain ⟨hdrop, hbuf⟩ := State.twbTaken_all hpage hroom hfirst
  refine ⟨(s.twbTaken hi lo data).1, _, hbuf, ?_⟩
  rw [State.twbBytes_data]
  dsimp only
  rw [hdrop, List.replicate_zero, List.append_nil]
  rfl

/-- The word that a read answers from the pointer on: of the target's own space or of the window (R395). -/
theorem State.twbRead_eq (s : State) (head : List (List Byte)) (last : Nat) (stop : Bool) :
    s.twbRead head last stop =
      (let t := s.twbPhases head
       let t : State := { t with twb := { t.twb with state := 2 } }
       let p := t.twb.ptr
       let r := if 0x8000 ≤ p then (t.twbLocal (p / 4), t) else t.serviceRead .twb (t.twb.win * 0x8000 + p / 4 * 4)
       let e := max last (p % 4)
       let sent := ((leBytes 4 r.1.toNat).take (e + 1)).drop (p % 4)
       let u := r.2.out (.twb sent)
       let u : State := { u with twb := { u.twb with
         ptr := sent.foldl (fun p _ => twbNext p) p, state := if stop = true ∨ e < 3 then 0 else 2 } }
       if (stop = true ∨ e < 3) ∧ (u.twb.buf ≠ [] ∨ u.twb.drop ≠ 0) then u.twbStop else u) := by
  unfold State.twbRead
  simp only [Bool.or_eq_true, Bool.and_eq_true, decide_eq_true_eq, bne_iff_ne]

/-- Settles O57: STOP, abort and stuck bus do what the model's STOP and discard do; a phase within a page loses nothing by
induction on its bytes. -/
theorem twoWire : Obligations.TwoWire := by
  unfold Obligations.TwoWire
  refine fun s hctl => ⟨fun phases => next_ctl hctl rfl, fun hi lo data hpage hroom hfirst => ?_,
    fun phases => next_ctl hctl rfl, fun ack phases => next_ctl hctl rfl,
    fun head last stop => next_ctl hctl (s.twbRead_eq head last.val stop)⟩
  obtain ⟨p, l, hlen, hbytes⟩ := State.twbBytes_all hpage hroom hfirst
  rw [hbytes]
  exact ⟨⟨p, l, rfl⟩, rfl, hlen⟩

/-- The phases of a write change the target's buffer and what has been sent alone (R393). -/
theorem State.twbPhases_eq (s : State) (phases : List (List Byte)) :
    ∃ x o, s.twbPhases phases = { s with twb := x, sent := o } := by
  unfold State.twbPhases
  refine List.foldlRecOn (motive := fun t : State => ∃ x o, t = { s with twb := x, sent := o }) _ _ ⟨s.twb, s.sent, rfl⟩ ?_
  rintro t ⟨x, o, rfl⟩ bytes -
  unfold State.twbBytes
  split <;> exact ⟨_, _, rfl⟩

/-- Settles O58: the phases leave every register, so TWB_CNT_DISC alone changes. -/
theorem twoWireAbort : Obligations.TwoWireAbort := by
  unfold Obligations.TwoWireAbort
  intro s phases hs hctl
  refine ⟨_, next_ctl hctl rfl, rfl, rfl, rfl, ?_⟩
  obtain ⟨x, o, hphases⟩ := s.twbPhases_eq phases
  have hwf : Regs.wf (s.twbPhases phases).regs := by rw [hphases]; exact hs.regs
  have hkept : (s.twbPhases phases).regs = s.regs := by rw [hphases]
  have hget (f : Fld) : (s.twbPhases phases).fget f = s.fget f := by rw [hphases]; rfl
  refine ⟨?_, ?_, ?_, ?_, ?_⟩
  · exact (State.fget_bump hwf (by decide)).trans (by rw [hget]; rfl)
  · exact (State.fget_fput_other hwf (by decide) (by decide)).trans (hget _)
  · intro a ha
    exact (State.rget_fput_otherReg (List.ne_of_not_mem_cons ha)).trans (State.rget_of_regs hkept a)
  · show (s.twbPhases phases).mem = s.mem
    rw [hphases]
  · show (s.twbPhases phases).pend = s.pend
    rw [hphases]

end Sys2Proof.Machine
end

section
/-! The indicator strip (R404, R405, R408). -/

namespace Sys2Proof.Machine

variable {s : State} {e : Nat}

/-- A row slot shows the row it drives and counts it (R404). -/
theorem State.indRow_row (h : Regs.wf s.regs) :
    s.indRow.fget Reg.indStat_row = s.ind.row % 8 ∧ s.indRow.ind.row = s.ind.row % 8 + 1 := by
  have hrow : (s.fput Reg.indStat_row (s.ind.row % 8)).fget Reg.indStat_row = s.ind.row % 8 :=
    (State.fget_fput h (by decide)).trans (Nat.mod_mod _ 8)
  unfold State.indRow
  dsimp only
  split
  · exact ⟨hrow, rfl⟩
  · exact ⟨hrow, rfl⟩

theorem State.pointerExpire_passed (hsafe : s.isSafe = false) (hen : s.engEn e = true)
    (htype : s.fget (Reg.indEngCfg_type e) = 2) (ht1 : s.fget (Reg.indEngTime_t1 e) ≠ 0) :
    s.pointerExpire e = s.fput (Reg.indEngCfg_en e) 0 := if_pos (by simp [hsafe, hen, htype, ht1])

/-- In SAFE the engines keep their values (R408). -/
theorem State.pointerExpire_safe (hsafe : s.isSafe = true) : s.pointerExpire e = s := if_neg (by simp [hsafe])

theorem State.blink_shown (h : s.flag Reg.indStat_safepat = true) :
    s.blink = { s with ind := { s.ind with lit := !s.ind.lit } } := if_pos h

/-- Settles O60: the frame takes what the model's frame takes, and a row slot counts modulo 8. -/
theorem indicatorStrip : Obligations.IndicatorStrip := by
  unfold Obligations.IndicatorStrip
  exact fun s hctl => ⟨next_ctl hctl rfl,
    fun hs => ⟨_, next_ctl hctl rfl, State.indRow_row hs.regs⟩,
    fun e hsafe hen htype ht1 => next_ctl hctl (State.pointerExpire_passed hsafe hen htype ht1),
    fun e hsafe => next_ctl hctl (State.pointerExpire_safe hsafe),
    fun hshown => next_ctl hctl (State.blink_shown hshown)⟩

end Sys2Proof.Machine
end

section
/-! The test and debug port (R398 to R401). -/

namespace Sys2Proof.Machine

variable {s : State}

/-- An instruction scan has shifted out what was captured, and the instruction shows in IR (R398). -/
def State.irShown (s : State) (ir : Nat) (cells : List Bool) : State :=
  let u := (s.out (.tdo 8 1)).fput Reg.dbgStat_ir ir
  { u with dbg := { u.dbg with cells := cells } }

/-- With the lock fuse burned DBG_REG is refused and counted (R400). -/
theorem State.tapIr_locked {cells : List Bool} (h : (s.irShown 0x10 cells).sec.dbglock = true) :
    s.tapIr 0x10 cells = (s.irShown 0x10 cells).bump Reg.dbgCntRefused_val 1 := if_pos h

/-- With the lock fuse blank DBG_REG opens the port (R400). -/
theorem State.tapIr_opens {cells : List Bool} (hlock : (s.irShown 0x10 cells).sec.dbglock = false)
    (hopen : (s.irShown 0x10 cells).flag Reg.dbgStat_open = false) :
    s.tapIr 0x10 cells = (s.irShown 0x10 cells).debugOpen 0x10 :=
  (if_neg (Bool.eq_false_iff.1 hlock)).trans (if_neg (Bool.eq_false_iff.1 hopen))

/-- GO through the open port starts an access while none runs (R401). -/
theorem State.dbgStart_starts {dr : BitVec 72} (hopen : s.drScan.flag Reg.dbgStat_open = true)
    (hir : s.drScan.irActs = 0x10) (hgo : dbgGo dr = true) (hidle : s.drScan.dbg.acc = none) :
    s.dbgStart dr = { s.drScan with dbg := { s.drScan.dbg with
      acc := some (dbgAddr dr, dbgData dr, dbgWrite dr), done := false } } :=
  if_neg (by simp [hopen, hir, hgo, hidle])

/-- A data scan of another instruction, or with the port shut, starts no access (R400, R401). -/
theorem State.dbgStart_scans {dr : BitVec 72} (h : s.drScan.flag Reg.dbgStat_open = false ∨ s.drScan.irActs ≠ 0x10) :
    s.dbgStart dr = s.drScan := by
  refine if_pos ?_
  rcases h with h | h <;> simp [h]

theorem State.drScan_of_capture {x : Nat × Nat} (h : s.drCapture = some x) :
    s.drScan = ({ s with fresh := s.fresh + 1 } : State).out (.tdo x.1 x.2) := by
  unfold State.drScan
  rw [h]

theorem State.drCapture_dbgReg (h : s.irActs = 0x10) : s.drCapture = some (72, s.dbgCapture) := by
  unfold State.drCapture
  rw [h]
  rfl

theorem State.drCapture_idcode (h : s.irActs = 2) : s.drCapture = some (32, s.idcode) := by
  unfold State.drCapture
  rw [h]
  rfl

/-- With the lock fuse burned DBG_REG acts as BYPASS, whose register is one bit that captures 0 (R398, R400). -/
theorem State.drCapture_locked (hir : s.fget Reg.dbgStat_ir = 0x10) (hlock : s.sec.dbglock = true) :
    s.drCapture = some (1, 0) := by
  have hbypass : s.irActs = 0xFF := if_pos (by simp [hir, hlock])
  unfold State.drCapture
  rw [hbypass]
  rfl

/-- Bits 69 and 68 of a number made of the parts of DBG_REG, and its low word. -/
theorem dbgReg_parts (top mid low : Nat) (done refused : Bool) (hmid : mid < 2 ^ 32) (hlow : low < 2 ^ 32) :
    let n := top * 2 ^ 70 + b2n done * 2 ^ 69 + b2n refused * 2 ^ 68 + mid * 2 ^ 32 + low
    bitAt n 69 = done ∧ bitAt n 68 = refused ∧ n % 2 ^ 32 = low := by
  have hbit (b : Bool) (k : Nat) (h : k % 2 = b2n b) : (k % 2 == 1) = b := by rw [h]; cases b <;> rfl
  have hlt (b : Bool) : b2n b < 2 := by cases b <;> decide
  have hd := hlt done
  have hr := hlt refused
  refine ⟨hbit _ _ ?_, hbit _ _ ?_, ?_⟩ <;> omega

/-- What DBG_REG shifts out while the port is open: DONE, REFUSED and the data read (R401). -/
theorem State.dbgCapture_open (h : s.flag Reg.dbgStat_open = true) :
    bitAt s.dbgCapture 69 = s.dbg.done ∧ bitAt s.dbgCapture 68 = s.dbg.refused ∧
      s.dbgCapture % 2 ^ 32 = s.dbg.data.toNat := by
  unfold State.dbgCapture
  rw [if_pos h]
  exact dbgReg_parts _ _ _ _ _ (Nat.mod_lt _ (by decide)) s.dbg.data.isLt

/-- The access that runs has finished (R401). -/
def State.accessOver (s : State) : State := { s with dbg := { s.dbg with acc := none, done := true, refused := false } }

theorem State.dbgEnd_write {a : Nat} {v : Word} (h : s.dbg.acc = some (a, v, true)) :
    s.dbgEnd = (s.accessOver.serviceWrite .dbg a v).2 := by
  unfold State.dbgEnd
  rw [h]
  rfl

theorem State.dbgEnd_read {a : Nat} {v : Word} (h : s.dbg.acc = some (a, v, false)) :
    s.dbgEnd = (let r := s.accessOver.serviceRead .dbg a
      { r.2 with dbg := { r.2.dbg with data := r.1 } }) := by
  unfold State.dbgEnd
  rw [h]
  rfl

/-- Settles O59, by the instruction that the port holds and by what an access carries. -/
theorem debugPort : Obligations.DebugPort := by
  unfold Obligations.DebugPort
  refine fun s hctl => ⟨next_ctl hctl rfl,
    fun cells => ⟨fun hlock => next_ctl hctl (State.tapIr_locked hlock),
      fun hlock hopen => next_ctl hctl (State.tapIr_opens hlock hopen)⟩,
    fun dr => ⟨fun hopen hir hgo hidle => next_ctl hctl (State.dbgStart_starts hopen hir hgo hidle),
      fun h => next_ctl hctl (State.dbgStart_scans h)⟩,
    fun hopen hir => ⟨s.dbgCapture, State.drScan_of_capture (State.drCapture_dbgReg hir), State.dbgCapture_open hopen⟩,
    fun hir => State.drScan_of_capture (State.drCapture_idcode hir),
    fun hir hlock x hx => ?_, fun a v w hacc => ⟨?_, ?_⟩⟩
  · rw [State.drCapture_locked hir hlock] at hx
    exact (Option.some.inj hx).symm
  · rintro rfl
    exact next_ctl hctl (State.dbgEnd_write hacc)
  · rintro rfl
    exact next_ctl hctl (State.dbgEnd_read hacc)

end Sys2Proof.Machine
end

section
/-! Fuses, sealing and zeroisation (R384 to R386). -/

namespace Sys2Proof.Machine

variable {s : State} {p : Path} {v : Word}

/-- The security registers act as `State.effectSec` has it (R8). -/
theorem State.effect_sec {t before : State} {a v : Nat} (hblock : a / 0x10000 = 1 ∨ a / 0x10000 = 2) :
    t.effect before p a v = t.effectSec p a v := by
  rcases hblock with h | h <;> simp only [State.effect, h]

/-- A fuse operation takes the data words as they stand (R384). -/
theorem State.pathWrite_secFuseCtrl (h : s.accepts p Reg.secFuseCtrl v) :
    s.pathWrite p Reg.secFuseCtrl v =
      (let t := s.stored Reg.secFuseCtrl v
       if fld v.toNat Reg.secFuseCtrl_key = 0xF05E ∧ fld v.toNat Reg.secFuseCtrl_op ≠ 0 then
         { t with sec := { t.sec with burning := some (fld v.toNat Reg.secFuseCtrl_op,
           (List.range 8).map (tget (fun _ => 0) t.sec.fuseData)) } }
       else t) := by
  rw [State.pathWrite_unclaimed (by decide) (by decide) h, State.effect_sec (by decide), State.effectSec,
    if_neg (by decide), if_pos rfl]

/-- GO zeroes IV, tag and the buffer from P on (R385). -/
theorem State.pathWrite_secSealCtrl (h : s.accepts p Reg.secSealCtrl v) :
    s.pathWrite p Reg.secSealCtrl v =
      if fld v.toNat Reg.secSealCtrl_go = 1
        then ((s.stored Reg.secSealCtrl v).sealClear (fld v.toNat Reg.secSealCtrl_p)).fput Reg.secSealCtrl_busy 1
        else s.stored Reg.secSealCtrl v := by
  rw [State.pathWrite_unclaimed (by decide) (by decide) h, State.effect_sec (by decide), State.effectSec,
    if_neg (by decide), if_neg (by decide), if_neg (by decide), if_pos rfl]

/-- ZEROISE enters SAFE with cause FORCE and waits for the record (R386). -/
def State.zeroiseAsked (s : State) : State :=
  { s.enterSafe .force with sec := { (s.enterSafe .force).sec with zeroDue := true } }

theorem State.pathWrite_secZeroise (h : s.accepts p Reg.secZeroise v) :
    s.pathWrite p Reg.secZeroise v =
      if v = 0x5EC00001 then (s.stored Reg.secZeroise v).zeroiseAsked else s.stored Reg.secZeroise v := by
  have hcode : v.toNat = 0x5EC00001 ↔ v = 0x5EC00001 := ⟨fun hv => BitVec.eq_of_toNat_eq hv, fun hv => by rw [hv]; rfl⟩
  rw [State.pathWrite_unclaimed (by decide) (by decide) h, State.effect_sec (by decide), State.effectSec,
    if_neg (by decide), if_neg (by decide), if_pos rfl]
  simp only [hcode]
  rfl

/-- The burn is over. -/
def State.burnOver (s : State) : State := { s with sec := { s.sec with burning := none } }

section
variable {data : List Word}

theorem State.fuseDone_pkh (h : s.sec.burning = some (1, data)) :
    s.fuseDone true = State.fput { s.burnOver with sec := { s.burnOver.sec with
      pkh := List.zipWith (· ||| ·) s.burnOver.sec.pkh (data.flatMap (fun w => leBytes 4 w.toNat)) } }
      Reg.secStat_fdone 1 := by
  unfold State.fuseDone
  rw [h, ← List.map_uncurry_zip_eq_zipWith]
  rfl

theorem State.fuseDone_svn (h : s.sec.burning = some (2, data)) :
    s.fuseDone true = State.fput { s.burnOver with sec := { s.burnOver.sec with
      svn := s.burnOver.sec.svn ||| (2 ^ ((data.headD 0).toNat % 64) - 1) % 2 ^ 32 } } Reg.secStat_fdone 1 := by
  unfold State.fuseDone
  rw [h]
  rfl

theorem State.fuseDone_dbglock (h : s.sec.burning = some (3, data)) :
    s.fuseDone true = State.fput { s.burnOver with sec := { s.burnOver.sec with dbglock := true } } Reg.secStat_fdone 1 := by
  unfold State.fuseDone
  rw [h]
  rfl

end

theorem State.sealDone_idle (h : s.flag Reg.secSealCtrl_busy = false) : s.sealDone = s := if_pos (by simp [h])

/-- Sealing ends with a fresh IV, the ciphertext in place, the tag and DONE (R385). -/
theorem State.sealDone_busy (h : s.flag Reg.secSealCtrl_busy = true) :
    s.sealDone =
      (let n := s.fget Reg.secSealCtrl_p
       let iv := leBytes 12 (Config.sealRandom s.fresh).toNat
       let key := if s.flag Reg.secStat_keycut then (List.range 32).map Config.cutKey else s.sec.duk
       let r := gcmSeal key iv (leBytes 1 (s.fget Reg.secSealCtrl_type) ++ zeros 3 ++ leBytes 4 n) (s.sealBuf n)
       let u : State := { s with fresh := s.fresh + 1 }
       let u := u.each (List.range 3) (fun i u => u.rput (Reg.secSealIv i) (BitVec.ofNat 32 (leAt iv (4 * i) 4)))
       let u := u.each (List.range 4) (fun i u => u.rput (Reg.secSealTag i) (BitVec.ofNat 32 (leAt r.2 (4 * i) 4)))
       let u := u.each (List.range (n / 4)) (fun w u => u.rput (Reg.secSealBuf w) (BitVec.ofNat 32 (leAt r.1 (4 * w) 4)))
       (u.fput Reg.secSealCtrl_busy 0).fput Reg.secSealCtrl_done 1) := if_neg (by simp [h])

/-- Settles O56, by the register written and by the operation that burns. -/
theorem fusesSealZeroise : Obligations.FusesSealZeroise := by
  unfold Obligations.FusesSealZeroise
  refine fun s => ⟨fun p v hacc => next_eq (State.pathWrite_secFuseCtrl hacc),
    fun hctl hidle ok => next_ctl hctl (State.fuseDone_idle hidle),
    fun op data hctl hburn => ⟨next_ctl hctl (State.fuseDone_failed hburn), ?_, ?_, ?_⟩,
    fun p v hacc => next_eq (State.pathWrite_secSealCtrl hacc),
    fun hctl hbusy => next_ctl hctl (State.sealDone_busy hbusy),
    fun hctl hidle => next_ctl hctl (State.sealDone_idle hidle),
    fun p v hacc => next_eq (State.pathWrite_secZeroise hacc),
    fun hctl => next_ctl hctl rfl⟩
  · rintro rfl
    exact next_ctl hctl (State.fuseDone_pkh hburn)
  · rintro rfl
    exact next_ctl hctl (State.fuseDone_svn hburn)
  · rintro rfl
    exact next_ctl hctl (State.fuseDone_dbglock hburn)

end Sys2Proof.Machine
end

section
/-! Resets, their release and brownouts (R358, R383, R386, R400, R416, R418). -/

namespace Sys2Proof.Machine

variable {s : State} {p : Path} {v : Word}

/-- The code alone causes a device reset (R358). -/
theorem State.pathWrite_cfgReset (h : s.accepts p Reg.cfgReset v) :
    s.pathWrite p Reg.cfgReset v =
      if v = 0xA5A55A5A then (s.stored Reg.cfgReset v).deviceReset p else s.stored Reg.cfgReset v := by
  have hcode : v.toNat = 0xA5A55A5A ↔ v = 0xA5A55A5A := ⟨fun hv => BitVec.eq_of_toNat_eq hv, fun hv => by rw [hv]; rfl⟩
  rw [State.pathWrite_unclaimed (by decide) (by decide) h, State.effect_sec (by decide), State.effectSec, if_pos rfl]
  simp only [hcode]

theorem State.causeReset_first (h : s.cfg.due = none) :
    s.causeReset false = { s with cfg := { s.cfg with due := some false } } := by
  unfold State.causeReset
  rw [h]
  rfl

theorem State.keepDebug_without {r : State} (h : bitAt (s.fget Reg.sysSafeCause_val) 2 = false) : s.keepDebug r = r :=
  if_neg (Bool.eq_false_iff.1 h)

/-- A power-on reset, and a device reset without cause DEBUG, leave nothing but what outlives every reset (R358, R386). -/
theorem State.resetApply_whole
    (h : s.cfg.due = some true ∨ (s.cfg.due = some false ∧ bitAt (s.fget Reg.sysSafeCause_val) 2 = false)) :
    ∃ powerOn, s.resetApply = s.afterReset s.cfg.brownout powerOn := by
  unfold State.resetApply
  rcases h with h | ⟨h, hdebug⟩
  · exact ⟨true, by rw [h]⟩
  · exact ⟨false, by rw [h]; exact State.keepDebug_without hdebug⟩

theorem State.resetApply_keeping (h : s.cfg.due = some false) :
    s.resetApply = s.keepDebug (s.afterReset s.cfg.brownout false) := by
  unfold State.resetApply
  rw [h]

/-- A latched cause has its bit in SYS_SAFE_CAUSE (R34). -/
theorem State.fget_latchCause {c : Cause} (h : Regs.wf s.regs) :
    (s.latchCause c).fget Reg.sysSafeCause_val = putBit (s.fget Reg.sysSafeCause_val) c.bit true := by
  have hlt : putBit (s.fget Reg.sysSafeCause_val) c.bit true < 2 ^ 32 :=
    putBit_lt (s.fget_lt Reg.sysSafeCause_val) c.bit_lt
  unfold State.latchCause
  dsimp only
  rw [State.fget_fput_addr (State.fput_regs h) (by decide), State.fget_fput h (by decide)]
  exact Nat.mod_eq_of_lt hlt

/-- A device reset keeps cause DEBUG, the key cut and the debug port as they were (R358, R386, R400). -/
theorem State.keepDebug_kept {r : State} (hr : Regs.wf r.regs) (h : bitAt (s.fget Reg.sysSafeCause_val) 2 = true) :
    (s.keepDebug r).isSafe = true ∧ bitAt ((s.keepDebug r).fget Reg.sysSafeCause_val) 2 = true ∧
      (s.keepDebug r).fget Reg.secStat_keycut = s.fget Reg.secStat_keycut ∧
      (s.keepDebug r).fget Reg.dbgStat_open = s.fget Reg.dbgStat_open := by
  have hkept : s.keepDebug r = (((r.latchCause .debug).fput Reg.sysState_safe 1).fput Reg.secStat_keycut
      (s.fget Reg.secStat_keycut)).fput Reg.dbgStat_open (s.fget Reg.dbgStat_open) := if_pos h
  have hcause : Regs.wf (r.latchCause .debug).regs := State.fput_regs (State.fput_regs hr)
  have hsafe : Regs.wf ((r.latchCause .debug).fput Reg.sysState_safe 1).regs := State.fput_regs hcause
  have hkeycut := State.fput_regs (f := Reg.secStat_keycut) (v := s.fget Reg.secStat_keycut) hsafe
  rw [hkept]
  refine ⟨?_, ?_, ?_, ?_⟩
  · unfold State.isSafe State.flag
    rw [State.fget_fput_addr hkeycut (by decide), State.fget_fput_addr hsafe (by decide), State.fget_fput hcause (by decide)]
    rfl
  · rw [State.fget_fput_addr hkeycut (by decide), State.fget_fput_addr hsafe (by decide),
      State.fget_fput_addr hcause (by decide), State.fget_latchCause hr, bitAt_putBit]
    exact if_pos rfl
  · rw [State.fget_fput_addr hkeycut (by decide), State.fget_fput hsafe (by decide), Nat.mod_eq_of_lt (s.fget_lt _)]
  · rw [State.fget_fput hkeycut (by decide), Nat.mod_eq_of_lt (s.fget_lt _)]

/-- The release waits for nothing (R418). -/
theorem State.powerHeld_free {refUs : Nat} (hbrown : s.cfg.brownout = false)
    (h : s.cfg.powerOn = true → s.sys.railsOut = [] ∧ s.sys.refOut = false ∧ 100 ≤ refUs) : s.powerHeld refUs = false := by
  unfold State.powerHeld
  rw [hbrown]
  cases hpower : s.cfg.powerOn
  · rfl
  · obtain ⟨hrails, href, hus⟩ := h hpower
    simp [hrails, href, hus]

theorem State.powerHeld_held {refUs : Nat} (h : s.cfg.brownout = true ∨ (s.cfg.powerOn = true ∧
    (s.sys.railsOut ≠ [] ∨ s.sys.refOut = true ∨ refUs < 100))) : s.powerHeld refUs = true := by
  unfold State.powerHeld
  rcases h with h | ⟨hpower, h | h | h⟩
  · simp [h]
  all_goals simp [hpower, h]

theorem State.resetRelease_released {vsel : Bool} {addr refUs : Nat} (hheld : s.cfg.held = true)
    (hfree : s.powerHeld refUs = false) :
    s.resetRelease vsel addr refUs =
      (((({ s with
          cfg := { s.cfg with held := false }, sys := { s.sys with now := 0 }
          sec := { s.sec with pkhNow := s.sec.pkh } } : State).fputB Reg.cfgNor_vsel vsel).fput Reg.twbStat_addr
            (0x58 + addr % 8)).fput Reg.cfgStat_step 1).levelCauses := if_neg (by simp [hheld, hfree])

theorem State.resetRelease_refused {vsel : Bool} {addr refUs : Nat} (hwaits : s.powerHeld refUs = true) :
    s.resetRelease vsel addr refUs = s := if_pos (by simp [hwaits])

/-- A rail below its threshold is listed there (R416). -/
theorem State.mem_railsLow_railOut (r : Rail) : r ∈ (s.railOut r true).sys.railsLow := by
  rw [State.railOut_eq]
  by_cases h : r ∈ s.sys.railsLow <;> simp [h]

/-- Settles O54, by what causes the reset and by what its release waits for. -/
theorem resets : Obligations.Resets := by
  unfold Obligations.Resets
  refine fun s => ⟨rfl, fun hdue => next_eq (State.causeReset_first hdue),
    fun p v hacc => next_eq (State.pathWrite_cfgReset hacc),
    fun hdue => ?_, fun hdue hdebug => ?_,
    fun vsel addr refUs hheld hbrown hpower =>
      next_eq (State.resetRelease_released hheld (State.powerHeld_free hbrown hpower)),
    fun vsel addr refUs hwaits => next_eq (State.resetRelease_refused (State.powerHeld_held hwaits)),
    fun io => ⟨_, rfl, rfl, rfl, rfl, rfl, rfl, ?_⟩, rfl⟩
  · obtain ⟨powerOn, happly⟩ := State.resetApply_whole hdue
    exact ⟨_, next_eq happly, rfl, rfl, rfl, rfl, rfl, rfl, rfl, rfl⟩
  · have hreset : Regs.wf State.reset.regs := by decide
    exact ⟨_, next_eq (State.resetApply_keeping hdue), State.keepDebug_kept hreset hdebug⟩
  · exact State.mem_railsLow_railOut _

end Sys2Proof.Machine
end

section
/-! The image is read from the flash and takes effect (R360, R361, R363, R368, R379, R380). -/

namespace Sys2Proof.Machine

variable {s : State}

theorem State.askBurst_eq (s : State) (i : Nat) : ∃ o, s.askBurst i = { s with sent := o } := by
  unfold State.askBurst
  split
  · exact ⟨_, rfl⟩
  · split
    · exact ⟨_, rfl⟩
    · split <;> exact ⟨_, rfl⟩

/-- The first reading of all follows the reset pulse and the reset pair (R360). -/
def State.askReset (s : State) : State :=
  if s.fget Reg.cfgStat_step < 4 ∧ s.cfg.asked = 0 then (s.out .xspiReset).out (.xspi [0x66, 0x99]) else s

/-- The loader asks for the bursts of a list. -/
def State.askBursts (s : State) (l : List Nat) : State := s.each l (fun i t => t.askBurst i)

/-- The loader has asked for the first `n` bursts. -/
def State.countAsked (s : State) (n : Nat) : State := { s with cfg := { s.cfg with asked := max n s.cfg.asked } }

theorem State.askTo_steps (s : State) (n : Nat) :
    s.askTo n = (s.askReset.askBursts ((List.range (min n s.burstCount)).filter
      (fun i => decide (s.askReset.cfg.asked ≤ i)))).countAsked (min n s.burstCount) := rfl

theorem State.askReset_eq (s : State) : ∃ o, s.askReset = { s with sent := o } := by
  unfold State.askReset
  split <;> exact ⟨_, rfl⟩

theorem State.askBursts_eq (s : State) (l : List Nat) : ∃ o, s.askBursts l = { s with sent := o } := by
  unfold State.askBursts State.each
  refine List.foldlRecOn (motive := fun u : State => ∃ o, u = { s with sent := o }) _ _ ⟨s.sent, rfl⟩ ?_
  rintro u ⟨o, rfl⟩ i -
  obtain ⟨o', h⟩ := State.askBurst_eq { s with sent := o } i
  exact ⟨o', h⟩

/-- What the loader asks for shows in its count of bursts and in what has been sent alone. -/
theorem State.askTo_eq (s : State) (n : Nat) :
    ∃ k o, s.askTo n = { s with cfg := { s.cfg with asked := k }, sent := o } := by
  obtain ⟨o, hreset⟩ := s.askReset_eq
  rw [State.askTo_steps, hreset]
  obtain ⟨o', hbursts⟩ := State.askBursts_eq { s with sent := o }
    ((List.range (min n s.burstCount)).filter (fun i => decide (s.cfg.asked ≤ i)))
  exact ⟨_, o', by rw [hbursts]; rfl⟩

/-- Nothing has been asked for: the reset pulse, the reset pair and the SFDP read (R360). -/
theorem State.askTo_first (hstep : s.fget Reg.cfgStat_step = 1) (hasked : s.cfg.asked = 0) :
    s.askTo 1 =
      (let u := ((s.out .xspiReset).out (.xspi [0x66, 0x99])).out (.xspi [0x5A])
       { u with cfg := { u.cfg with asked := 1 } }) := by
  have hcount : s.burstCount = 1 := if_pos (by omega)
  have hreset : s.askReset = (s.out .xspiReset).out (.xspi [0x66, 0x99]) := if_pos ⟨by omega, hasked⟩
  have hnone : s.askReset.cfg.asked = 0 := by rw [hreset]; exact hasked
  have hask : s.askReset.askBursts [0] = s.askReset.out (.xspi [0x5A]) :=
    if_pos (show s.askReset.fget Reg.cfgStat_step < 4 by rw [hreset]; exact hstep ▸ by decide)
  have hmax (t : State) (h : t.cfg.asked = 0) : t.countAsked 1 = { t with cfg := { t.cfg with asked := 1 } } := by
    unfold State.countAsked
    rw [h]
    rfl
  rw [State.askTo_steps, hcount, hnone]
  show (s.askReset.askBursts [0]).countAsked 1 = _
  rw [hask, hreset]
  exact hmax _ hasked

/-- With a profile of the flash the loader enters its 8D-8D-8D mode (R360). -/
theorem State.flashReady_profile {dens : Nat} {x : XspiProfile} (hstep : s.fget Reg.cfgStat_step = 1) :
    s.flashReady dens (some x) =
      (let u := s.askTo 1
       let u := ({ u with cfg := { u.cfg with asked := 0 } } : State).fput Reg.cfgNor_dens dens
       let u := x.enter.foldl (fun u w => u.out (.xspi (w.map (fun b => b.toNat)))) u
       let u : State := { u with cfg := { u.cfg with readBy := (x.read.map (fun b => b.toNat), x.dummy) } }
       ((u.fput Reg.cfgNor_mhz (min 200 x.mhz)).fput Reg.cfgNor_mode 2).fput Reg.cfgStat_step 4) :=
  if_neg (not_not.2 hstep)

/-- Without one it reads with instruction 0x13 (R360). -/
theorem State.flashReady_plain {dens : Nat} (hstep : s.fget Reg.cfgStat_step = 1) :
    s.flashReady dens none =
      (let u := s.askTo 1
       let u := ({ u with cfg := { u.cfg with asked := 0 } } : State).fput Reg.cfgNor_dens dens
       let u : State := { u with cfg := { u.cfg with readBy := ([0x13], 0) } }
       ((u.fput Reg.cfgNor_mhz 25).fput Reg.cfgNor_mode 1).fput Reg.cfgStat_step 4) := if_neg (not_not.2 hstep)

section
variable {x y : List Byte}

/-- What the loader notes of the two headers (R363). -/
def State.headersNoted (s : State) (x y : List Byte) : State :=
  let len (h : List Byte) : Nat := if s.headerCause h = 0 ∧ s.keyOk h = true then imgLen h else 0
  let seq (h : List Byte) : Nat := if h.length < 128 then 0 else imgSeq h
  { s.askTo 2 with cfg := { (s.askTo 2).cfg with seqs := [seq x, seq y], lens := [len x, len y] } }

theorem State.headerCause_askTo {n : Nat} : (s.askTo n).headerCause x = s.headerCause x := by
  obtain ⟨k, o, h⟩ := s.askTo_eq n
  rw [h]
  rfl

theorem State.keyOk_askTo {n : Nat} : (s.askTo n).keyOk x = s.keyOk x := by
  obtain ⟨k, o, h⟩ := s.askTo_eq n
  rw [h]
  rfl

/-- A copy whose header fails is marked so (R363). -/
def State.headerMarked (s : State) (c cause : Nat) : State := if cause = 0 then s else s.copyBad c cause 255

/-- The copies to read, by what their headers show: by SEQ, A before B (R363). -/
def copiesToRead (x y : List Byte) : Nat → Nat → List Nat
  | 0, 0 => if imgSeq x < imgSeq y then [1, 0] else [0, 1]
  | 0, _ => [0]
  | _, 0 => [1]
  | _, _ => []

theorem copiesToRead_first {b : Nat} (hb : b ≠ 0) : copiesToRead x y 0 b = [0] := by
  cases b with
  | zero => exact absurd rfl hb
  | succ => rfl

theorem copiesToRead_second {a : Nat} (ha : a ≠ 0) : copiesToRead x y a 0 = [1] := by
  cases a with
  | zero => exact absurd rfl ha
  | succ => rfl

theorem copiesToRead_none {a b : Nat} (ha : a ≠ 0) (hb : b ≠ 0) : copiesToRead x y a b = [] := by
  cases a with
  | zero => exact absurd rfl ha
  | succ =>
    cases b with
    | zero => exact absurd rfl hb
    | succ => rfl

theorem State.headersRead_step (hstep : s.fget Reg.cfgStat_step = 4) :
    s.headersRead x y =
      (((s.headersNoted x y).headerMarked 0 (s.headerCause x)).headerMarked 1 (s.headerCause y)).nextCopy
        (copiesToRead x y (s.headerCause x) (s.headerCause y)) := by
  unfold State.headersRead State.headersNoted
  rw [if_neg (by simpa using hstep)]
  simp only [State.headerCause_askTo, State.keyOk_askTo, Bool.and_eq_true, beq_iff_eq]
  rfl

end

section
variable {burst : Nat}

/-- How often a burst has failed in a row (R361). -/
def State.failures (s : State) (burst : Nat) : Nat := if s.cfg.failAt = some burst then s.cfg.repeats else 0

/-- The failed burst is noted with its repeats so far (R361). -/
def State.failNoted (s : State) (burst r : Nat) : State :=
  { s.askTo (s.burstAt burst + 1) with cfg := { (s.askTo (s.burstAt burst + 1)).cfg with failAt := some burst, repeats := r } }

/-- What the loader does with a burst that fails while it reads (R361). -/
theorem State.burstFail_reading (hstep : s.fget Reg.cfgStat_step ≠ 0) (hread : s.fget Reg.cfgStat_step ≤ 6)
    (hloaded : s.flag Reg.sysState_loaded = false) :
    s.burstFail burst =
      (let u := s.askTo (s.burstAt burst + 1)
       if s.failures burst < 3 then (s.failNoted burst (s.failures burst + 1)).askBurst (s.burstAt burst)
       else if 25 < s.fget Reg.cfgNor_mhz then
         ((s.failNoted burst 0).fput Reg.cfgNor_mhz (max 25 (s.fget Reg.cfgNor_mhz / 2))).askBurst (s.burstAt burst)
       else if s.fget Reg.cfgStat_step < 4 then ((u.copyBad 0 9 255).copyBad 1 9 255).nextCopy []
       else u.copyFails 9 255) :=
  if_neg (by simp [hloaded]; omega)

end

/-- A copy is read in bursts of at most 4,096 bytes (R361). -/
theorem State.askBurst_copy {c i : Nat} {l : List Nat} (horder : s.cfg.order = c :: l) (hstep : 4 < s.fget Reg.cfgStat_step) :
    s.askBurst i =
      s.out (.xspiRead s.cfg.readBy.1 s.cfg.readBy.2 (s.copyBase c + 4096 * i) (min 4096 (s.cfg.lens.getD c 0 - 4096 * i))) := by
  unfold State.askBurst
  rw [if_neg (by omega), if_neg (by omega), horder]
  rfl

section
variable {image : List Byte} {readOk : Bool} {c : Nat} {l : List Nat}

theorem State.copyCheck_askTo {n : Nat} : (s.askTo n).copyCheck image readOk = s.copyCheck image readOk := by
  obtain ⟨k, o, h⟩ := s.askTo_eq n
  rw [h]
  rfl

theorem State.copyFails_first {cause sec : Nat} (horder : s.cfg.order = c :: l) :
    s.copyFails cause sec = (s.copyBad c cause sec).nextCopy l := by
  unfold State.copyFails
  rw [horder]

theorem State.tablesZeroed_cfg : (s.tablesZeroed image).cfg = s.cfg := by
  unfold State.tablesZeroed
  exact List.foldlRecOn (motive := fun t : State => t.cfg = s.cfg) _ _ rfl fun _ h _ _ => h

/-- A copy that has been read takes effect, stops the load or fails, by its checks (R363, R368, R379). -/
theorem State.copyVerified_checked (horder : s.cfg.order = c :: l) :
    s.copyVerified image readOk =
      (let u := s.askTo s.burstCount
       match s.copyCheck image readOk with
       | .inl (cause, i) => ((if 4 ≤ cause then u.tablesZeroed image else u).copyBad c cause i).nextCopy l
       | .inr none => (u.tablesStored image).loadStops.safeOutputs
       | .inr (some b) =>
         match imageClaims (claimEntries (bodyOf b 2)) (regGet b) with
         | (_, some k) => (u.tablesStored image).applyConflict c image b k
         | (claims, none) => (u.tablesStored image).applyImage c image b claims) := by
  have hasked : (s.askTo s.burstCount).cfg.order = c :: l := by
    obtain ⟨k, o, h⟩ := s.askTo_eq s.burstCount
    rw [h]
    exact horder
  have hkept (p : Prop) [Decidable p] :
      (if p then (s.askTo s.burstCount).tablesZeroed image else s.askTo s.burstCount).cfg.order = c :: l := by
    split
    · rw [State.tablesZeroed_cfg, hasked]
    · exact hasked
  unfold State.copyVerified
  rw [horder]
  dsimp only
  rw [State.copyCheck_askTo]
  rcases s.copyCheck image readOk with ⟨cause, i⟩ | _ | b
  · exact State.copyFails_first (hkept _)
  · rfl
  · dsimp only
    rcases imageClaims (claimEntries (bodyOf b 2)) (regGet b) with ⟨claims, _ | k⟩ <;> rfl

end

/-- READY ends the start-up (R380). -/
theorem State.startupComplete_ready (hloaded : s.flag Reg.sysState_loaded = true) (hready : s.flag Reg.cfgStat_ready = false)
    (hstart : s.flag Reg.adcStat_start_done = true) (hsegs : s.cfg.segsDone = true)
    (hzones : ∀ z < 64, s.zoneEn z = true → s.zoneState z ≠ 0) (hcheck : s.shd.check.contains 1 = false) :
    s.startupComplete =
      (let u := (s.fput Reg.cfgStat_ready 1).fput Reg.cfgStat_step 10
       if u.isSafe then u else { u with sys := { u.sys with faultNLow := false } }) := by
  have hall : s.enabledZones.all (fun z => s.zoneState z != 0) = true := by
    refine List.all_eq_true.2 fun z hz => ?_
    obtain ⟨hlt, hen⟩ := List.mem_filter.1 hz
    exact bne_iff_ne.2 (hzones z (List.mem_range.1 hlt) hen)
  exact if_pos (by simp only [hloaded, hready, hstart, hsegs, hall, hcheck]; rfl)

/-- Settles O55, by the step that the loader is at. -/
theorem imageLoading : Obligations.ImageLoading := by
  unfold Obligations.ImageLoading
  refine fun s hctl => ⟨fun hstep => ⟨State.askTo_first hstep, fun dens x => next_ctl hctl (State.flashReady_profile hstep),
      fun dens => next_ctl hctl (State.flashReady_plain hstep)⟩,
    fun x y hstep => ⟨fun hx hy => ?_, fun hx hy => ?_, fun hx hy => ?_, fun hx hy => ?_⟩,
    fun burst hstep hread hloaded => ⟨fun hfew => ?_, fun hmany hfast => ?_, fun hmany hslow hheaders => ?_,
      fun hmany hslow hearly => ?_⟩,
    fun c l i horder hstep => State.askBurst_copy horder hstep,
    fun image readOk c l horder => next_ctl hctl (State.copyVerified_checked horder),
    fun hloaded hready hstart hsegs hzones hcheck =>
      next_ctl hctl (State.startupComplete_ready hloaded hready hstart hsegs hzones hcheck)⟩
  · exact next_ctl hctl ((State.headersRead_step hstep).trans (by rw [hx, hy]; rfl))
  · refine next_ctl hctl ((State.headersRead_step hstep).trans ?_)
    rw [hx, copiesToRead_first hy, State.headerMarked, State.headerMarked, if_pos rfl, if_neg hy]
    rfl
  · refine next_ctl hctl ((State.headersRead_step hstep).trans ?_)
    rw [hy, copiesToRead_second hx, State.headerMarked, State.headerMarked, if_pos rfl, if_neg hx]
    rfl
  · refine next_ctl hctl ((State.headersRead_step hstep).trans ?_)
    rw [copiesToRead_none hx hy, State.headerMarked, State.headerMarked, if_neg hx, if_neg hy]
    rfl
  · exact next_ctl hctl ((State.burstFail_reading hstep hread hloaded).trans (if_pos hfew))
  · exact next_ctl hctl ((State.burstFail_reading hstep hread hloaded).trans
      ((if_neg (Nat.not_lt.2 hmany)).trans (if_pos hfast)))
  · exact next_ctl hctl ((State.burstFail_reading hstep hread hloaded).trans
      ((if_neg (Nat.not_lt.2 hmany)).trans ((if_neg (Nat.not_lt.2 hslow)).trans (if_neg (Nat.not_lt.2 hheaders)))))
  · exact next_ctl hctl ((State.burstFail_reading hstep hread hloaded).trans
      ((if_neg (Nat.not_lt.2 hmany)).trans ((if_neg (Nat.not_lt.2 hslow)).trans (if_pos hearly))))

end Sys2Proof.Machine
end

section
/-! The commands of the ring (R343, R345 to R347, R407). -/

namespace Sys2Proof.Machine

variable {s : State} {e : CmdEntry} {r : List Taken}

/-- A reserved FLAGS bit refuses the command at the head (R343). -/
theorem State.ringCommand_flagsBad {op : Nat} (hctl : s.controlled) (hopen : s.ringOpen = true)
    (htaken : s.cmd.taken = { op := op, entry := e, bad := false } :: r) (hflags : cmdFlagsBad e = true) (f : State → State) :
    s.ringCommand op e f = ((s.popped r).cmdRefuse op e 7 0).cmdNext := by
  simp [State.ringCommand, State.ctl_of_controlled hctl, State.command, htaken, hopen, hflags, State.popped]

/-- What a row of the command at the head of the ring does (R345). -/
theorem next_atHead {op : Nat} {f : State → State} {t : State} (h : s.atHead op e r) (ht : f (s.popped r) = t) :
    (.next (s.ringCommand op e f) : Host.Outcome State Fault Refusal) = .next t.cmdNext :=
  next_eq ((State.ringCommand_of_atHead h f).trans (congrArg State.cmdNext ht))

/-- A REG_WRITE of a count that R346 does not allow is refused with reason 1 (log entry 18). -/
theorem State.regWriteCmd_refused (h : writeCount e = 0 ∨ 6 < writeCount e) : s.regWriteCmd e = s.cmdRefuse 1 e 1 0 := if_pos h

theorem State.regWriteCmd_writes (hsome : writeCount e ≠ 0) (hmost : writeCount e ≤ 6) :
    s.regWriteCmd e =
      (let x := (s.cmdAccept 1 e).ringWrites 0 0 (writeList e)
       if x.1.cmd.stopped then x.1 else x.1.cmdDone 1 e (pf 23 1 x.2)) := if_neg (by omega)

/-- The values of a REG_READ, in the order of its addresses (R347). -/
def State.readAnswer (s : State) (e : CmdEntry) : List Word × State := (s.cmdAccept 2 e).ringReads (readList e)

/-- A single value is answered in an event where the command asks for it (R346). -/
theorem State.regReadCmd_event (hoffset : readOffset e = 0xFFFFFFFF) (hone : readCount e = 1) :
    s.regReadCmd e =
      (s.readAnswer e).2.cmdDoneEvent 2 e.tag.toNat (pf 24 4 (((s.readAnswer e).1.map (·.toNat)).headD 0)) := by
  unfold State.regReadCmd
  dsimp only
  rw [if_neg (by omega), if_neg (by omega), if_neg (by omega), if_pos hoffset]
  rfl

/-- The values are answered in the control region at an offset that lies in it (R346). -/
theorem State.regReadCmd_region (hsome : readCount e ≠ 0) (hmost : readCount e ≤ 8) (haligned : readOffset e % 64 = 0)
    (hfits : readOffset e + 64 ≤ s.ctlSize) :
    s.regReadCmd e = ((s.readAnswer e).2.ctlPost (readOffset e)
      (padTo 60 ((s.readAnswer e).1.flatMap (fun w => leBytes 4 w.toNat)) ++ leBytes 2 e.tag.toNat ++
        zeros 2)).cmdDone 2 e 0 := by
  unfold State.regReadCmd
  dsimp only
  rw [if_neg (by omega), if_neg (by omega), if_neg (by omega), if_neg (by omega)]
  rfl

theorem State.tableLoad_refused (h : s.loadOk e = false) : s.tableLoad e = s.cmdRefuse 7 e 1 0 := if_pos (by simp [h])

theorem State.tableLoad_noChannel (h : s.loadOk e = true) (hnone : s.loadChannel = none) :
    s.tableLoad e = s.cmdRefuse 7 e 3 0 := by
  unfold State.tableLoad
  rw [if_neg (by simp [h]), hnone]

/-- A TABLE_LOAD arms the channel it runs on and starts it (R346). -/
theorem State.tableLoad_arms {c : Nat} (h : s.loadOk e = true) (hsome : s.loadChannel = some c) :
    s.tableLoad e =
      (let u := s.cmdAccept 7 e
       let u := ((u.wput (Reg.dmaChSrc0 c) (loadSrc e)).wput (Reg.dmaChDst0 c) (loadDst e)).wput (Reg.dmaChNext0 c) 0
       let u := u.rput (Reg.dmaChCount c) (BitVec.ofNat 32 (loadCount e))
       let u := ((u.fput (Reg.dmaChCtrl_op c) 0).fput (Reg.dmaChCtrl_som c) 0).fput (Reg.dmaChCtrl_notify c) 0
       let u := u.dmaArm c (.tableLoad e.tag.toNat e.flags.toNat)
       (u.setCh c { u.ch c with go := true }).useBanks c (u.regDesc c).banks) := by
  unfold State.tableLoad
  rw [if_neg (by simp [h]), hsome]

/-- An INDICATE without reserved bits and with its times in range sets a pattern engine (R407). -/
theorem State.indicate_sets (hbits : cmdArg e 0 &&& 0x00FF1313 = cmdArg e 0) (hplace : cmdArg e 6 &&& 0x007F017F = cmdArg e 6)
    (htype : bitsAt (cmdArg e 0) 8 2 = 2 ∨ bitsAt (cmdArg e 1) 16 16 ≠ 0) :
    s.indicate e =
      (let x := bitsAt (cmdArg e 0) 0 2
       let u := ((s.fput (Reg.indEngCfg_en x) (bitsAt (cmdArg e 0) 4 1)).fput (Reg.indEngCfg_type x)
         (bitsAt (cmdArg e 0) 8 2)).fput (Reg.indEngCfg_src x) (bitsAt (cmdArg e 0) 12 1)
       let u := (u.fput (Reg.indEngCfg_level x) (bitsAt (cmdArg e 0) 16 8)).rput (Reg.indEngTime x)
         (BitVec.ofNat 32 (cmdArg e 1))
       let u := ((u.fput (Reg.indEngArg_len x) (bitsAt (cmdArg e 6) 16 7)).fput (Reg.indEngArg_dir x)
         (bitsAt (cmdArg e 6) 8 1)).fput (Reg.indEngArg_p x) (bitsAt (cmdArg e 6) 0 7)
       let u := u.each (List.range 4) (fun k u => u.rput (Reg.indEngMask x k) (BitVec.ofNat 32 (cmdArg e (2 + k))))
       (u.engRestart x).cmdFinish 11 e 0) :=
  (if_neg (by simp [hbits, hplace])).trans (if_neg (by omega))

/-- An opcode that no command has is refused with reason 7 (R345). -/
theorem exec_unknownOpcode {op : Byte} (hop : 0x0E ≤ op.toNat) (h : s.atHead op.toNat e r) :
    exec (.unknownOpcode op e) s = .next (((s.popped r).cmdRefuse op.toNat e 7 0).cmdNext) :=
  next_eq ((if_neg (Nat.not_lt.2 hop)).trans (State.ringCommand_of_atHead h _))

/-- Settles O53, by the opcode at the head of the ring. -/
theorem ringCommands : Obligations.RingCommands := by
  unfold Obligations.RingCommands
  refine fun s e r => ⟨fun h => next_atHead h rfl,
    fun h => ⟨fun hcount => next_atHead h (State.regWriteCmd_refused hcount),
      fun hsome hmost => ⟨fun hstop => ?_, fun hgo => ?_⟩⟩,
    fun h hsome hmost => ⟨fun hoffset hone => next_atHead h (State.regReadCmd_event hoffset hone),
      fun haligned hfits => next_atHead h (State.regReadCmd_region hsome hmost haligned hfits)⟩,
    fun h => ⟨fun hbad => next_atHead h (State.tableLoad_refused hbad),
      fun hok hnone => next_atHead h (State.tableLoad_noChannel hok hnone),
      fun c hok hsome => next_atHead h (State.tableLoad_arms hok hsome)⟩,
    fun h hsafe hbits hplace htype =>
      next_eq ((State.ringWork_of_atHead h hsafe _).trans (congrArg State.cmdNext (State.indicate_sets hbits hplace htype))),
    fun op hop h => exec_unknownOpcode hop h,
    fun hctl hopen htaken hflags => next_eq (State.ringCommand_flagsBad hctl hopen htaken hflags _)⟩
  · exact next_atHead h ((State.regWriteCmd_writes hsome hmost).trans (if_pos hstop))
  · exact next_atHead h ((State.regWriteCmd_writes hsome hmost).trans (if_neg (Bool.eq_false_iff.1 hgo)))

end Sys2Proof.Machine
end

section
/-! What becomes of a received frame (R329, R354), and the numbers that bytes hold (R3). -/

namespace Sys2Proof.Machine

variable {s : State} {p : Nat} {f : RxFrame} {g : State → State}

theorem State.rxFrame_received : s.rxFrame p f g =
    if (s.received p f).rxAccepts p f then g (s.received p f) else (s.received p f).discardFrame p := rfl

theorem State.discardFrame_linked (h : s.flag (Reg.hstPortStat_link p) = true) :
    s.discardFrame p = s.bump (Reg.hstPortRxdisc_val p) 1 := if_pos h

/-- A frame that the port takes is handled once FEC's counts are counted (R329, R354). -/
theorem State.rxFrame_taken (h : s.takesFrame p f) : s.rxFrame p f g = g (s.received p f) := if_pos h.2

/-- A frame with another destination MAC or another VLAN is discarded and counted (R329). -/
theorem State.rxFrame_refused (hlink : (s.received p f).flag (Reg.hstPortStat_link p) = true)
    (h : (s.received p f).rxAccepts p f = false) :
    s.rxFrame p f g = (s.received p f).bump (Reg.hstPortRxdisc_val p) 1 :=
  (if_neg (Bool.eq_false_iff.1 h)).trans (State.discardFrame_linked hlink)

section
variable {q : Nat}

/-- A packet for an enabled slot, in a frame that its port takes, is handled (R329). -/
theorem State.rxPacket_taken (h : s.takesFrame (slotPort q) f) (hon : (s.received (slotPort q) f).qpOn q = true) :
    s.rxPacket q f g = g (s.received (slotPort q) f) := (State.rxFrame_taken h).trans (if_pos hon)

/-- A packet for a slot that is not enabled is discarded and counted (R329). -/
theorem State.rxPacket_off (h : s.takesFrame (slotPort q) f) (hoff : (s.received (slotPort q) f).qpOn q = false) :
    s.rxPacket q f g = (s.received (slotPort q) f).bump (Reg.hstPortRxdisc_val (slotPort q)) 1 :=
  (State.rxFrame_taken h).trans ((if_neg (Bool.eq_false_iff.1 hoff)).trans (State.discardFrame_linked h.1))

/-- What a packet's row does on a device that is up. -/
theorem next_rxPacket {t : State} (hup : s.up) (h : s.takesFrame (slotPort q) f)
    (hon : (s.received (slotPort q) f).qpOn q = true) (ht : g (s.received (slotPort q) f) = t) :
    (.next (s.live fun u => u.rxPacket q f g) : Host.Outcome State Fault Refusal) = .next t :=
  next_live hup ((State.rxPacket_taken h hon).trans ht)

end

theorem leBytes_length (k n : Nat) : (leBytes k n).length = k := by
  induction k generalizing n with
  | zero => rfl
  | succ k ih => rw [leBytes, List.length_cons, ih]

/-- The bytes of a number give it back, but for what they do not hold. -/
theorem leNat_leBytes (k n : Nat) : leNat (leBytes k n) = n % 256 ^ k := by
  induction k generalizing n with
  | zero => rw [leBytes, leNat, Nat.pow_zero, Nat.mod_one]
  | succ k ih =>
    have hsplit : n % (256 * 256 ^ k) = n % 256 + 256 * (n / 256 % 256 ^ k) := Nat.mod_mul
    rw [leBytes, leNat, ih, Nat.pow_succ', hsplit, BitVec.toNat_ofNat]

/-- A field of a byte string in front of which `a` stands. -/
theorem leAt_leBytes {a b : List Byte} {o k n : Nat} (ho : a.length = o) (hn : n < 256 ^ k) :
    leAt (a ++ (leBytes k n ++ b)) o k = n := by
  unfold leAt
  rw [List.drop_left' ho, List.take_left' (leBytes_length k n), leNat_leBytes, Nat.mod_eq_of_lt hn]

theorem chunks64_succ (n : Nat) (b : List Byte) : chunks64 (n + 1) b = b.take 64 :: chunks64 n (b.drop 64) := by
  unfold chunks64
  rw [List.range_succ_eq_map, List.map_cons, List.map_map]
  refine congrArg₂ List.cons rfl (List.map_congr_left fun i _ => ?_)
  show (b.drop (64 * (i + 1))).take 64 = _
  rw [List.drop_drop, Nat.mul_succ, Nat.add_comm]

/-- Pieces of 64 bytes that were put together come apart again. -/
theorem chunks64_flatten {es : List (List Byte)} (h : ∀ e ∈ es, e.length = 64) : chunks64 es.length es.flatten = es := by
  induction es with
  | nil => rfl
  | cons e r ih =>
    obtain ⟨he, hr⟩ := List.forall_mem_cons.1 h
    rw [List.length_cons, chunks64_succ, List.flatten_cons, List.take_left' he, List.drop_left' he, ih hr]

end Sys2Proof.Machine
end

section
/-! Polls, their responses, status blocks and events (R327, R335, R339, R341, R342, R344). -/

namespace Sys2Proof.Machine

variable {s : State} {q : Nat}

/-! Polls. -/

/-- An unanswered poll is counted (R339). -/
theorem State.poll_skipped (hctrl : s.ctrlQp = some q) (hopen : s.pollOpen = true) : s.poll = s.bump Reg.hstPollSkip_val 1 := by
  unfold State.poll
  rw [hctrl]
  exact if_pos hopen

/-- A poll reads the credits (R339). -/
theorem State.poll_credits (hctrl : s.ctrlQp = some q) (hopen : s.pollOpen = false)
    (h : (s.postRead q .credits).flag Reg.cmdCtrl_pause = true ∨ (s.postRead q .credits).fget Reg.cmdCount_ccount = 0) :
    s.poll = s.postRead q .credits := by
  unfold State.poll
  rw [hctrl]
  refine (if_neg (Bool.eq_false_iff.1 hopen)).trans (if_pos ?_)
  rcases h with h | h <;> simp [h]

/-- With entries to come a poll reads up to 8 of them as well, to the ring's end (R339). -/
theorem State.poll_entries (hctrl : s.ctrlQp = some q) (hopen : s.pollOpen = false)
    (hpause : (s.postRead q .credits).flag Reg.cmdCtrl_pause = false)
    (hsome : (s.postRead q .credits).fget Reg.cmdCount_ccount ≠ 0) :
    s.poll =
      (let u := s.postRead q .credits
       let n := u.fget Reg.cmdCount_ccount
       (u.postRead q (.cmds (u.wget Reg.cmdCi0) (min 8 (n - u.wget Reg.cmdCi0 % n)))).fput Reg.cmdStat_fetch 1) := by
  unfold State.poll
  rw [hctrl]
  exact (if_neg (Bool.eq_false_iff.1 hopen)).trans (if_neg (by simp [hpause, hsome]))

theorem State.standbyPoll_reads (hmode : s.portMode = 1) (hup : s.portUp (1 - s.hst.active) = true)
    (hslot : s.ctrlSlot (1 - s.hst.active) = some q) (hroom : (s.qp q).reads.length < 8) :
    s.standbyPoll = s.postRead q .standby := by
  unfold State.standbyPoll
  dsimp only
  rw [if_pos ⟨hmode, hup⟩, hslot]
  exact if_pos hroom

/-! Events. -/

section
variable {e : Event} {rest : List Event}

/-- Without a port for control traffic an event waits (R341). -/
theorem State.writeEvent_noPort (hhead : s.evq.head = some (e, rest)) (hctrl : s.ctrlQp = none) :
    s.writeEvent = s.fput Reg.evqStat_wait 1 := by
  unfold State.writeEvent
  rw [hhead, hctrl]

/-- Without room in the ring an event waits (R341). -/
theorem State.writeEvent_full (hhead : s.evq.head = some (e, rest)) (hctrl : s.ctrlQp = some q)
    (hfull : s.fget Reg.evqCount_ecount ≤ s.wget Reg.evqPi0 - s.wget Reg.evqCi0) :
    s.writeEvent = s.fput Reg.evqStat_wait 1 := by
  unfold State.writeEvent
  rw [hhead, hctrl]
  exact if_pos (.inl hfull)

/-- An event is written when the ring has room, and one with LOST brings EVQ_LOST (R341, R342). -/
theorem State.writeEvent_written (hhead : s.evq.head = some (e, rest)) (hctrl : s.ctrlQp = some q)
    (hroom : s.wget Reg.evqPi0 - s.wget Reg.evqCi0 < s.fget Reg.evqCount_ecount) :
    s.writeEvent =
      (let i := s.wget Reg.evqPi0
       let n := s.fget Reg.evqCount_ecount
       let b := e.bytes (i / n % 2 == 0) (s.flag Reg.evqStat_lost) (s.fget Reg.evqStat_seq)
       let off := s.regionKey (slotPort q) 48 4 + 32 * (i % n)
       let fits := s.flag Reg.evqStat_lost && decide (s.evq.taken < Sev.warn.room)
       let u : State := { s with evq := { s.evq with
         staged := if fits then s.lostRecord :: rest else rest
         flying := s.evq.flying ++ [i], lost := if fits then 0 else s.evq.lost } }
       let u := (if s.flag Reg.evqStat_lost = true ∧ fits = false then u.loseEvent else u.fput Reg.evqStat_lost 0).fput
         Reg.evqStat_seq (s.fget Reg.evqStat_seq + 1)
       let u := (u.wput Reg.evqPi0 (i + 1)).post q (.ctl (off + 1) (b.drop 1))
       let u := u.post q (.ev0 i off (b.headD 0))
       u.fputB Reg.evqStat_wait u.evqFull) := by
  unfold State.writeEvent
  rw [hhead, hctrl]
  refine (if_neg (by omega)).trans ?_
  simp only [Bool.and_eq_true, Bool.not_eq_true']

end

/-! Responses. -/

section
variable {d : Rd} {r : ReadData}

/-- The answered READ of a poll leaves its slot (R339). -/
def State.pollAnswered (s : State) (q : Nat) (d : Rd) : State :=
  (s.readsLeft q ((s.qp q).reads.erase d)).fput (Reg.qptQpStat_run q) 0

theorem State.readResponse_kind (hread : (s.qp q).reads.find? (fun d => d.kind.polls) = some d) :
    s.readResponse q r =
      match d.kind with
      | .standby => s.pollAnswered q d
      | .dma _ _ _ => s.pollAnswered q d
      | .credits => ((s.pollAnswered q d).creditLine (leAt (readBytes r) 0 8)).creditEvent (leAt (readBytes r) 8 8)
      | .cmds first n =>
        let w := (s.pollAnswered q d).fput Reg.cmdStat_fetch 0
        if first ≠ w.wget Reg.cmdCi0 then w
        else
          let t := w.takeEntries ((chunks64 n (readBytes r)).takeWhile (fun c => c.length == 64))
          (if t.wget Reg.cmdCi0 != first then t.statusBlock else t).cmdNext := by
  unfold State.readResponse
  rw [hread]
  rfl

theorem State.readResponse_standby (hread : (s.qp q).reads.find? (fun d => d.kind.polls) = some d)
    (hkind : d.kind = .standby) : s.readResponse q r = s.pollAnswered q d := by
  rw [State.readResponse_kind hread, hkind]

/-- The credits that a READ brings are taken (R338, R341). -/
theorem State.readResponse_credits (hread : (s.qp q).reads.find? (fun d => d.kind.polls) = some d)
    (hkind : d.kind = .credits) (x y : BitVec 64) :
    s.readResponse q (.credits x y) = ((s.pollAnswered q d).creditLine x.toNat).creditEvent y.toNat := by
  have hline : leAt (readBytes (.credits x y)) 0 8 = x.toNat := leAt_leBytes (a := []) rfl x.isLt
  have hevent : leAt (readBytes (.credits x y)) 8 8 = y.toNat := by
    have h := leAt_leBytes (b := []) (leBytes_length 8 x.toNat) (k := 8) y.isLt
    rwa [List.append_nil] at h
  rw [State.readResponse_kind hread, hkind]
  dsimp only
  rw [hline, hevent]

section
variable {first : Nat} {es : List (List Byte)}

/-- A response of whole entries is taken entry by entry (R344). -/
theorem State.readResponse_cmds (hread : (s.qp q).reads.find? (fun d => d.kind.polls) = some d)
    (hkind : d.kind = .cmds first es.length) (hes : ∀ e ∈ es, e.length = 64) :
    s.readResponse q (.entries es) =
      (let w := (s.pollAnswered q d).fput Reg.cmdStat_fetch 0
       let t := w.takeEntries es
       if first ≠ w.wget Reg.cmdCi0 then w
       else (if t.wget Reg.cmdCi0 != first then t.statusBlock else t).cmdNext) := by
  have hwhole : (chunks64 es.length (readBytes (.entries es))).takeWhile (fun c => c.length == 64) = es := by
    rw [readBytes, chunks64_flatten hes]
    exact List.takeWhile_eq_self_iff.2 fun e he => beq_iff_eq.2 (hes e he)
  rw [State.readResponse_kind hread, hkind]
  dsimp only
  rw [hwhole]

end

end

/-! Entries (R344). -/

section
variable {b : List Byte} {r : List (List Byte)}

/-- The phase of an entry is that of its index (R343). -/
abbrev State.inPhase (s : State) (b : List Byte) : Prop :=
  bitAt (leAt b 0 1) 7 = cmdPhase (s.fget Reg.cmdCount_ccount) (s.wget Reg.cmdCi0)

theorem State.takeEntries_outOfPhase (h : ¬ s.inPhase b) : s.takeEntries (b :: r) = s := by
  rw [State.takeEntries]
  exact if_pos (bne_iff_ne.2 h)

theorem State.takeEntries_good (h : s.inPhase b) (hcheck : crc32c (b.take 60) = leAt b 60 4) :
    s.takeEntries (b :: r) = (s.takeEntry b false).takeEntries r := by
  rw [State.takeEntries]
  exact (if_neg (by simpa using h)).trans (if_pos hcheck)

/-- A CHECK that fails is counted: the third failure in a row takes the entry as bad (R344). -/
theorem State.takeEntries_bad (h : s.inPhase b) (hcheck : crc32c (b.take 60) ≠ leAt b 60 4) :
    s.takeEntries (b :: r) =
      (let u := s.bump Reg.cmdCntCheck_val 1
       if u.fget Reg.cmdStat_retry + 1 < 3 then u.fput Reg.cmdStat_retry (u.fget Reg.cmdStat_retry + 1)
       else (u.takeEntry b true).takeEntries r) := by
  rw [State.takeEntries]
  exact (if_neg (by simpa using h)).trans (if_neg hcheck)

end

/-- Settles O52, by what the poll, the event, the response and the entry meet. -/
theorem pollsAndEvents : Obligations.PollsAndEvents := by
  unfold Obligations.PollsAndEvents
  refine fun s => ⟨fun q hctl hctrl => ⟨fun hopen => next_ctl hctl (State.poll_skipped hctrl hopen),
      fun hopen => ⟨fun h => next_ctl hctl (State.poll_credits hctrl hopen h),
        fun hpause hsome => next_ctl hctl (State.poll_entries hctrl hopen hpause hsome)⟩⟩,
    fun q hctl hmode hup hslot hroom => next_ctl hctl (State.standbyPoll_reads hmode hup hslot hroom),
    fun hctl => next_ctl hctl rfl,
    fun e rest hctl hhead => ⟨fun hctrl => next_ctl hctl (State.writeEvent_noPort hhead hctrl),
      fun q hctrl hfull => next_ctl hctl (State.writeEvent_full hhead hctrl hfull),
      fun q hctrl hroom => next_ctl hctl (State.writeEvent_written hhead hctrl hroom)⟩,
    fun q f d hup hframe hon hread =>
      ⟨fun x y hkind => next_rxPacket hup hframe hon (State.readResponse_credits hread hkind x y),
        fun _ hkind => next_rxPacket hup hframe hon (State.readResponse_standby hread hkind),
        fun first es hkind hes => ?_⟩,
    fun t b r => ⟨fun h => State.takeEntries_outOfPhase h, fun h hcheck => State.takeEntries_good h hcheck,
      fun h hcheck => ⟨fun hfew => ?_, fun hmany => ?_⟩⟩⟩
  · have hcmds := State.readResponse_cmds hread hkind hes
    refine ⟨fun hold => ?_, fun hnew hnone => ?_, fun hnew hsome => ?_⟩
    · exact next_rxPacket hup hframe hon (hcmds.trans (if_pos hold))
    · exact next_rxPacket hup hframe hon (hcmds.trans ((if_neg (not_not.2 hnew)).trans
        (congrArg State.cmdNext (if_neg (bne_iff_ne.not.2 (not_not.2 hnone))))))
    · exact next_rxPacket hup hframe hon (hcmds.trans ((if_neg (not_not.2 hnew)).trans
        (congrArg State.cmdNext (if_pos (bne_iff_ne.2 hsome)))))
  · exact (State.takeEntries_bad h hcheck).trans (if_pos (Nat.succ_lt_succ hfew))
  · exact (State.takeEntries_bad h hcheck).trans (if_neg (Nat.not_lt.2 (Nat.succ_le_succ hmany)))

end Sys2Proof.Machine
end

section
/-! Links and ports, and the frames that a port receives (R327, R329, R330, R351, R354). -/

namespace Sys2Proof.Machine

variable {s : State} {p : Nat}

/-! The link of a port (R351). -/

/-- A link that is lost starts LINK_HOLD. -/
theorem State.linkLost_linked {remote : Bool} (h : s.flag (Reg.hstPortStat_link p) = true) :
    s.linkLost p remote =
      (let u := (s.fput (Reg.hstPortStat_link p) 0).fput
         (if remote then Reg.hstPortStat_rfault p else Reg.hstPortStat_lfault p) 1
       u.setPort p { u.port p with holding := true }) := if_pos h

theorem State.linkHeld_lost (hhold : (s.port p).holding = true) (hlink : s.flag (Reg.hstPortStat_link p) = false) :
    s.linkHeld p =
      if s.portState p = 2 then s.portDown p 1 0
      else
        let u := s.setPort p { s.port p with holding := false, train := true }
        if s.portState p = 1 then u.fput (Reg.hstPortStat_state p) 0 else u := if_pos (by simp [hhold, hlink])

theorem State.linkHeld_up (hhold : (s.port p).holding = true) (hlink : s.flag (Reg.hstPortStat_link p) = false)
    (hstate : s.portState p = 2) : s.linkHeld p = s.portDown p 1 0 := (State.linkHeld_lost hhold hlink).trans (if_pos hstate)

theorem State.linkHeld_steady (hhold : (s.port p).holding = true) (hlink : s.flag (Reg.hstPortStat_link p) = false)
    (hstate : s.portState p = 1) :
    s.linkHeld p = (s.setPort p { s.port p with holding := false, train := true }).fput (Reg.hstPortStat_state p) 0 :=
  (State.linkHeld_lost hhold hlink).trans ((if_neg (by omega)).trans (if_pos hstate))

theorem State.linkBack_held (h : (s.port p).holding = true) :
    s.linkBack p =
      (let u := (s.linkGood p).setPort p { s.port p with holding := false }
       if u.portUp p then u.each ((portSlots p).filter (fun q => u.qpRts q && !u.qpMoved q)) (fun q u => u.resend q)
       else u) := if_pos h

theorem State.linkTrained_trains (htrain : (s.port p).train = true) (hstate : s.portState p ≠ 3)
    (hloaded : s.flag Reg.sysState_loaded = true) :
    s.linkTrained p = (s.linkGood p).setPort p { s.port p with train := false, holding := false } :=
  if_pos (by simp [htrain, hstate, hloaded])

theorem State.portSteady_linked (hstate : s.portState p < 2) (hlink : s.flag (Reg.hstPortStat_link p) = true) :
    s.portSteady p = (s.fput (Reg.hstPortStat_state p) 1).portTry p := if_neg (by simp [hstate, hlink])

/-! The control registers of the ports (R327, R351). -/

section
variable {f : Path} {v : Word}

theorem hstPortCtrl_plain : ∀ p : Fin 2,
    plainReg (Reg.hstPortCtrl p) = true ∧ claimRegs.contains (Reg.hstPortCtrl p) = false := by decide

theorem hstPortCtrl_block : ∀ p : Fin 2,
    Reg.hstPortCtrl p / 0x10000 = 3 ∧ Reg.hstPortCtrl p ≠ Reg.hstCtrl ∧ chanAt (Reg.hstPortCtrl p) = none ∧
      famIx Reg.hstPortCtrl 2 (Reg.hstPortCtrl p) = some p.val := by decide

/-- The host blocks act on a write of their registers (R8). -/
theorem State.effect_host {before t : State} {a v : Nat}
    (h : a / 0x10000 = 3 ∨ a / 0x10000 = 4 ∨ a / 0x10000 = 7 ∨ a / 0x10000 = 8) :
    t.effect before f a v = t.effectHost before a v := by
  rcases h with h | h | h | h <;> simp only [State.effect, h]

theorem State.pathWrite_hstPortCtrl (p : Fin 2) (h : s.accepts f (Reg.hstPortCtrl p) v) :
    s.pathWrite f (Reg.hstPortCtrl p) v =
      (let t := s.stored (Reg.hstPortCtrl p) v
       if fld v.toNat (Reg.hstPortCtrl_down p) = 1 then
         if s.flag (Reg.hstPortCtrl_down p) || !t.portUp p then t else t.portDown p 4 0
       else t.portTry p) := by
  obtain ⟨hplain, hclaim⟩ := hstPortCtrl_plain p
  obtain ⟨hblock, hother, hchan, hport⟩ := hstPortCtrl_block p
  rw [State.pathWrite_unclaimed hplain hclaim h, State.effect_host (.inl hblock)]
  simp only [State.effectHost, if_neg hother, hchan, hport]

theorem State.pathWrite_hstCtrl (h : s.accepts f Reg.hstCtrl v) :
    s.pathWrite f Reg.hstCtrl v =
      (let t := s.stored Reg.hstCtrl v
       if t.portMode = s.portMode ∧ t.primary = s.primary then t else t.portModes (t.portMode != s.portMode)) := by
  rw [State.pathWrite_unclaimed (by decide) (by decide) h, State.effect_host (by decide)]
  exact if_pos rfl

end

/-! Frames (R329, R330). -/

theorem State.arp_own {target mac ip : Nat} (hlink : s.flag (Reg.hstPortStat_link p) = true) (h : target = s.portIp4 p) :
    s.arp p target mac ip = s.emit p (.arp p s.vlanTag true mac (s.portMac p) (s.portIp4 p) mac ip) :=
  if_pos (by simp [hlink, h])

theorem State.arp_other {target mac ip : Nat} (hlink : s.flag (Reg.hstPortStat_link p) = true) (h : target ≠ s.portIp4 p) :
    s.arp p target mac ip = s.bump (Reg.hstPortRxdisc_val p) 1 :=
  (if_neg (by simp [h])).trans (State.discardFrame_linked hlink)

theorem State.neighbour_own {target mac ip : Nat} (hlink : s.flag (Reg.hstPortStat_link p) = true) (h : target = s.portIp6 p) :
    s.neighbour p target mac ip = s.emit p (.nadv p s.vlanTag mac ip (s.portMac p) target true) :=
  if_pos (by simp [hlink, h])

theorem State.neighbour_other {target mac ip : Nat} (hlink : s.flag (Reg.hstPortStat_link p) = true)
    (h : target ≠ s.portIp6 p) : s.neighbour p target mac ip = s.bump (Reg.hstPortRxdisc_val p) 1 :=
  (if_neg (by simp [h])).trans (State.discardFrame_linked hlink)

/-- A PFC frame of the port's priority pauses it, and one with time 0 ends the pause (R330). -/
theorem State.pfc_own {prio quanta : Nat} (hlink : s.flag (Reg.hstPortStat_link p) = true)
    (hprio : prio = s.fget Reg.hstNet_pcp) :
    s.pfc p prio quanta =
      if quanta = 0 then s.pauseEnd p
      else if s.flag (Reg.hstPortStat_paused p) then s
      else (s.setPort p { s.port p with pausedAt := s.sys.now }).fput (Reg.hstPortStat_paused p) 1 :=
  if_neg (by simp [hlink, hprio])

theorem State.pfc_pauses {prio : BitVec 3} {quanta : BitVec 16} (hlink : s.flag (Reg.hstPortStat_link p) = true)
    (hprio : prio.toNat = s.fget Reg.hstNet_pcp) (hquanta : quanta ≠ 0) (hfree : s.flag (Reg.hstPortStat_paused p) = false) :
    s.pfc p prio.toNat quanta.toNat =
      (s.setPort p { s.port p with pausedAt := s.sys.now }).fput (Reg.hstPortStat_paused p) 1 := by
  have hsome : quanta.toNat ≠ 0 := fun h => hquanta (BitVec.eq_of_toNat_eq h)
  exact (State.pfc_own hlink hprio).trans ((if_neg hsome).trans (if_neg (Bool.eq_false_iff.1 hfree)))

theorem State.pfc_releases {prio : BitVec 3} {quanta : BitVec 16} (hlink : s.flag (Reg.hstPortStat_link p) = true)
    (hprio : prio.toNat = s.fget Reg.hstNet_pcp) (hquanta : quanta = 0) :
    s.pfc p prio.toNat quanta.toNat = s.pauseEnd p :=
  (State.pfc_own hlink hprio).trans (if_pos (by rw [hquanta]; rfl))

/-- The frames that waited go out when the pause ends (R330). -/
theorem State.pauseEnd_paused (h : s.flag (Reg.hstPortStat_paused p) = true) :
    s.pauseEnd p = (s.port p).held.foldl State.out
      ((s.setPort p { s.port p with held := [], pausedNs := s.pauseTime p }).fput (Reg.hstPortStat_paused p) 0) := if_pos h

/-- A pause that lasts PFC_WD takes the port down (R330). -/
theorem State.pfcStall_stalls (hpaused : s.flag (Reg.hstPortStat_paused p) = true) (hup : s.portUp p = true)
    (hwd : s.fget Reg.hstNet_pfc_wd ≠ 0) :
    s.pfcStall p =
      (s.raise 0x2005 .warn p (pf 24 4 ((s.sys.now - (s.port p).pausedAt) / 1000))).portDown p 3 0 :=
  if_pos (by simp [hpaused, hup, hwd])

/-- Settles O50, by the row and by what its port shows. -/
theorem linksAndPorts : Obligations.LinksAndPorts := by
  unfold Obligations.LinksAndPorts
  refine ⟨fun s p => ⟨fun hup => ⟨fun hlink _ => next_live hup (State.linkLost_linked hlink),
      fun hhold hlink => ⟨fun hstate => next_live hup (State.linkHeld_up hhold hlink hstate),
        fun hstate => next_live hup (State.linkHeld_steady hhold hlink hstate)⟩,
      fun hhold => next_live hup (State.linkBack_held hhold),
      fun htrain hstate hloaded => next_live hup (State.linkTrained_trains htrain hstate hloaded),
      fun hstate hlink => next_live hup (State.portSteady_linked hstate hlink)⟩,
    fun f v hacc => ⟨fun hdown hwas hport => ?_, fun hdown => ?_⟩,
    fun f v hacc => ⟨fun hnew => ?_, fun hmode hprimary => ?_⟩⟩,
    fun s p hup => ⟨fun hlink => next_live hup (State.discardFrame_linked hlink),
      fun f _ hlink hother => ⟨fun _ _ _ => next_live hup (State.rxFrame_refused hlink hother),
        fun _ _ _ => next_live hup (State.rxFrame_refused hlink hother),
        fun _ _ => next_live hup (State.rxFrame_refused hlink hother)⟩,
      fun f hframe => ⟨fun target mac ip => ⟨fun hown => ?_, fun hother => ?_⟩,
        fun target mac ip => ⟨fun hown => ?_, fun hother => ?_⟩,
        fun prio quanta hprio => ⟨fun hquanta hfree => ?_, fun hquanta => ?_⟩⟩,
      fun hpaused => ⟨next_live hup (State.pauseEnd_paused hpaused),
        fun hport hwd => next_live hup (State.pfcStall_stalls hpaused hport hwd)⟩⟩⟩
  · exact next_eq ((State.pathWrite_hstPortCtrl p hacc).trans ((if_pos hdown).trans (if_neg (by simp [hwas, hport]))))
  · exact next_eq ((State.pathWrite_hstPortCtrl p hacc).trans (if_neg (by omega)))
  · exact next_eq ((State.pathWrite_hstCtrl hacc).trans (if_neg (not_and_or.2 hnew)))
  · exact next_eq ((State.pathWrite_hstCtrl hacc).trans (if_pos ⟨hmode, hprimary⟩))
  · exact next_live hup ((State.rxFrame_taken hframe).trans (State.arp_own hframe.1 hown))
  · exact next_live hup ((State.rxFrame_taken hframe).trans (State.arp_other hframe.1 hother))
  · exact next_live hup ((State.rxFrame_taken hframe).trans (State.neighbour_own hframe.1 hown))
  · exact next_live hup ((State.rxFrame_taken hframe).trans (State.neighbour_other hframe.1 hother))
  · exact next_live hup ((State.rxFrame_taken hframe).trans (State.pfc_pauses hframe.1 hprio hquanta hfree))
  · exact next_live hup ((State.rxFrame_taken hframe).trans (State.pfc_releases hframe.1 hprio hquanta))

end Sys2Proof.Machine
end

section
/-! Queue pairs: acknowledgements, failures, reset and rate (R329, R332 to R334, R352). -/

namespace Sys2Proof.Machine

variable {s : State} {q : Nat}

/-- What one covered message frees: the entry of a header, the place of an event record (R306, R333, R341). -/
def State.freed (port : Nat) (u : State) (m : Msg) : State :=
  match m.body with
  | .header i => u.release port i
  | .ev0 e _ _ => { u with evq := { u.evq with flying := u.evq.flying.filter (· != e) } }
  | _ => u

/-- The slot shows an acknowledgement that has freed what it covers (R332, R333). -/
def State.ackShown (u : State) (q psn : Nat) (msgs : List Msg) : State :=
  (u.setQp q { u.qp q with
    acked := some psn
    msgs := msgs.filter (fun m => !psnGe psn m.last || u.keepsMsg m) }).statusWaiters.advanceFree

/-- The acknowledgement of a slot that has had none counts from its oldest message up to what it has sent (R332). -/
theorem State.ack_first {psn : Nat} (hacked : (s.qp q).acked = none)
    (holdest : psnGe psn (((s.qp q).msgs.map (·.psn)).headD (s.fget (Reg.qptQpPsn_psn q))) = true)
    (hsent : psnGe psn (s.fget (Reg.qptQpPsn_psn q)) = false) :
    s.ack q psn = (((s.qp q).msgs.filter (fun m => psnGe psn m.last)).foldl (State.freed (slotPort q))
      ((s.fput (Reg.qptQpAckpsn_psn q) psn).fput (Reg.qptQpStat_run q) 0)).ackShown q psn (s.qp q).msgs := by
  unfold State.ack
  refine (if_neg ?_).trans (congrArg (fun u => State.ackShown u q psn (s.qp q).msgs) (congrArg (fun f => List.foldl f _ _) ?_))
  · rw [hacked, holdest, hsent]
    simp
  · funext u m
    unfold State.freed
    cases m.body <;> rfl

theorem State.qpFailed_last (h : s.fget (Reg.qptQpStat_run q) = 7) : s.qpFailed q = s.qpError q 1 := if_pos h

theorem State.qpFailed_again (h : s.fget (Reg.qptQpStat_run q) ≠ 7) :
    s.qpFailed q = (s.fput (Reg.qptQpStat_run q) (s.fget (Reg.qptQpStat_run q) + 1)).resend q := if_neg h

/-- Outside RTS a slot takes no NAK (R333). -/
theorem State.nak_rts {c : NakCode} (h : s.qpRts q = true) :
    s.nak q c =
      match c with
      | .seqErr => (s.bump (Reg.qptQpRetry_seqnaks q) 1).qpFailed q
      | .remoteAccess => s.qpError q 2
      | .remoteOperational => s.qpError q 3
      | .invalidRequest => s.qpError q 4
      | .rnr => s.qpError q 5 := by
  cases c <;> exact if_neg (by simp [h])

/-- The state that a time-out finds: the READs that channels wait for are outstanding (log entry 96). -/
def State.timeoutFinds (s : State) (q : Nat) : State := if s.sends q then s.readsShow q else s

/-- A time-out with a READ outstanding is a failed attempt (R333). -/
theorem State.ackTimeout_reads (hrts : (s.timeoutFinds q).qpRts q = true)
    (hup : (s.timeoutFinds q).portUp (slotPort q) = true) (hreads : ((s.timeoutFinds q).qp q).reads ≠ []) :
    s.ackTimeout q = ((s.timeoutFinds q).bump (Reg.qptQpRetry_timeouts q) 1).qpFailed q := by
  have hwaits : (((s.timeoutFinds q).qp q).reads != []) = true := bne_iff_ne.2 hreads
  unfold State.ackTimeout
  exact if_pos (by rw [← State.timeoutFinds, hrts, hup, hwaits]; rfl)

theorem qptQpCtrl_plain : ∀ q : Fin 16,
    plainReg (Reg.qptQpCtrl q) = true ∧ claimRegs.contains (Reg.qptQpCtrl q) = false := by decide

theorem qptQpCtrl_block : ∀ q : Fin 16,
    Reg.qptQpCtrl q / 0x10000 = 4 ∧ Reg.qptQpCtrl q ≠ Reg.hstCtrl ∧ chanAt (Reg.qptQpCtrl q) = none ∧
      famIx Reg.hstPortCtrl 2 (Reg.qptQpCtrl q) = none ∧ famIx Reg.qptQpCtrl 16 (Reg.qptQpCtrl q) = some q.val := by decide

/-- RESET brings a slot back (R333, R352). -/
theorem State.pathWrite_qptQpCtrl {f : Path} {v : Word} (q : Fin 16) (h : s.accepts f (Reg.qptQpCtrl q) v)
    (hreset : fld v.toNat (Reg.qptQpCtrl_reset q) = 1) :
    s.pathWrite f (Reg.qptQpCtrl q) v = (s.stored (Reg.qptQpCtrl q) v).slotReset q := by
  obtain ⟨hplain, hclaim⟩ := qptQpCtrl_plain q
  obtain ⟨hblock, hother, hchan, hport, hslot⟩ := qptQpCtrl_block q
  rw [State.pathWrite_unclaimed hplain hclaim h, State.effect_host (.inr (.inl hblock))]
  simp only [State.effectHost, if_neg hother, hchan, hport, hslot, if_pos hreset]

/-! The rate (R334). -/

/-- A CNP without a reaction in the last 50 µs lowers the rate. -/
theorem State.cnp_reacts (hon : s.qpOn q = true) (hen : (s.bump (Reg.qptQpCnp_val q) 1).flag Reg.qptEcn1_en = true)
    (hreact : ((s.bump (Reg.qptQpCnp_val q) 1).qp q).react = none) :
    s.cnp q =
      (let u := s.bump (Reg.qptQpCnp_val q) 1
       let x := u.qp q
       let r := u.fget (Reg.qptQpRate_r q)
       let t := (u.fput (Reg.qptQpRate_rt q) r).fput (Reg.qptQpRate_r q)
         (max (r - r * x.alpha / 2 ^ 17) (u.fget Reg.qptEcn1_rmin))
       t.setQp q { x with
         alpha := x.alpha + (65536 - x.alpha) / 2 ^ t.fget Reg.qptEcn0_g, n := 0, react := some u.sys.now }) := by
  unfold State.cnp
  dsimp only
  rw [if_neg (by simp [hon]), hen, hreact, if_neg (by simp)]
  rw [State.fput_sys, State.fput_sys]

theorem State.alphaDecay_on (hon : s.qpOn q = true) (hen : s.flag Reg.qptEcn1_en = true) :
    s.alphaDecay q = s.setQp q { s.qp q with alpha := (s.qp q).alpha - (s.qp q).alpha / 2 ^ s.fget Reg.qptEcn0_g } :=
  if_pos (by simp [hon, hen])

theorem State.rateRise_on (hon : s.qpOn q = true) (hen : s.flag Reg.qptEcn1_en = true) :
    s.rateRise q =
      (let x := s.qp q
       let rt := if 5 < x.n + 1 then min (s.fget (Reg.qptQpRate_rt q) + s.fget Reg.qptEcn0_rai) s.rateMax
         else s.fget (Reg.qptQpRate_rt q)
       ((s.setQp q { x with n := x.n + 1 }).fput (Reg.qptQpRate_rt q) rt).fput (Reg.qptQpRate_r q)
         (min ((s.fget (Reg.qptQpRate_r q) + rt + 1) / 2) s.rateMax)) := if_pos (by simp [hon, hen])

/-- Settles O51, by the packet that a slot receives, by its time-out, its RESET and its timers. -/
theorem queuePairs : Obligations.QueuePairs := by
  unfold Obligations.QueuePairs
  refine fun s q => ⟨fun hup f hframe hoff => ⟨fun _ => next_live hup (State.rxPacket_off hframe hoff),
      fun _ _ => next_live hup (State.rxPacket_off hframe hoff), fun _ => next_live hup (State.rxPacket_off hframe hoff),
      next_live hup (State.rxPacket_off hframe hoff)⟩,
    fun hup f psn hframe hon hacked holdest hsent => next_rxPacket hup hframe hon
      ((State.ack_first hacked holdest hsent).trans
        (congrArg (fun u => State.ackShown u q _ _) (congrArg (fun f => List.foldl f _ _) ?_))),
    fun hup f psn hframe hon hrts => ⟨⟨fun hlast => ?_, fun hagain => ?_⟩, next_rxPacket hup hframe hon (State.nak_rts hrts),
      next_rxPacket hup hframe hon (State.nak_rts hrts), next_rxPacket hup hframe hon (State.nak_rts hrts),
      next_rxPacket hup hframe hon (State.nak_rts hrts)⟩,
    fun hup hrts hport hreads => next_live hup (State.ackTimeout_reads hrts hport hreads),
    fun f v hacc hreset => next_eq (State.pathWrite_qptQpCtrl q hacc hreset),
    fun hup hon hen => ⟨fun f hframe hon' hen' hreact => next_rxPacket hup hframe hon' (State.cnp_reacts hon' hen' hreact),
      next_live hup (State.alphaDecay_on hon hen), next_live hup (State.rateRise_on hon hen)⟩⟩
  · funext u m
    unfold State.freed
    cases m.body <;> rfl
  · exact next_rxPacket hup hframe hon ((State.nak_rts hrts).trans (State.qpFailed_last hlast))
  · exact next_rxPacket hup hframe hon ((State.nak_rts hrts).trans (State.qpFailed_again hagain))

end Sys2Proof.Machine
end

section
/-! START and STOP of a DMA channel, and its triggers (R315, R319, R378). -/

namespace Sys2Proof.Machine

variable {s : State} {p : Path} {v : Word}

theorem dmaChCtrl_reg : ∀ c : Fin 32,
    (findReg (Reg.dmaChCtrl c)).any RegDesc.writes = true ∧ writeGroup (Reg.dmaChCtrl c) = none ∧
      chanAt (Reg.dmaChCtrl c) = some c.val ∧ claimRegs.contains (Reg.dmaChCtrl c) = false := by decide

theorem dmaChCtrl_block : ∀ c : Fin 32,
    Reg.dmaChCtrl c / 0x10000 = 7 ∧ Reg.dmaChCtrl c ≠ Reg.hstCtrl ∧ Reg.dmaChCtrl c ≠ Reg.sysSafeCause ∧
      Reg.dmaChCtrl c ≠ Reg.shdBank := by decide

/-- START arms the channel, then STOP ends its chain (R315, R319). -/
def State.startStop (s : State) (c v : Nat) : State :=
  let t := if fld v (Reg.dmaChCtrl_start c) = 1 then s.dmaArm c .none else s
  if fld v (Reg.dmaChCtrl_stop c) = 1 then t.dmaStop c else t

/-- A write of a channel's control register claims the channel for the host where nobody owns it (R315, R378). -/
theorem State.pathWrite_dmaChCtrl (c : Fin 32) (h : s.accepts p (Reg.dmaChCtrl c) v) :
    s.pathWrite p (Reg.dmaChCtrl c) v = ((s.claimChannel c).stored (Reg.dmaChCtrl c) v).startStop c v.toNat := by
  obtain ⟨hreg, hgroup, hchan, hclaim⟩ := dmaChCtrl_reg c
  obtain ⟨hblock, hother, hcause, hbank⟩ := dmaChCtrl_block c
  obtain ⟨d, hd, hw⟩ := Option.any_eq_true _ _ |>.1 hreg
  have hdo : s.pathWrite p (Reg.dmaChCtrl c) v =
      ((s.claimChannel c).stored (Reg.dmaChCtrl c) v).effect (s.claimChannel c) p (Reg.dmaChCtrl c) v.toNat := by
    rw [State.pathWrite_of_accepts h, State.stored_of_findReg hd]
    simp only [State.regDo, hd, hchan, hw, hgroup, State.doWrite, if_neg hcause, if_neg hbank, hclaim]
    rfl
  rw [hdo, State.effect_host (.inr (.inr (.inl hblock)))]
  simp only [State.effectHost, if_neg hother, hchan]
  rfl

section
variable {c w : Nat}

theorem State.startStop_start (hstart : fld w (Reg.dmaChCtrl_start c) = 1) (hstop : fld w (Reg.dmaChCtrl_stop c) = 0) :
    s.startStop c w = s.dmaArm c .none := by
  unfold State.startStop
  rw [if_pos hstart, if_neg (by omega)]

theorem State.startStop_stop (hstart : fld w (Reg.dmaChCtrl_start c) = 0) (hstop : fld w (Reg.dmaChCtrl_stop c) = 1) :
    s.startStop c w = s.dmaStop c := by
  unfold State.startStop
  rw [if_pos hstop, if_neg (by omega)]

theorem State.dmaStop_idle (h : s.chState c = 0 ∨ s.chState c = 5) : s.dmaStop c = s := if_pos h

/-- Without a descriptor in progress or held at its start STOP takes effect at once (R319). -/
theorem State.dmaStop_rests (hidle : s.chState c ≠ 0) (hhalted : s.chState c ≠ 5) (hcur : (s.ch c).cur = none)
    (hwait : (s.ch c).wait = none) : s.dmaStop c = s.dmaRest c true :=
  (if_neg (not_or.2 ⟨hidle, hhalted⟩)).trans (if_pos (by rw [hcur, hwait]; rfl))

/-- A descriptor in progress, or held at its start, is brought to its boundary first (R319). -/
theorem State.dmaStop_stopping (hidle : s.chState c ≠ 0) (hhalted : s.chState c ≠ 5)
    (h : (s.ch c).cur ≠ none ∨ (s.ch c).wait ≠ none) : s.dmaStop c = s.setChState c 4 := by
  refine (if_neg (not_or.2 ⟨hidle, hhalted⟩)).trans (if_neg ?_)
  rcases h with h | h <;> simp [h]

end

/-- An expiry triggers the channels that follow the timer (R315, R316). -/
theorem State.dmaTimer_enabled {t : Nat} (h : s.flag (Reg.dmaTmr_en t) = true) :
    s.dmaTimer t = s.each (List.range 32) (fun c u =>
      if u.fget (Reg.dmaChCfg_trig c) = 1 ∧ u.fget (Reg.dmaChCfg_tmr c) = t then u.dmaTrigger c else u) := by
  unfold State.dmaTimer
  rw [if_neg (by simp [h])]
  simp only [Bool.and_eq_true, beq_iff_eq]

end Sys2Proof.Machine
end

section
/-! The descriptors of a DMA channel: their start, the grant of a burst, and their end (R312 to R314, R317, R319 to R321). -/

namespace Sys2Proof.Machine

variable {s : State} {c : Nat} {fetched : List Byte}

/-! The fetch of a descriptor from the host (R317). -/

section
variable {a : Nat}

/-- A channel without a descriptor whose chain goes on at an address of memory is to fetch there (R317). -/
theorem State.fetchDue_memory (hnext : (s.ch c).nextAt = some a) (ha : a ≠ 0) (hgo : (s.ch c).go = true)
    (hcur : (s.ch c).cur = none) (hwait : (s.ch c).wait = none) : s.fetchDue c = some a := by
  unfold State.fetchDue
  dsimp only
  rw [hgo, hcur, hwait, hnext]
  simp [ha]

theorem State.fetchDue_register (hnext : (s.ch c).nextAt = some 0) : s.fetchDue c = none := by
  unfold State.fetchDue
  dsimp only
  rw [hnext]
  simp

theorem isHost_ne_zero (h : isHost a = true) : a ≠ 0 := by
  rintro rfl
  exact absurd h (by decide)

end

/-! The start of a descriptor (R313, R314, R317). -/

/-- What a descriptor at an address is that a channel starts with: the channel's own, or that of memory (R311, R317). -/
def State.descAt (s : State) (c a : Nat) (fetched : List Byte) : Desc :=
  if a = 0 then s.regDesc c else if isHost a then memDesc (padTo 64 fetched) else memDesc (s.outerBytes a 64)

/-- The channel shows the descriptor that it has come to, the `n`-th of its chain (R317). -/
def State.descShown (s : State) (c a n : Nat) (x : DmaCh) : State :=
  ((s.fput (Reg.dmaChStat_ndesc c) (min n 65535)).wput (Reg.dmaChCur0 c) a).setCh c { x with
    ndesc := n, moved := 0, dropped := 0, miss := none, discard := false, poison := false, wait := none }

/-- A channel takes a descriptor that it owns (R313, R314): halted where it is not well formed or not allowed, held where its
destination makes it wait. -/
def State.descTaken (s : State) (c a : Nat) (d : Desc) : State :=
  if !s.descOk d then (s.fput (Reg.dmaChDone_val c) 0).dmaHalt c 2
  else
    let rule := if d.op == 2 || isHost d.dst then .ok else s.dstRule d.dst d.count
    let w := s.useBanks c d.banks
    match rule with
    | .refuse => ((s.fput (Reg.dmaChDone_val c) 0).dmaConflict c d.dst).dmaHalt c 3
    | .wait => (w.setCh c { w.ch c with wait := some d }).setChState c (if w.chState c = 4 then 4 else 3)
    | .ok => (w.setCh c { w.ch c with cur := some (a, d) }).setChState c (if w.chState c = 4 then 4 else 2)

/-- The limit of a chain's descriptors (R317). -/
def State.chainLimit (s : State) (c : Nat) : Nat :=
  if s.fget (Reg.dmaChCfg_clim c) = 0 then 65535 else s.fget (Reg.dmaChCfg_clim c)

/-- A channel has come to a descriptor (R317): one that it does not own ends the chain, one past the limit halts it. -/
def State.descMet (s : State) (c a n limit : Nat) (x : DmaCh) (d : Desc) : State :=
  if !d.own then s.dmaRest c false
  else if limit < n then s.dmaHalt c 7
  else (s.descShown c a n x).descTaken c a d

/-- The start of a descriptor that has not been held, once what it waits for is there. -/
theorem State.dmaDescStart_met {a : Nat} (hnext : (s.ch c).nextAt = some a) (hgo : (s.ch c).go = true)
    (hcur : (s.ch c).cur = none) (hwait : (s.ch c).wait = none) (hgrant : s.fetchDue c = none ∨ s.dmaGrant = some c) :
    s.dmaDescStart c fetched =
      State.descMet (if a = 0 then s else s.dmaFetch c a) c a ((s.ch c).ndesc + 1) (s.chainLimit c) (s.ch c)
        (s.descAt c a fetched) := by
  have hfree : ¬ (!(s.ch c).go || (s.ch c).cur.isSome || ((s.fetchDue c).isSome && s.dmaGrant != some c)) = true := by
    rw [hgo, hcur]
    rcases hgrant with h | h <;> simp [h]
  unfold State.dmaDescStart
  extract_lets x
  split
  case h_1 hnone => exact absurd (hnone.symm.trans hnext) (by simp)
  case h_2 b hsome =>
    obtain rfl : b = a := Option.some.inj (hsome.symm.trans hnext)
    rw [if_neg hfree]
    show State.descMet (if (s.ch c).wait.isSome || decide (b = 0) then s else s.dmaFetch c b) c b
      (if (s.ch c).wait.isSome then (s.ch c).ndesc else (s.ch c).ndesc + 1) (s.chainLimit c) (s.ch c)
      ((s.ch c).wait.getD (s.descAt c b fetched)) = _
    rw [hwait]
    simp only [Option.isSome_none, Bool.false_or, decide_eq_true_eq, Bool.false_eq_true, if_false, Option.getD_none]

/-- A fetch waits for its grant (R317, R321). -/
theorem State.dmaDescStart_waits {a : Nat} (hfetch : s.fetchDue c = some a) (hgrant : s.dmaGrant ≠ some c) :
    s.dmaDescStart c fetched = s := by
  unfold State.dmaDescStart
  extract_lets x
  split
  case h_1 => rfl
  case h_2 b _ => exact if_pos (by simp [hfetch, hgrant])

section
variable {d : Desc} {x : DmaCh} {a n limit : Nat}

/-- A descriptor that is not owned ends the chain (R317). -/
theorem State.descMet_notOwned (hown : d.own = false) : s.descMet c a n limit x d = s.dmaRest c false :=
  if_pos (by rw [hown]; rfl)

/-- One past the chain's limit halts it with code 7 (R317). -/
theorem State.descMet_pastLimit (hown : d.own = true) (hlimit : limit < n) : s.descMet c a n limit x d = s.dmaHalt c 7 :=
  (if_neg (by simp [hown])).trans (if_pos hlimit)

theorem State.descMet_owned (hown : d.own = true) (hlimit : n ≤ limit) :
    s.descMet c a n limit x d = (s.descShown c a n x).descTaken c a d :=
  (if_neg (by simp [hown])).trans (if_neg (Nat.not_lt.2 hlimit))

theorem State.descTaken_illFormed (h : s.descOk d = false) :
    s.descTaken c a d = (s.fput (Reg.dmaChDone_val c) 0).dmaHalt c 2 := if_pos (by rw [h]; rfl)

/-- A descriptor into host memory becomes the channel's current one (R314). -/
theorem State.descTaken_host (h : s.descOk d = true) (hhost : isHost d.dst = true)
    (hstate : (s.useBanks c d.banks).chState c ≠ 4) :
    s.descTaken c a d =
      ((s.useBanks c d.banks).setCh c { (s.useBanks c d.banks).ch c with cur := some (a, d) }).setChState c 2 := by
  unfold State.descTaken
  dsimp only
  rw [if_neg (by simp [h]), if_pos (by simp [hhost])]
  dsimp only
  rw [if_neg hstate]

/-- A descriptor whose destination makes it wait is held at its start (R314). -/
theorem State.descTaken_waits (h : s.descOk d = true) (hhost : isHost d.dst = false) (hop : d.op ≠ 2)
    (hrule : s.dstRule d.dst d.count = .wait) (hstate : (s.useBanks c d.banks).chState c ≠ 4) :
    s.descTaken c a d =
      ((s.useBanks c d.banks).setCh c { (s.useBanks c d.banks).ch c with wait := some d }).setChState c 3 := by
  unfold State.descTaken
  dsimp only
  rw [if_neg (by simp [h]), if_neg (by simp [hhost, hop]), hrule]
  dsimp only
  rw [if_neg hstate]

end

/-- A fetch that brings a descriptor of another owner ends the chain (R317). -/
theorem State.dmaDescStart_fetched {a : Nat} (hnext : (s.ch c).nextAt = some a) (hhost : isHost a = true)
    (hgo : (s.ch c).go = true) (hcur : (s.ch c).cur = none) (hwait : (s.ch c).wait = none) (hgrant : s.dmaGrant = some c)
    (hown : (memDesc (padTo 64 fetched)).own = false) :
    s.dmaDescStart c fetched = ((s.dmaServed c).dmaRead c a 64).dmaRest c false := by
  have ha : a ≠ 0 := isHost_ne_zero hhost
  have hdesc : s.descAt c a fetched = memDesc (padTo 64 fetched) := (if_neg ha).trans (if_pos hhost)
  have hfetch : s.dmaFetch c a = (s.dmaServed c).dmaRead c a 64 := if_pos hhost
  rw [State.dmaDescStart_met hnext hgo hcur hwait (.inr hgrant), hdesc, State.descMet_notOwned hown, if_neg ha, hfetch]

/-- The channel's own descriptor needs no fetch (R315). -/
theorem State.dmaDescStart_register (hnext : (s.ch c).nextAt = some 0) (hgo : (s.ch c).go = true)
    (hcur : (s.ch c).cur = none) (hwait : (s.ch c).wait = none) :
    s.dmaDescStart c fetched = s.descMet c 0 ((s.ch c).ndesc + 1) (s.chainLimit c) (s.ch c) (s.regDesc c) :=
  State.dmaDescStart_met hnext hgo hcur hwait (.inl (State.fetchDue_register hnext))

theorem State.chainLimit_set (h : s.fget (Reg.dmaChCfg_clim c) ≠ 0) : s.chainLimit c = s.fget (Reg.dmaChCfg_clim c) := if_neg h

/-! The grant of a burst and the end of a descriptor (R319 to R321). -/

theorem State.dmaGranted_burst {host : List Byte} {poison : Bool} (h : s.dmaGrant = some c) :
    s.dmaGranted host poison = s.dmaBurst c host poison := by
  unfold State.dmaGranted
  rw [h]

/-- A descriptor that has moved its bytes, or has met a poisoned word, is reported, and its chain goes on, rests or halts. -/
theorem State.dmaDescDone_over {a : Nat} {d : Desc} (hcur : (s.ch c).cur = some (a, d))
    (hmoved : d.count ≤ (s.ch c).moved ∨ (s.ch c).poison = true) (hwrites : s.outstanding d = 0) :
    s.dmaDescDone c =
      (let r := (s.ch c).result d
       let t := s.dmaComplete c a r d
       if r = 3 ∨ r = 6 ∨ (r = 1 ∧ d.som = true) then t.dmaHalt c r
       else if t.chState c = 4 then t.dmaRest c true
       else if d.next = 0 then t.dmaRest c false
       else t.dmaNext c d.next) := by
  have hover : ¬ (((s.ch c).moved < d.count ∧ (s.ch c).poison = false) ∨ s.outstanding d ≠ 0) := by
    rcases hmoved with h | h <;> simp [h, hwrites]
  unfold State.dmaDescDone
  rw [hcur]
  exact if_neg hover

/-- Settles O49, by the row, by what its channel has come to, and by how the descriptor ends. -/
theorem dmaStartStopTrigger : Obligations.DmaStartStopTrigger := by
  unfold Obligations.DmaStartStopTrigger
  refine ⟨fun s => ⟨fun p c v hacc => ?_, fun t hup hen => next_live hup (State.dmaTimer_enabled hen),
    fun k hup => next_live hup rfl⟩,
    fun s hup => ⟨fun c fetched a hnext hhost hgo hcur hwait =>
      ⟨fun hgrant => ?_, fun hgrant hown => ?_⟩,
    fun c fetched hnext hgo hcur hwait => ?_, fun c host poison hgrant => next_live hup (State.dmaGranted_burst hgrant),
    fun c a d hcur hmoved hwrites => ?_⟩⟩
  · have hwrite := State.pathWrite_dmaChCtrl c hacc
    refine ⟨fun hstart hstop => ?_, fun hstart hstop => ?_⟩
    · exact next_eq (hwrite.trans (State.startStop_start hstart hstop))
    · have hstops := hwrite.trans (State.startStop_stop hstart hstop)
      exact ⟨fun hrest => next_eq (hstops.trans (State.dmaStop_idle hrest)),
        fun hidle hhalted hcur hwait => next_eq (hstops.trans (State.dmaStop_rests hidle hhalted hcur hwait)),
        fun hidle hhalted hheld => next_eq (hstops.trans (State.dmaStop_stopping hidle hhalted hheld))⟩
  · exact next_live hup (State.dmaDescStart_waits (State.fetchDue_memory hnext (isHost_ne_zero hhost) hgo hcur hwait) hgrant)
  · exact next_live hup (State.dmaDescStart_fetched hnext hhost hgo hcur hwait hgrant hown)
  · have hstart := State.dmaDescStart_register (fetched := fetched) hnext hgo hcur hwait
    refine ⟨fun hown hset hpast => ?_, fun hown hlimit => ?_⟩
    · exact next_live hup (hstart.trans (State.descMet_pastLimit hown ((State.chainLimit_set hset).trans_lt hpast)))
    · have hset := State.chainLimit_set (s := s) (c := c) (by omega)
      have htaken := hstart.trans (State.descMet_owned hown (hlimit.trans hset.ge))
      exact ⟨fun hbad => next_live hup (htaken.trans (State.descTaken_illFormed hbad)),
        fun hok hhost hstate => next_live hup (htaken.trans (State.descTaken_host hok hhost hstate)),
        fun hok hhost hop hrule hstate => next_live hup (htaken.trans (State.descTaken_waits hok hhost hop hrule hstate))⟩
  · have hover := State.dmaDescDone_over hcur hmoved hwrites
    refine ⟨fun hhalts => ?_, fun hgoes hstop => ?_, fun hgoes hstop hlast => ?_, fun hgoes hstop hmore => ?_⟩
    · exact next_live hup (hover.trans (if_pos hhalts))
    · exact next_live hup (hover.trans ((if_neg hgoes).trans (if_pos hstop)))
    · exact next_live hup (hover.trans ((if_neg hgoes).trans ((if_neg hstop).trans (if_pos hlast))))
    · exact next_live hup (hover.trans ((if_neg hgoes).trans ((if_neg hstop).trans (if_neg hmore))))

end Sys2Proof.Machine
end
